-- ==== Sys2Proof/Word.lean ====
section
/-! DEFINITION. The word types of the model and the index types of the hub's repeated units (R1, R5, R8, R9). -/

namespace Sys2Proof

/-- One byte of a cell, frame, message or memory. -/
abbrev Byte := BitVec 8
/-- A 16-bit value. -/
abbrev W16 := BitVec 16
/-- A 32-bit value, one word of the memory-mapped view (R55). -/
abbrev W32 := BitVec 32
/-- A 64-bit value (R55, R56). -/
abbrev W64 := BitVec 64

/-- A trunk port, TK0 or TK1. -/
abbrev Port := Fin 2
/-- A lane of a trunk port, L0 to L3. -/
abbrev Lane := Fin 4
/-- A tunnel entry, T0 to T255. -/
abbrev Tunnel := Fin 256
/-- A service class, SC0 to SC7. -/
abbrev Class := Fin 8
/-- An egress of the switch core, 0 to 14. -/
abbrev Egress := Fin 15
/-- A Steep engine, SE0 to SE11. -/
abbrev Engine := Fin 12
/-- A Caddy slot, K0 to K63. -/
abbrev KeySlot := Fin 64
/-- A power domain, codes 0 to 24 of R518. -/
abbrev Domain := Fin 25

end Sys2Proof
end

