-- ==== Sys2Proof/Syntax.lean ====
section
/-! DEFINITION. The commands and events of the hub, one constructor for each row of the spec's table (opcode_table.json), with the
operands that come from outside. -/

namespace Sys2Proof

/-- The origins of an access (R69, R645). -/
inductive Origin where
  /-- PCIe BAR0 of the management function -/
  | bar0
  /-- the management port -/
  | mp
  | se (e : Engine)
  /-- the safety manager -/
  | sm
  /-- a HOP session, named by its Caddy slot -/
  | hop (k : KeySlot)
  /-- open HOP frames -/
  | openHop
  /-- a remote bridge origin: requesting unit and whether its management port -/
  | remote (unit : W64) (mp : Bool)
  deriving DecidableEq, Repr

/-- Where a HOP frame came in (R90, R460): a trunk port, UDP on E0 or E1 with the sender's address and port, or interface 0 of the USB
device function. -/
inductive HopSrc where
  | usb
  | trunk (p : Port)
  | udp (eth : Fin 2) (ip : W32) (port : W16)
  deriving DecidableEq, Repr

/-- What the master of the management port does (R128, R129): an SPI transfer starts with its command byte and address, `ended` where CSn
rises before the status; it continues at the next word; CSn rises; or an I2C transfer to a slave address with its command byte and word
address. -/
inductive MpPhase where
  | spi (cmd : Byte) (addr : W32) (ended : Bool)
  | spiNext
  | spiEnd
  | i2c (slave : BitVec 7) (cmd : Byte) (addr : W32)
  deriving DecidableEq, Repr

/-- Results of delay calibration at this end (R203, log entry 12): round trips measured by the root end, arrival skews of the fixed lanes
against L1, and, at a leaf end, the cable delays the root computed; all in ps. -/
structure CalIn where
  rt1 : Nat
  rt2 : Nat
  skewAway   : Int
  skewToward : Int
  c1  : Nat
  c2  : Nat
  deriving DecidableEq, Repr

/-- What a lane's receiver has found in a direction (R152, R154, R160): CTLE code, DFE taps, thresholds, phase in UI. -/
structure RxIn where
  lane  : Lane
  ctle  : Fin 32
  dfe1  : W32
  dfe2  : W32
  dfe3  : W32
  slice : BitVec 24
  phase : W32
  deriving DecidableEq, Repr

/-- A training frame as it arrives, with what this end's hardware reports (R199 to R205, log entry 12): the bytes as the receiver sees
them before any inversion, the lane they came on, whether this end has done its part of the step, and its measurements. -/
structure TrainIn where
  frame   : List Byte
  lane    : Lane
  own     : Bool
  /-- symbols in error and received over the last 1 ms of step 6 or 7, by lane (R201) -/
  ser     : List (Lane × W32 × W32)
  /-- arrival, in ps, of markers sent together, by lane and direction (R160) -/
  arrive  : List (Lane × Fin 2 × W32)
  /-- own transmit and receive delays by lane, ps, from the serial loop of step 5 (R203) -/
  delays  : List (Lane × W16 × W16)
  /-- the far end's encrypted classes, composite root ports and initial allotment -/
  enc     : BitVec 8
  rps     : BitVec 2
  initial : BitVec 4
  /-- results of receiver adaptation -/
  rx      : List RxIn
  /-- this end's FFE request for the lane it receives (byte 26) -/
  ask     : Byte
  /-- how long this end held a calibration frame, ps -/
  hold    : W32
  cal     : Option CalIn
  deriving DecidableEq, Repr

/-- A cell an attachment presents: its local channel (R255), header, payload, and whether a sequence gap lies before it. -/
structure CellIn where
  chan : W16
  hdr  : List Byte
  body : List Byte
  gap  : Bool
  deriving DecidableEq, Repr

/-- The three kinds of TLP (R321). -/
inductive TlpKind where
  | posted | nonPosted | completion
  deriving DecidableEq, Repr

/-- A transaction-layer packet: header, data and ECRC. -/
structure Tlp where
  bytes : List Byte
  deriving DecidableEq, Repr

/-- The request a completion belongs to. -/
inductive NpKey where
  | tlp (port : Fin 2) (req tag : W16)
  | dma (ch : Fin 64) (desc : Bool)
  | bridge (id : Nat)
  deriving DecidableEq, Repr

/-- What a hub that joins the tree brings (R88, R316): its unit ID, its path from the root, and its root ports with a composite owner. -/
structure JoinIn where
  unit : W64
  path : W64
  rps  : BitVec 2
  deriving DecidableEq, Repr

/-- What a CSI-2 receiver finds of a packet: header ECC clean, corrected or uncorrectable; a start-of-transmission error; VCX bits set. -/
structure CsiPkt where
  ecc : Fin 3
  sot : Bool
  vcx : Bool
  deriving DecidableEq, Repr

/-- What the vendor firmware of the PTP engine publishes after a PTP frame (R390): port state, mean link delay, asCapable, and the
grandmaster's data as bytes 39 to 57 and the flags [5:3] of a time exchange cell hold them (R399). -/
structure PtpOut where
  port    : Fin 4
  delay   : W32
  capable : Bool
  gm      : BitVec 152
  flags   : Fin 8
  deriving DecidableEq, Repr

/-- Messages of the USB tunnel (R457): a forwarded transaction, a returned handshake with its data, and bus events. -/
inductive UsbMsg where
  | forward (key : W16) (bytes : List Byte)
  | back (key : W16) (bytes : List Byte)
  | reset | suspend | resume
  deriving DecidableEq, Repr

/-- A transaction of the host at U3 (R457). -/
inductive UsbTok where
  | setup | in_ | out | ping | iso
  deriving DecidableEq, Repr

/-- A transfer of the device function (R460 to R462): a packet on EP1 OUT with whether it is short, a read of EP1 IN, data for and from
ACM0 or ACM1, an EP0 reply of the engine with its sequence, and the status stage of a request. -/
inductive UsbXfer where
  | hopOut (bytes : List Byte) (short : Bool)
  | hopIn
  | acmOut (i : Fin 2) (bytes : List Byte)
  | acmIn (i : Fin 2)
  | ep0Reply (seq : W16) (bytes : List Byte)
  | ep0Status
  deriving DecidableEq, Repr


/-- The rows of the operation table. -/
inductive Instr where
  /-- PORN_RELEASE (R660). -/
  | pornRelease (testen : Bool)
  /-- RSTN_ASSERT (R33). -/
  | rstnAssert
  /-- RSTN_RELEASE (R659). -/
  | rstnRelease
  /-- VDD_AON_UNDERVOLTAGE_RESET (R627). -/
  | vddAonUndervoltageReset
  /-- STRAP_SAMPLE (R42). -/
  | strapSample (balls : BitVec 7)
  /-- STARTUP_SELFTEST_COMPLETE (R698). -/
  | startupSelftestComplete (fail : Option (Fin 9 × Byte))
  /-- JTAG_BYPASS (R48). -/
  | jtagBypass
  /-- JTAG_IDCODE (R48). -/
  | jtagIdcode
  /-- JTAG_SAMPLE_PRELOAD (R48). -/
  | jtagSamplePreload (pins chain : List Bool)
  /-- JTAG_EXTEST (R48). -/
  | jtagExtest (pins : List Bool)
  /-- OBJECT_WRITE (R57). -/
  | objectWrite (o : Origin) (k : BitVec 24) (v : W64)
  /-- READ_CLEAR_OBJECT_READ (R57). -/
  | readClearObjectRead (o : Origin) (k : BitVec 24)
  /-- MMIO_LOW_WORD_READ (R79). -/
  | mmioLowWordRead (o : Origin) (k : BitVec 24)
  /-- MMIO_LOW_WORD_WRITE (R80). -/
  | mmioLowWordWrite (o : Origin) (k : BitVec 24) (v : W32)
  /-- MMIO_HIGH_WORD_WRITE (R80). -/
  | mmioHighWordWrite (o : Origin) (k : BitVec 24) (v : W32)
  /-- STORE_CMD (R62). -/
  | storeCmd (o : Origin) (v : W32)
  /-- RESTORE_CMD (R65). -/
  | restoreCmd (o : Origin) (v : W32)
  /-- STORE_COMPLETE (R62). -/
  | storeComplete (fault : Bool)
  /-- GROUP_STAGE_WRITE (R69). -/
  | groupStageWrite (o : Origin) (k : BitVec 24) (v : W64)
  /-- GROUP_COMMIT (R71). -/
  | groupCommit (o : Origin) (v : W32)
  /-- GROUP_ABORT (R75). -/
  | groupAbort (o : Origin) (v : W32)
  /-- GROUP_EXPIRED (R72). -/
  | groupExpired (leader : BitVec 24)
  /-- SEG_OPEN_READ (R81). -/
  | segOpenRead (ch : Fin 4) (o : Origin)
  /-- SEG_OPEN_WRITE (R81). -/
  | segOpenWrite (ch : Fin 4) (o : Origin)
  /-- SEG_CLOSE_APPLY (R84). -/
  | segCloseApply (ch : Fin 4) (o : Origin)
  /-- SEG_ABORT (R81). -/
  | segAbort (ch : Fin 4) (o : Origin)
  /-- SEG_DATA_LAST_READ (R83). -/
  | segDataLastRead (ch : Fin 4) (o : Origin)
  /-- SEG_DATA_LAST_WRITE (R84). -/
  | segDataLastWrite (ch : Fin 4) (o : Origin) (v : W32)
  /-- SEGMENT_EXPIRED (R82). -/
  | segmentExpired (ch : Fin 4)
  /-- HOP_FRAME_RX (R86). -/
  | hopFrameRx (src : HopSrc) (frame : Option (List Byte))
  /-- HOP_READ (R93). -/
  | hopRead (slot : Option KeySlot) (k : BitVec 24) (n : Byte)
  /-- HOP_WRITE (R93). -/
  | hopWrite (slot : Option KeySlot) (k : BitVec 24) (data : List Byte)
  /-- HOP_COMMIT (R93). -/
  | hopCommit (slot : Option KeySlot) (k : BitVec 24)
  /-- HOP_STORE (R93). -/
  | hopStore (slot : Option KeySlot)
  /-- HOP_SUBSCRIBE (R99). -/
  | hopSubscribe (slot : Option KeySlot) (src : HopSrc) (path : W64) (k : BitVec 24) (period : W16)
  /-- HOP_NOTIFY (R99). -/
  | hopNotify (id : W32)
  /-- HOP_RESPONSE_RX (R100). -/
  | hopResponseRx (p : Port) (frame : List Byte)
  /-- HOP_FWD_TIMEOUT (R101). -/
  | hopFwdTimeout (id : W32)
  /-- WINDOW_READ (R110). -/
  | windowRead (bar2 : Bool) (off : BitVec 28) (n : Fin 9) (contends : Option Nat)
  /-- WINDOW_WRITE (R111). -/
  | windowWrite (bar2 : Bool) (off : BitVec 28) (n : Fin 9) (v : W32) (contends : Option Nat)
  /-- PREFETCH_IDLE_TIMEOUT (R121). -/
  | prefetchIdleTimeout (w : Fin 16)
  /-- REMOTE_BRIDGE_REQUEST_RX (R114). -/
  | remoteBridgeRequestRx (unit : W64) (mp : Bool) (id : W32) (write : Bool) (target : Fin 4) (off : W32) (n : Fin 9) (v : W32) (fill : Bool)
  /-- REMOTE_RESULT_RX (R116). -/
  | remoteResultRx (id : W32) (code : Byte) (data : W32)
  /-- REMOTE_TIMEOUT (R116). -/
  | remoteTimeout (id : W32)
  /-- NP_RETRY_REISSUE (R124). -/
  | npRetryReissue (id : W32)
  /-- MP_READ (R128). -/
  | mpRead (phase : MpPhase) (contends : Option Nat)
  /-- MP_WRITE (R128). -/
  | mpWrite (phase : MpPhase) (v : W32) (contends : Option Nat)
  /-- MEMBER_IRQ_MESSAGE_RX (R131). -/
  | memberIrqMessageRx (m : Fin 32)
  /-- SB_POLL (R132). -/
  | sbPoll (pending : W32) (rps : List (W64 × Fin 2 × Option Bool)) (joined : List JoinIn) (left : List W64)
  /-- TRAINING_START (R200). -/
  | trainingStart (p : Port)
  /-- TRAINING_FRAME_RX (R200). -/
  | trainingFrameRx (p : Port) (t : TrainIn)
  /-- TRAINING_FAULT_TIMEOUT (R202). -/
  | trainingFaultTimeout (p : Port)
  /-- PATH_WAIT_EXPIRED (R663). -/
  | pathWaitExpired
  /-- BACKOFF_WAIT_EXPIRY (R213). -/
  | backoffWaitExpiry (p : Port)
  /-- RETRAIN_CMD (R214). -/
  | retrainCmd (o : Origin) (p : Port) (v : W32)
  /-- REF_PLL_LOCK (R140). -/
  | refPllLock (p : Port)
  /-- REF_RELOCK (R143). -/
  | refRelock (p : Port)
  /-- CODEWORD_RX (R195). -/
  | codewordRx (p : Port) (l : Lane) (symbols : List (Fin 4))
  /-- FEC_DEGRADED (R197). -/
  | fecDegraded (p : Port) (l : Lane)
  /-- MARKER_RX (R184). -/
  | markerRx (p : Port) (l : Lane) (block : List Byte) (off : W32)
  /-- MARKER_MISSED (R186). -/
  | markerMissed (p : Port) (l : Lane)
  /-- ALIGNMENT_LOSS (R141). -/
  | alignmentLoss (p : Port) (l : Lane) (phase : W32)
  /-- CELL_RX (R190). -/
  | cellRx (p : Port) (cell : Option (Lane × List Byte × List Byte))
  /-- NO_SIGNAL (R211). -/
  | noSignal (p : Port) (l : Lane)
  /-- CONTROL_CELL_TIMEOUT (R211). -/
  | controlCellTimeout (p : Port)
  /-- RETRAIN_CELL_RX (R211). -/
  | retrainCellRx (p : Port) (content : Option (List Byte))
  /-- SINGLE_LANE_RETRAIN_START (R697). -/
  | singleLaneRetrainStart (p : Port) (l : Lane)
  /-- EQ_BACKCHANNEL_RX (R697). -/
  | eqBackchannelRx (p : Port) (content : Option (List Byte))
  /-- SINGLE_LANE_RETRAIN_END (R697). -/
  | singleLaneRetrainEnd (p : Port) (l : Lane) (pass : Bool) (skew : W32) (rx : RxIn)
  /-- CTLE_ADAPT_STEP (R153). -/
  | ctleAdaptStep (p : Port) (l : Lane) (move : Fin 3) (taps : Vector W32 3) (slice : BitVec 24)
  /-- TEST_MODE_IN_SERVICE (R171). -/
  | testModeInService (o : Origin) (p : Port)
  /-- TEST_MODE_SERIAL_LOOP (R168). -/
  | testModeSerialLoop (o : Origin) (p : Port)
  /-- TEST_MODE_PARALLEL_LOOP (R168). -/
  | testModeParallelLoop (o : Origin) (p : Port)
  /-- TEST_MODE_FAR_LOOP (R169). -/
  | testModeFarLoop (o : Origin) (p : Port) (honoured : Bool)
  /-- FAR_LOOP_REQUEST_RX (R169). -/
  | farLoopRequestRx (p : Port) (content : Option (List Byte))
  /-- FAR_LOOP_TIMEOUT (R171). -/
  | farLoopTimeout (p : Port)
  /-- TST_START (R170). -/
  | tstStart (o : Origin) (p : Port) (l : Lane)
  /-- TST_STOP (R170). -/
  | tstStop (o : Origin) (p : Port) (l : Lane)
  /-- TST_INJECT_ERROR (R170). -/
  | tstInjectError (o : Origin) (p : Port) (l : Lane)
  /-- EYE_SCAN_START (R174). -/
  | eyeScanStart (o : Origin) (p : Port) (l : Lane)
  /-- EYE_SCAN_ABORT (R176). -/
  | eyeScanAbort (o : Origin) (p : Port) (l : Lane)
  /-- EYE_POINT_DONE (R173). -/
  | eyePointDone (p : Port) (l : Lane) (count : W32)
  /-- EPOCH_BOUNDARY (R217). -/
  | epochBoundary
  /-- TURNAROUND_FAILED (R158). -/
  | turnaroundFailed (p : Port) (l : Lane)
  /-- ROOT_EPOCH_CONTROL_SEND (R220). -/
  | rootEpochControlSend (p : Port)
  /-- EPOCH_CONTROL_RX (R219). -/
  | epochControlRx (p : Port) (content : Option (List Byte))
  /-- REPORT_MISSING (R228). -/
  | reportMissing (p : Port)
  /-- PLAN_CHOICE (R227). -/
  | planChoice (o : Origin) (p : Port) (v : Option W32)
  /-- PLAN_LATE (R227). -/
  | planLate (p : Port)
  /-- SWAP_CMD (R239). -/
  | swapCmd (o : Origin) (p : Port) (v : W32)
  /-- SWAP_HOLD_EXPIRY (R239). -/
  | swapHoldExpiry (p : Port)
  /-- SWAP_REQUEST_RX (R241). -/
  | swapRequestRx (p : Port) (content : Option (List Byte))
  /-- SWAP_ACCEPT_RX (R240). -/
  | swapAcceptRx (p : Port) (content : Option (List Byte))
  /-- SWAP_REFUSE_RX (R244). -/
  | swapRefuseRx (p : Port) (content : Option (List Byte))
  /-- SWAP_NO_REPLY (R240). -/
  | swapNoReply (p : Port)
  /-- PHASE_CHANGE (R208). -/
  | phaseChange (o : Origin) (p : Port) (v : W32)
  /-- PHASE_INTERVAL_EXPIRY (R208). -/
  | phaseIntervalExpiry (p : Port)
  /-- KEY_PHASE_ANNOUNCE_RX (R616). -/
  | keyPhaseAnnounceRx (p : Port) (content : Option (List Byte))
  /-- CELL_INGRESS (R255). -/
  | cellIngress (ing : Fin 14) (cell : Option CellIn)
  /-- SPILL_READBACK (R278). -/
  | spillReadback
  /-- BLEND_SLOT (R284). -/
  | blendSlot (p : Egress) (l : Lane) (ecc : Fin 4)
  /-- TUN_FLOOR_WRITE (R274). -/
  | tunFloorWrite (o : Origin) (t : Tunnel) (v : W32)
  /-- GATE_CYCLE_START (R297). -/
  | gateCycleStart (p : Port)
  /-- GATE_ENTRY_CHANGE (R297). -/
  | gateEntryChange (p : Port)
  /-- PCIE_TLP_INGRESS (R321). -/
  | pcieTlpIngress (port : Fin 2) (tlp : Tlp)
  /-- PCIE_TLP_EGRESS (R321). -/
  | pcieTlpEgress (port : Fin 2) (t : Tunnel) (cells : Option (List (List Byte)))
  /-- FENCE_RELEASE (R321). -/
  | fenceRelease (t : Tunnel)
  /-- CREDIT_CELL_RX (R322). -/
  | creditCellRx (port : Fin 2) (t : Tunnel) (content : Option (List Byte))
  /-- CREDIT_CELL_SEND (R322). -/
  | creditCellSend (t : Tunnel)
  /-- PCIE_RESET_MESSAGE_RX (R314). -/
  | pcieResetMessageRx (port : Fin 2) (t : Tunnel) (content : Option (List Byte))
  /-- UPSTREAM_RESET (R314). -/
  | upstreamReset (port : Fin 2) (fundamental : Bool)
  /-- UPSTREAM_LINK_UP (R317). -/
  | upstreamLinkUp (port : Fin 2) (speed : Fin 5) (width : Fin 3)
  /-- PCIE_DL_CHANGE (R331). -/
  | pcieDlChange (unit : W64) (port : Fin 2) (link : Fin 8) (speed : Fin 5) (width : Fin 3)
  /-- NP_TIMEOUT (R327). -/
  | npTimeout (id : Nat)
  /-- COMPLETION_RX (R325). -/
  | completionRx (key : NpKey) (status : Fin 3) (final : Bool) (data : List Byte)
  /-- DMA_TAIL_WRITE (R336). -/
  | dmaTailWrite (o : Origin) (ch : Fin 64) (v : W32)
  /-- DMA_DESCRIPTOR_FETCH (R336). -/
  | dmaDescriptorFetch (ch : Fin 64)
  /-- DMA_FAULT (R337). -/
  | dmaFault (ch : Fin 64)
  /-- CSI_FRAME_START (R344). -/
  | csiFrameStart (c vc : Fin 4) (k : CsiPkt) (num : W16)
  /-- CSI_LINE_PACKET (R346). -/
  | csiLinePacket (c vc : Fin 4) (k : CsiPkt) (dt : Byte) (data : List Byte) (crcOk : Bool)
  /-- CSI_FRAME_END (R349). -/
  | csiFrameEnd (c vc : Fin 4) (k : CsiPkt)
  /-- FE_TIMEOUT (R349). -/
  | feTimeout (st : Fin 16)
  /-- TRIG_GROUP_APPLY (R354). -/
  | trigGroupApply (t : Fin 8)
  /-- TRIGGER_EDGE (R354). -/
  | triggerEdge (t : Fin 8)
  /-- TRIGGER_PULSE_END (R355). -/
  | triggerPulseEnd (t : Fin 8)
  /-- HPD_LONG_PULSE (R359). -/
  | hpdLongPulse (p : Fin 2) (high : Bool)
  /-- IRQ_HPD (R360). -/
  | irqHpd (p : Fin 2) (lost : Bool)
  /-- DISP_ENABLE_WRITE (R359). -/
  | dispEnableWrite (o : Origin) (p : Fin 2) (v : W32)
  /-- EDP_HPD_TIMEOUT (R381). -/
  | edpHpdTimeout
  /-- EDP_BACKLIGHT_TIMER (R381). -/
  | edpBacklightTimer
  /-- UPDATE_RECORD_RX (R369). -/
  | updateRecordRx (t : Tunnel) (rec_ : Option (List Byte × Option Nat))
  /-- FLIP_CMD (R371). -/
  | flipCmd (o : Origin) (q : Fin 4) (v : W32)
  /-- COMMIT_WINDOW_OPEN (R372). -/
  | commitWindowOpen (p : Fin 2)
  /-- FLIP_CARRY_END (R374). -/
  | flipCarryEnd (q : Fin 4)
  /-- DISP_UNDERRUN (R366). -/
  | dispUnderrun (p : Fin 2) (line x : W16)
  /-- SR_ENTRY_REPORT (R377). -/
  | srEntryReport (p : Fin 2)
  /-- SR_ENTRY_FAILED (R377). -/
  | srEntryFailed (p : Fin 2)
  /-- SR_UPDATE_FRAME_SENT (R378). -/
  | srUpdateFrameSent (p : Fin 2)
  /-- SR_EXIT_COMPLETE (R379). -/
  | srExitComplete (p : Fin 2)
  /-- ETH_FRAME_RX (R385). -/
  | ethFrameRx (e : Fin 2) (fcsOk : Bool) (frame : List Byte) (ptp : Option PtpOut)
  /-- ETH_EGRESS_REASSEMBLY (R388). -/
  | ethEgressReassembly (e : Fin 2) (cell : Option (Tunnel × CellIn))
  /-- MDIO_READ (R384). -/
  | mdioRead (o : Origin) (e : Fin 2) (v : W32)
  /-- MDIO_WRITE (R384). -/
  | mdioWrite (o : Origin) (e : Fin 2) (v : W32)
  /-- GPTP_SAMPLE (R390). -/
  | gptpSample (o : Origin) (v : W32) (slave : Fin 2)
  /-- TIME_COUNTER_START (R693). -/
  | timeCounterStart
  /-- TIME_LATCH_READ (R395). -/
  | timeLatchRead (o : Origin)
  /-- TIME_EXCHANGE_SEND (R399). -/
  | timeExchangeSend (p : Port)
  /-- TIME_EXCHANGE_RX (R400). -/
  | timeExchangeRx (p : Port) (content : Option (List Byte)) (sent : BitVec 96)
  /-- SERVO_SAMPLE_TIMEOUT (R401). -/
  | servoSampleTimeout
  /-- SERVO_HOLDOVER_LIMIT (R401). -/
  | servoHoldoverLimit
  /-- PPS_OUT_EDGE (R406). -/
  | ppsOutEdge
  /-- PPS_IN_EDGE (R406). -/
  | ppsInEdge
  /-- ETS_CONFIG_CHANGE (R392). -/
  | etsConfigChange (e : Fin 2)
  /-- ETS_GATE_ENTRY_CHANGE (R392). -/
  | etsGateEntryChange (e : Fin 2)
  /-- MOTION_CYCLE_START (R421). -/
  | motionCycleStart
  /-- COMMAND_DUE (R433). -/
  | commandDue
  /-- AXL_LINK_START (R416). -/
  | axlLinkStart (n : Fin 8)
  /-- AXL_RESPONSE_FRAME_RX (R418). -/
  | axlResponseFrameRx (n slot : Fin 8) (late : W32) (frame : List Byte)
  /-- RESPONSE_CELL_PRESENT (R426). -/
  | responseCellPresent (n : Fin 8)
  /-- AXL_LINK_CYCLE_END (R416). -/
  | axlLinkCycleEnd (n : Fin 8)
  /-- MOTION_CELL_RX (R432). -/
  | motionCellRx (cell : Option (Tunnel × CellIn))
  /-- RESPONSE_DUE (R434). -/
  | responseDue
  /-- MOTION_SAFE_STOP (R437). -/
  | motionSafeStop
  /-- GPIO_OUT_WRITE (R446). -/
  | gpioOutWrite (o : Origin) (v : W32)
  /-- GPIO_SET (R446). -/
  | gpioSet (o : Origin) (v : W32)
  /-- GPIO_CLR (R446). -/
  | gpioClr (o : Origin) (v : W32)
  /-- GPIO_SAMPLE (R447). -/
  | gpioSample (pins : W32)
  /-- GPIO_CHANGE_REPORT_SEND (R447). -/
  | gpioChangeReportSend
  /-- GPIO_REPORT_PERIOD (R447). -/
  | gpioReportPeriod
  /-- GPIO_CHANGE_REPORT_RX (R448). -/
  | gpioChangeReportRx (content : Option (List Byte))
  /-- GPIO_OUTPUT_CMD_RX (R448). -/
  | gpioOutputCmdRx (content : Option (List Byte))
  /-- GPIO_TIMED_CMD_APPLY (R448). -/
  | gpioTimedCmdApply
  /-- PERIPH_GO (R450). -/
  | periphGo (o : Origin) (m : Fin 6) (v : W32)
  /-- PERIPH_REQUEST_RX (R450). -/
  | periphRequestRx (m : Fin 6) (content : Option (List Byte))
  /-- POLL_DUE (R452). -/
  | pollDue (e : Fin 24)
  /-- TRANSACTION_LIST_COMPLETE (R450). -/
  | transactionListComplete (m : Fin 6) (code : Fin 4) (bytes : List Byte)
  /-- UART_DATA_READ (R443). -/
  | uartDataRead (o : Origin) (n : Fin 4)
  /-- UART_DATA_WRITE (R443). -/
  | uartDataWrite (o : Origin) (n : Fin 4) (v : W32)
  /-- UART_BYTE_RX (R454). -/
  | uartByteRx (n : Fin 4) (b : Byte) (parity stop : Bool)
  /-- UART_IDLE_FLUSH (R454). -/
  | uartIdleFlush (n : Fin 4)
  /-- UART_DATA_MESSAGE_RX (R455). -/
  | uartDataMessageRx (n : Fin 4) (content : Option (List Byte))
  /-- UART_CREDIT_MESSAGE_RX (R455). -/
  | uartCreditMessageRx (n : Fin 4) (content : Option (List Byte))
  /-- UART_GROUP_APPLY (R453). -/
  | uartGroupApply (n : Fin 4) (rxIdle : Bool)
  /-- USB_PROXY_TRANSACTION (R457). -/
  | usbProxyTransaction (tok : UsbTok) (key : W16) (bytes : List Byte)
  /-- USB_OVERCURRENT (R458). -/
  | usbOvercurrent (port : Fin 3)
  /-- USB_SUSPEND (R459). -/
  | usbSuspend
  /-- USB_RESUME (R459). -/
  | usbResume
  /-- USB_SETUP_RX (R461). -/
  | usbSetupRx (toHub : Bool) (pkt : W64)
  /-- USB_BUS_RESET (R462). -/
  | usbBusReset (upstream : Bool)
  /-- DEV_WAKE (R463). -/
  | devWake (o : Origin) (v : W32)
  /-- WAKE_DRIVE_START (R463). -/
  | wakeDriveStart
  /-- WAKE_DRIVE_END (R463). -/
  | wakeDriveEnd
  /-- WAKE_SUPERSEDED (R463). -/
  | wakeSuperseded
  /-- ENGINE_INSTRUCTION (R465). -/
  | engineInstruction (e : Engine) (ecc : Fin 4) (below : Option W32)
  /-- ENGINE_WFI (R492). -/
  | engineWfi (e : Engine)
  /-- ENGINE_WAKE (R492). -/
  | engineWake (e : Engine)
  /-- MTIMECMP_MATCH (R468). -/
  | mtimecmpMatch (e : Engine)
  /-- ENGINE_WATCHDOG_EXPIRY (R484). -/
  | engineWatchdogExpiry (e : Engine)
  /-- ENG_RUN_WRITE (R486). -/
  | engRunWrite (o : Origin) (e : Engine) (v : W32)
  /-- ENG_KICK (R486). -/
  | engKick (o : Origin) (e : Engine) (v : W32)
  /-- ENG_RESET (R484). -/
  | engReset (o : Origin) (e : Engine) (v : W32)
  /-- Q_SW_WRITE (R474). -/
  | qSwWrite (o : Origin) (e : Engine) (q : Fin 8) (v : W32)
  /-- ENGINE_QUEUE_TRANSMIT (R475). -/
  | engineQueueTransmit
  /-- ROOT_PORT_MSI_WRITE (R470). -/
  | rootPortMsiWrite (port : Fin 2) (write : Bool) (addr : W64) (req tag : W16) (tc : Fin 8)
  /-- FW_LOAD_VENDOR (R479). -/
  | fwLoadVendor (o : Origin)
  /-- FW_LOAD_SANDBOX (R481). -/
  | fwLoadSandbox (o : Origin)
  /-- FW_IMAGE_VERIFIED (R479). -/
  | fwImageVerified (sandbox done : Bool) (a b : List Byte)
  /-- TGT_CLAIM (R490). -/
  | tgtClaim (o : Origin) (t : Fin 14)
  /-- TGT_COMPLETE (R490). -/
  | tgtComplete (o : Origin) (t : Fin 14) (v : W32)
  /-- IC_RAISE (R496). -/
  | icRaise (o : Origin) (v : W32)
  /-- IC_PENDING_WRITE (R494). -/
  | icPendingWrite (o : Origin) (w : Fin 6) (v : W32)
  /-- CLOCK_MONITOR_TRIP (R511). -/
  | clockMonitorTrip (clk : Fin 11) (cause : Fin 4)
  /-- CLOCK_QUALIFIED (R506). -/
  | clockQualified (clk : Fin 11)
  /-- RC_QUAL_TIMEOUT (R512). -/
  | rcQualTimeout
  /-- CLOCK_REQUALIFIED (R514). -/
  | clockRequalified (clk : Fin 11)
  /-- CD_DIV_SET_WRITE (R504). -/
  | cdDivSetWrite (o : Origin) (d : Fin 3) (v : W32)
  /-- DIVIDER_RAMP_STEP (R504). -/
  | dividerRampStep (d : Fin 3)
  /-- RC_TRIM_STEP (R508). -/
  | rcTrimStep (up : Bool)
  /-- DOMAIN_WAKE (R522). -/
  | domainWake (d : Domain) (link : Option (Fin 6))
  /-- DOMAIN_WAKE_READY (R521). -/
  | domainWakeReady (d : Domain)
  /-- DOMAIN_WAKE_LATE (R525). -/
  | domainWakeLate (d : Domain)
  /-- DOMAIN_IDLE_TIMEOUT (R520). -/
  | domainIdleTimeout (d : Domain)
  /-- SCHEDULED_WAKE (R524). -/
  | scheduledWake (d : Domain)
  /-- PL_CHANGE (R528). -/
  | plChange
  /-- DRAM_RATE_CHANGE (R529). -/
  | dramRateChange (measured : W16)
  /-- SIMMER_EVALUATE (R530). -/
  | simmerEvaluate
  /-- SENSOR_RAISE (R531). -/
  | sensorRaise
  /-- AVS_RESPONSE_RX (R534). -/
  | avsResponseRx (crcOk : Bool) (ack : Fin 4) (vdone : Bool) (val : W16)
  /-- AVS_ACK_TIMEOUT (R534). -/
  | avsAckTimeout
  /-- VCORE_SETTLE_CHECK (R535). -/
  | vcoreSettleCheck (measured : W16)
  /-- AVS_RESTORE (R535). -/
  | avsRestore (o : Origin) (v : W32)
  /-- EN_START (R537). -/
  | enStart (o : Origin)
  /-- EN_STOP (R537). -/
  | enStop (o : Origin) (trunk : W64)
  /-- EN_WINDOW_END (R537). -/
  | enWindowEnd (trunk : W64)
  /-- PD_ATTACH (R548). -/
  | pdAttach (p : Fin 2) (farRp : Bool)
  /-- PD_DETACH (R565). -/
  | pdDetach (p : Fin 2)
  /-- DRP_TOGGLE (R547). -/
  | drpToggle (p : Fin 2)
  /-- SOURCE_CAPABILITIES_SEND (R550). -/
  | sourceCapabilitiesSend (p : Fin 2) (good : Bool)
  /-- SOURCE_CAPABILITIES_RX (R554). -/
  | sourceCapabilitiesRx (p : Fin 2) (epr : Bool) (caps : List (Fin 12 × W16 × W16))
  /-- REQUEST_RX (R555). -/
  | requestRx (p : Fin 2) (pos : Fin 16) (ma : W16)
  /-- ACCEPT_RX (R556). -/
  | acceptRx (p : Fin 2)
  /-- REJECT_RX (R558). -/
  | rejectRx (p : Fin 2)
  /-- WAIT_RX (R558). -/
  | waitRx (p : Fin 2)
  /-- WAIT_RETRY (R558). -/
  | waitRetry (p : Fin 2)
  /-- PD_TRANSITION_CODE_SET (R556). -/
  | pdTransitionCodeSet (p : Fin 2)
  /-- VBUS_SETTLED (R556). -/
  | vbusSettled (p : Fin 2) (mv : W16)
  /-- PS_RDY_RX (R556). -/
  | psRdyRx (p : Fin 2)
  /-- PS_RDY_TIMEOUT (R556). -/
  | psRdyTimeout (p : Fin 2)
  /-- VBUS_SETTLE_TIMEOUT (R556). -/
  | vbusSettleTimeout (p : Fin 2)
  /-- EPR_MODE_ENTER_RX (R552). -/
  | eprModeEnterRx (p : Fin 2)
  /-- EPR_KEEPALIVE_SEND (R555). -/
  | eprKeepaliveSend (p : Fin 2)
  /-- EPR_KEEPALIVE_TIMEOUT (R555). -/
  | eprKeepaliveTimeout (p : Fin 2)
  /-- DISCOVER_IDENTITY_RX (R559). -/
  | discoverIdentityRx (p : Fin 2)
  /-- DISCOVER_SVIDS_RX (R559). -/
  | discoverSvidsRx (p : Fin 2)
  /-- DISCOVER_MODES_RX (R559). -/
  | discoverModesRx (p : Fin 2) (svid : W16)
  /-- ENTER_MODE_RX (R559). -/
  | enterModeRx (p : Fin 2) (svid : W16) (mode : Fin 8)
  /-- EXIT_MODE_RX (R559). -/
  | exitModeRx (p : Fin 2) (svid : W16)
  /-- VDM_RESPONSE_RX (R560). -/
  | vdmResponseRx (p : Fin 2) (answer : Fin 3) (svid : W16)
  /-- PR_SWAP_CMD (R562). -/
  | prSwapCmd (o : Origin) (p : Fin 2)
  /-- DR_SWAP_CMD (R562). -/
  | drSwapCmd (o : Origin) (p : Fin 2)
  /-- HARD_RESET_CMD (R567). -/
  | hardResetCmd (o : Origin) (p : Fin 2)
  /-- GET_SOURCE_CAP_CMD (R568). -/
  | getSourceCapCmd (o : Origin) (p : Fin 2)
  /-- PR_SWAP_RX (R562). -/
  | prSwapRx (p : Fin 2)
  /-- DR_SWAP_RX (R562). -/
  | drSwapRx (p : Fin 2)
  /-- FR_SWAP_SIGNAL_RX (R563). -/
  | frSwapSignalRx (p : Fin 2)
  /-- HARD_RESET_RX (R567). -/
  | hardResetRx (p : Fin 2)
  /-- HARD_RESET_RECLOSE (R567). -/
  | hardResetReclose (p : Fin 2)
  /-- PD_CABLE_MAX_MA_WRITE (R552). -/
  | pdCableMaxMaWrite (o : Origin) (p : Fin 2) (v : W32)
  /-- SLOT_ENABLE_WRITE (R575). -/
  | slotEnableWrite (o : Origin) (n : Fin 8) (v : W32)
  /-- SEAT_CHANGE (R575). -/
  | seatChange (n : Fin 8) (seated : Bool)
  /-- SEAT_DEBOUNCE_EXPIRY (R575). -/
  | seatDebounceExpiry (n : Fin 8)
  /-- SLOT_RAMP_START (R577). -/
  | slotRampStart (n : Fin 8) (busMv : W16)
  /-- SLOT_POWER_GOOD (R578). -/
  | slotPowerGood (n : Fin 8)
  /-- SLOT_RAMP_TIMEOUT (R575). -/
  | slotRampTimeout (n : Fin 8)
  /-- SLOT_FAST_TRIP (R579). -/
  | slotFastTrip (n : Fin 8) (ma : W32) (busMv voutMv : W16)
  /-- SLOT_BREAKER_TRIP (R580). -/
  | slotBreakerTrip (n : Fin 8) (ma us : W32)
  /-- SLOT_BUS_OVERVOLTAGE (R575). -/
  | slotBusOvervoltage (n : Fin 8) (mv : W32)
  /-- SLOT_BUS_UNDERVOLTAGE (R575). -/
  | slotBusUndervoltage (n : Fin 8) (mv : W32)
  /-- SLOT_RETRY_EXPIRY (R581). -/
  | slotRetryExpiry (n : Fin 8)
  /-- SLOT_GOOD_TIME_EXPIRY (R583). -/
  | slotGoodTimeExpiry (n : Fin 8)
  /-- SLOT_CLEAR (R583). -/
  | slotClear (o : Origin) (n : Fin 8) (v : W32)
  /-- FEED_INVALID (R586). -/
  | feedInvalid (f : Fin 2) (mv : W16) (confirmed : Bool)
  /-- FEED_VALID_HOLD_EXPIRY (R586). -/
  | feedValidHoldExpiry (f : Fin 2) (mv : W16) (elapsed confirmed : Bool)
  /-- FEED_RETURN_HOLD_EXPIRY (R587). -/
  | feedReturnHoldExpiry (confirmed : Bool)
  /-- FEED_BBM_FAILED (R589). -/
  | feedBbmFailed
  /-- FEED_LOSS (R590). -/
  | feedLoss (voutMv : W16) (sinks : BitVec 2)
  /-- FEED_MODE_WRITE (R587). -/
  | feedModeWrite (o : Origin) (v : W32)
  /-- FEED_CLEAR (R589). -/
  | feedClear (o : Origin) (v : W32)
  /-- KEY_STAGE_PLAINTEXT (R606). -/
  | keyStagePlaintext (o : Origin) (k : KeySlot) (material : List Byte)
  /-- KEY_STAGE_UNWRAP (R606). -/
  | keyStageUnwrap (o : Origin) (k : KeySlot) (material : List Byte)
  /-- KEY_STAGE_DERIVE (R606). -/
  | keyStageDerive (o : Origin) (k : KeySlot) (labelContext : List Byte)
  /-- KEY_GENERATE (R606). -/
  | keyGenerate (o : Origin) (k : KeySlot)
  /-- KEY_ABORT (R618). -/
  | keyAbort (o : Origin) (k : KeySlot)
  /-- KEY_INVALIDATE (R610). -/
  | keyInvalidate (o : Origin) (k : KeySlot)
  /-- KEY_COMMIT (R608). -/
  | keyCommit (o : Origin) (k : KeySlot) (expected : W64)
  /-- KEY_STAGE_EXPIRED (R607). -/
  | keyStageExpired (k : KeySlot)
  /-- KEY_RECORD_WRITTEN (R611). -/
  | keyRecordWritten (k : KeySlot)
  /-- KEY_INTEGRITY_CHECK (R601). -/
  | keyIntegrityCheck (bad ecc : W64)
  /-- CADDY_REMASK (R600). -/
  | caddyRemask (k : KeySlot)
  /-- DRBG_RESEED (R602). -/
  | drbgReseed (healthy : Bool)
  /-- STALL_DETECTED (R626). -/
  | stallDetected (d : Domain)
  /-- RAIL_OUT_OF_WINDOW (R627). -/
  | railOutOfWindow (r : Fin 12) (uv : W32)
  /-- LOCKSTEP_MISMATCH (R625). -/
  | lockstepMismatch
  /-- SM_WATCHDOG_EXPIRY (R630). -/
  | smWatchdogExpiry
  /-- SAFE_IN_ASSERT (R629). -/
  | safeInAssert
  /-- SAFE_IN_DEASSERT (R629). -/
  | safeInDeassert
  /-- SAFE_OUT_READBACK (R629). -/
  | safeOutReadback (ball : Bool)
  /-- SM_CAUSE_TAKEN (R632). -/
  | smCauseTaken
  /-- HARDWARE_PATH_TRIP (R633). -/
  | hardwarePathTrip (code : Fin 17) (detail : Byte)
  /-- SELFTEST_SLICE (R640). -/
  | selftestSlice (last : Bool) (fail : Option Byte)
  /-- SAFE_RESET (R638). -/
  | safeReset (o : Origin) (v : W32)
  /-- SS_OPEN (R642). -/
  | ssOpen (o : Origin) (v : W32)
  /-- SS_CLOSE (R643). -/
  | ssClose (o : Origin) (v : W32)
  /-- SS_TIMEOUT (R643). -/
  | ssTimeout
  /-- FREEZE_RELEASE (R647). -/
  | freezeRelease (o : Origin) (v : W32)
  /-- BLOCK_RESET (R667). -/
  | blockReset (o : Origin) (v : W32)
  /-- TJ_SAMPLE (R688). -/
  | tjSample (sensors : Vector W32 8)
  /-- PORN_ASSERT (R656). -/
  | pornAssert
  /-- VDD_AON_RESTORED (R671). -/
  | vddAonRestored
  /-- RAIL_BACK_IN_WINDOW (R627). -/
  | railBackInWindow (r : Fin 12) (uv : W32)
  /-- REFCLK_HOLDOVER_STEER (R511). -/
  | refclkHoldoverSteer
  /-- DOMAIN_REST_ENTERED (R521). -/
  | domainRestEntered (d : Domain)
  /-- ETH_PHY_LINK_CHANGE (R384). -/
  | ethPhyLinkChange (e : Fin 2) (speed : Fin 7)
  /-- MDIO_COMPLETE (R384). -/
  | mdioComplete (e : Fin 2) (data : Option W16)
  /-- UART_CHARACTER_SENT (R455). -/
  | uartCharacterSent (n : Fin 4) (cts : Bool)
  /-- USB_UPSTREAM_ATTACH (R459). -/
  | usbUpstreamAttach (tunnel present : Bool)
  /-- USB_PORT_CONNECT_CHANGE (R456). -/
  | usbPortConnectChange (port : Fin 3) (connected : Bool) (speed : Fin 3)
  /-- USB_TUNNEL_MESSAGE_RX (R457). -/
  | usbTunnelMessageRx (m : UsbMsg)
  /-- USB_DEVICE_TRANSFER (R460). -/
  | usbDeviceTransfer (x : UsbXfer)
  /-- SINK_TX_OK (R564). -/
  | sinkTxOk (p : Fin 2)
  /-- GOODCRC_TIMEOUT (R564). -/
  | goodcrcTimeout (p : Fin 2)
  /-- FRS_VBUS_FALL (R563). -/
  | frsVbusFall (p : Fin 2)
  /-- HARD_RESET_VBUS_RETURN (R567). -/
  | hardResetVbusReturn (p : Fin 2)
  /-- CONTRACT_STABLE_TIMER (R556). -/
  | contractStableTimer (p : Fin 2)
  /-- SM_RESTART (R633). -/
  | smRestart
  /-- DISP_LINK_TRAINED (R359). -/
  | dispLinkTrained (p : Fin 2) (rates : W16) (works : Option W16) (lanes : Fin 5) (srBest : Fin 4) (yGran : Byte) (edid : List Byte)
  /-- CSI_STOP_STATE (R341). -/
  | csiStopState (c : Fin 4) (stop fault : Bool) (rate : W16)
  /-- KEY_RECORD_VOIDED (R610). -/
  | keyRecordVoided (k : KeySlot)
  deriving DecidableEq, Repr

end Sys2Proof
end

