-- ==== Sys2Proof/Machine/Bits.lean ====
section
/-! DEFINITION. Bit fields, sign extension, byte order and the checksums of the spec's frames and cells. Bit 0 is the least
significant bit (R8); multi-byte fields on the trunk and in HOP frames are sent most significant byte first (R9). -/

namespace Sys2Proof.Machine

/-- Bits [hi:lo] of a value. -/
def field (v hi lo : Nat) : Nat := (v / 2 ^ lo) % 2 ^ (hi + 1 - lo)

/-- Bit `n` of a value. -/
def bitOf (v n : Nat) : Bool := (v / 2 ^ n) % 2 == 1

/-- `v` with bit `n` set. -/
def setBit (v n : Nat) : Nat := v ||| 2 ^ n

/-- `v` with bit `n` clear. -/
def clrBit (v n : Nat) : Nat := if bitOf v n then v - 2 ^ n else v

/-- `v` with bit `n` equal to `b`. -/
def putBit (v n : Nat) (b : Bool) : Nat := if b then setBit v n else clrBit v n

/-- `v` with bits [hi:lo] replaced. -/
def putField (v hi lo x : Nat) : Nat :=
  v - field v hi lo * 2 ^ lo + (x % 2 ^ (hi + 1 - lo)) * 2 ^ lo

/-- The integer a `w`-bit two's complement value stands for. -/
def signed (w v : Nat) : Int := if bitOf v (w - 1) then (v % 2 ^ w : Int) - 2 ^ w else (v % 2 ^ w : Nat)

/-- The `w`-bit two's complement of an integer. -/
def unsigned (w : Nat) (i : Int) : Nat := (i % (2 ^ w : Int)).toNat

/-- 1 for true, 0 for false, as BOOL objects hold it. -/
def b2n (b : Bool) : Nat := if b then 1 else 0

/-- The value of bytes sent most significant first. -/
def ofBE (bs : List Byte) : Nat := bs.foldl (fun a b => a * 256 + b.toNat) 0

/-- `n` bytes of a value, most significant first. -/
def toBE : Nat → Nat → List Byte
  | 0, _ => []
  | n + 1, v => BitVec.ofNat 8 (v / 256 ^ n) :: toBE n v

/-- The value of bytes stored least significant first. -/
def ofLE : List Byte → Nat
  | [] => 0
  | b :: bs => b.toNat + 256 * ofLE bs

/-- `n` bytes of a value, least significant first. -/
def toLE : Nat → Nat → List Byte
  | 0, _ => []
  | n + 1, v => BitVec.ofNat 8 v :: toLE n (v / 256)

/-- Byte `i` of a list, 0 beyond its end. -/
def byteAt (bs : List Byte) (i : Nat) : Nat := (bs.getD i 0).toNat

/-- The bytes from `i`, `n` of them. -/
def slice (bs : List Byte) (i n : Nat) : List Byte := (bs.drop i).take n

/-- `bs` with byte `i` replaced (unchanged beyond the end). -/
def setByte (bs : List Byte) (i v : Nat) : List Byte := bs.set i (BitVec.ofNat 8 v)

/-- `n` bytes of `bs` from `i` replaced by `xs`, zeros filling up to `i`. -/
def overlay (bs : List Byte) (i : Nat) (xs : List Byte) : List Byte :=
  let pre := bs.take i
  pre ++ List.replicate (i - pre.length) 0 ++ xs ++ bs.drop (i + xs.length)

/-- Bytes up to length `n`, zeros appended or the end cut off. -/
def padTo (n : Nat) (bs : List Byte) : List Byte := bs.take n ++ List.replicate (n - bs.length) 0

/-- One step of an MSB-first CRC of width `w` with generator `poly` (its top bit left out). -/
def crcBit (w poly : Nat) (crc : Nat) (b : Bool) : Nat :=
  let top := Bool.xor (bitOf crc (w - 1)) b
  let sh := (crc * 2) % 2 ^ w
  if top then sh ^^^ poly else sh

/-- The bits of a byte, most significant first. -/
def byteBits (b : Byte) : List Bool :=
  [b.getLsbD 7, b.getLsbD 6, b.getLsbD 5, b.getLsbD 4, b.getLsbD 3, b.getLsbD 2, b.getLsbD 1, b.getLsbD 0]

/-- An MSB-first CRC over bytes from a seed. -/
def crcMsb (w poly seed : Nat) (bs : List Byte) : Nat :=
  bs.foldl (fun c b => (byteBits b).foldl (crcBit w poly) c) seed

/-- One step of an LSB-first CRC of width `w` with reflected generator `poly`. -/
def crcBitR (poly : Nat) (crc : Nat) (b : Bool) : Nat :=
  if Bool.xor (bitOf crc 0) b then (crc / 2) ^^^ poly else crc / 2

/-- An LSB-first CRC over bytes from a seed, before the final inversion. -/
def crcLsb (poly seed : Nat) (bs : List Byte) : Nat :=
  bs.foldl (fun c b => (byteBits b).reverse.foldl (crcBitR poly) c) seed

/-- CRC-32 of IEEE 802.3 (R63, R644). -/
def crc32 (bs : List Byte) : Nat := crcLsb 0xEDB88320 0xFFFFFFFF bs ^^^ 0xFFFFFFFF

/-- Signed comparison of wrapping 32-bit instants: `a` is not before `b` when (a − b) modulo 2^32 is below 2^31. -/
def time32Reached (a b : Nat) : Bool := (a % 2 ^ 32 + 2 ^ 32 - b % 2 ^ 32) % 2 ^ 32 < 2 ^ 31

/-- Quotient rounded up. -/
def ceilDiv (a b : Nat) : Nat := (a + b - 1) / b

/-- The smallest number below `n` that satisfies `p`. -/
def firstBelow (p : Nat → Bool) (n : Nat) : Option Nat := (List.range n).find? p

/-- How many bits of a value below `n` are set. -/
def popCount (n v : Nat) : Nat := ((List.range n).filter (bitOf v)).length

end Sys2Proof.Machine
end

