-- ==== Sys2Proof/Machine/Ecdsa.lean ====
section
/-! DEFINITION. ECDSA over the curve P-256, which the spec names (R476, R477) and does not define: FIPS 186-4 (PRESUMED, log entry
13). -/

namespace Sys2Proof.Machine

/-- The field of P-256. -/
def p256 : Nat := 0xffffffff00000001000000000000000000000000ffffffffffffffffffffffff
/-- The order of the group. -/
def n256 : Nat := 0xffffffff00000000ffffffffffffffffbce6faada7179e84f3b9cac2fc632551
/-- The coefficient b of the curve. -/
def b256 : Nat := 0x5ac635d8aa3a93e7b3ebbd55769886bc651d06b0cc53b0f63bce3c3e27d2604b
/-- The base point. -/
def g256 : Nat × Nat :=
  (0x6b17d1f2e12c4247f8bce6e563a440f277037d812deb33a0f4a13945d898c296,
   0x4fe342e2fe1a7f9b8ee7eb4a7c0f9e162bce33576b315ececbb6406837bf51f5)

/-- A power modulo `m`, over the `n` low bits of the exponent, highest first. -/
def powMod (a e m : Nat) : Nat → Nat
  | 0 => 1
  | n + 1 =>
    let r := powMod a (e / 2) m n
    let r := r * r % m
    if e % 2 = 1 then r * a % m else r

/-- The inverse modulo a prime of 256 bits. -/
def invMod (a m : Nat) : Nat := powMod (a % m) (m - 2) m 256

/-- A point of the curve; none is the point at infinity. -/
abbrev EcPoint := Option (Nat × Nat)

/-- The point of a slope through a point. -/
def ecThird (s x1 y1 x2 : Nat) : EcPoint :=
  let x := (s * s + 2 * p256 - x1 - x2) % p256
  some (x, (s * (x1 + p256 - x) + p256 - y1) % p256)

/-- The sum of two points. -/
def ecAdd : EcPoint → EcPoint → EcPoint
  | none, q => q
  | p, none => p
  | some (x1, y1), some (x2, y2) =>
    if x1 = x2 then
      if (y1 + y2) % p256 = 0 then none
      else ecThird ((3 * x1 * x1 + p256 - 3) * invMod (2 * y1) p256 % p256) x1 y1 x1
    else ecThird ((y2 + p256 - y1) * invMod (x2 + p256 - x1) p256 % p256) x1 y1 x2

/-- A multiple of a point, over the `n` low bits of the factor. -/
def ecMul (k : Nat) (q : EcPoint) : Nat → EcPoint
  | 0 => none
  | n + 1 =>
    let r := ecMul (k / 2) q n
    let r := ecAdd r r
    if k % 2 = 1 then ecAdd r q else r

/-- The point lies on the curve. -/
def onCurve (q : Nat × Nat) : Bool :=
  Nat.ble (q.1 + 1) p256 && Nat.ble (q.2 + 1) p256 && q.2 * q.2 % p256 == (q.1 * q.1 * q.1 + (p256 - 3) * q.1 + b256) % p256

/-- Verification of a signature, r then s, over a digest under a public key, x then y. -/
@[irreducible] def ecdsaVerify (key sig digest : List Byte) : Bool :=
  let q := (ofBE (key.take 32), ofBE (slice key 32 32))
  let r := ofBE (sig.take 32)
  let s := ofBE (slice sig 32 32)
  let inRange := fun x => Nat.ble 1 x && Nat.ble (x + 1) n256
  onCurve q && inRange r && inRange s &&
    (let w := invMod s n256
     match ecAdd (ecMul (ofBE digest * w % n256) (some g256) 256) (ecMul (r * w % n256) (some q) 256) with
     | some (x, _) => x % n256 == r
     | none => false)

end Sys2Proof.Machine
end

