-- ==== Sys2Proof/Machine/Aes.lean ====
section
/-! DEFINITION. AES-256, its Galois/Counter mode and the AES key wrap, which the spec names (R206, R606) and does not define: FIPS 197,
SP 800-38D and RFC 3394 (PRESUMED, log entry 13). -/

namespace Sys2Proof.Machine

/-! ### The block cipher -/

/-- A byte times x modulo x^8 + x^4 + x^3 + x + 1. -/
def aesDouble (a : Byte) : Byte := (a <<< 1) ^^^ (if a.getLsbD 7 then 0x1b else 0)

/-- Product in GF(2^8), over `n` bits of the second factor. -/
def aesMul (a b : Byte) : Nat → Byte
  | 0 => 0
  | n + 1 => (if b.getLsbD 0 then a else 0) ^^^ aesMul (aesDouble a) (b >>> 1) n

/-- The inverse in GF(2^8), 0 for 0: the 254th power. -/
def aesInv (a : Byte) : Byte :=
  let sq := fun x => aesMul x x 8
  let a2 := sq a
  let a4 := sq a2
  let a8 := sq a4
  let a16 := sq a8
  let a32 := sq a16
  let a64 := sq a32
  [a4, a8, a16, a32, a64, sq a64].foldl (fun x y => aesMul x y 8) a2

/-- The S-box. -/
def aesSub (a : Byte) : Byte :=
  let b := aesInv a
  b ^^^ b.rotateLeft 1 ^^^ b.rotateLeft 2 ^^^ b.rotateLeft 3 ^^^ b.rotateLeft 4 ^^^ 0x63

/-- The inverse S-box. -/
def aesUnsub (a : Byte) : Byte := aesInv (a.rotateLeft 1 ^^^ a.rotateLeft 3 ^^^ a.rotateLeft 6 ^^^ 0x05)

/-- The key schedule of a 256-bit key, newest word first: words `i` onward, `n` of them. -/
def aesExpand : Nat → Nat → Byte → List (List Byte) → List (List Byte)
  | 0, _, _, w => w
  | n + 1, i, rcon, w =>
    let t := w.getD 0 []
    let (t, rcon') :=
      if i % 8 = 0 then
        let r := (t.drop 1 ++ t.take 1).map aesSub
        (r.modify 0 (· ^^^ rcon), aesDouble rcon)
      else if i % 8 = 4 then (t.map aesSub, rcon)
      else (t, rcon)
    aesExpand n (i + 1) rcon' ((w.getD 7 []).zipWith (· ^^^ ·) t :: w)

/-- The fifteen round keys of a 32-byte key. -/
def aesKeys (key : List Byte) : List (List Byte) :=
  let w := (aesExpand 52 8 1 ((List.range 8).map fun i => slice (padTo 32 key) (4 * i) 4).reverse).reverse
  (List.range 15).map fun i => (slice16 w i).flatten
where
  slice16 (w : List (List Byte)) (i : Nat) : List (List Byte) := (w.drop (4 * i)).take 4

/-- A column mixed by a row of four factors, rotated for each byte. -/
def aesMix (f : List Byte) (col : List Byte) : List Byte :=
  (List.range 4).map fun r => (List.range 4).foldl (fun a c => a ^^^ aesMul (f.getD ((c + 4 - r) % 4) 0) (col.getD c 0) 8) 0

/-- The four columns mixed. -/
def aesMixAll (f s : List Byte) : List Byte := (List.range 4).flatMap fun c => aesMix f (slice s (4 * c) 4)

/-- Row r of the state moved by r places, left for 1 and right for 3. -/
def aesShift (d : Nat) (s : List Byte) : List Byte :=
  (List.range 16).map fun i => s.getD ((i % 4) + 4 * ((i / 4 + d * (i % 4)) % 4)) 0

/-- Two blocks XORed. -/
def xorBytes (a b : List Byte) : List Byte := a.zipWith (· ^^^ ·) b

/-- One 16-byte block encrypted under round keys. -/
def aesRounds (ks : List (List Byte)) (block : List Byte) : List Byte :=
  let s := xorBytes (padTo 16 block) (ks.getD 0 [])
  let s := (List.range 13).foldl (fun s i => xorBytes (aesMixAll [2, 3, 1, 1] (aesShift 1 (s.map aesSub))) (ks.getD (i + 1) [])) s
  xorBytes (aesShift 1 (s.map aesSub)) (ks.getD 14 [])

/-- One 16-byte block decrypted under round keys. -/
def aesUnrounds (ks : List (List Byte)) (block : List Byte) : List Byte :=
  let s := (aesShift 3 (xorBytes (padTo 16 block) (ks.getD 14 []))).map aesUnsub
  let s := (List.range 13).foldl (fun s i =>
    (aesShift 3 (aesMixAll [14, 11, 13, 9] (xorBytes s (ks.getD (13 - i) [])))).map aesUnsub) s
  xorBytes s (ks.getD 0 [])

/-- AES-256 of a block under a key. -/
@[irreducible] def aes256 (key block : List Byte) : List Byte := aesRounds (aesKeys key) block

/-! ### Galois/Counter mode with a 96-bit IV -/

/-- Product in GF(2^128) in the order of GCM: bit 127 is the coefficient of x^0; `n` bits of the first factor are left. -/
def ghashMul (x v z : BitVec 128) : Nat → BitVec 128
  | 0 => z
  | n + 1 =>
    let z := if x.getLsbD n then z ^^^ v else z
    ghashMul x ((v >>> 1) ^^^ (if v.getLsbD 0 then (0xE1 : BitVec 128) <<< 120 else 0)) z n

/-- Bytes filled up with zeros to whole blocks. -/
def padBlocks (bs : List Byte) : List Byte := bs ++ List.replicate ((16 - bs.length % 16) % 16) 0

/-- GHASH of whole blocks under a hash key. -/
def ghash (h : BitVec 128) (bs : List Byte) : BitVec 128 :=
  (List.range (bs.length / 16)).foldl (fun y i => ghashMul (y ^^^ BitVec.ofNat 128 (ofBE (slice bs (16 * i) 16))) h 0 128) 0

/-- The key stream that protects `n` bytes: the counter runs from 2. -/
@[irreducible] def gcmStream (key iv : List Byte) (n : Nat) : List Byte :=
  let ks := aesKeys key
  (((List.range (ceilDiv n 16)).flatMap fun i => aesRounds ks (iv ++ toBE 4 (i + 2))).take n)

/-- The tag, 16 bytes. -/
@[irreducible] def gcmTag (key iv aad ct : List Byte) : List Byte :=
  let h := BitVec.ofNat 128 (ofBE (aes256 key []))
  let s := ghash h (padBlocks aad ++ padBlocks ct ++ toBE 8 (8 * aad.length) ++ toBE 8 (8 * ct.length))
  xorBytes (toBE 16 s.toNat) (aes256 key (iv ++ toBE 4 1))

/-! ### Key unwrap -/

/-- One step of the unwrap: the check value, the registers, and the number of the step. -/
def unwrapStep (ks : List (List Byte)) (n : Nat) (st : List Byte × List (List Byte)) (t : Nat) : List Byte × List (List Byte) :=
  let i := (t - 1) % n
  let b := aesUnrounds ks (xorBytes st.1 (toBE 8 t) ++ st.2.getD i [])
  (b.take 8, st.2.set i (b.drop 8))

/-- AES key unwrap with the default initial value; none where the integrity check fails. -/
@[irreducible] def aesUnwrap (key wrapped : List Byte) : Option (List Byte) :=
  let n := wrapped.length / 8 - 1
  let r := (List.range n).map fun i => slice wrapped (8 * (i + 1)) 8
  let (a, r) := (List.range (6 * n)).reverse.foldl (fun st t => unwrapStep (aesKeys key) n st (t + 1)) (wrapped.take 8, r)
  if a = List.replicate 8 0xA6 then some r.flatten else none

end Sys2Proof.Machine
end

