-- ==== Sys2Proof/Machine/Sha.lean ====
section
/-! DEFINITION. SHA-256 and HMAC-SHA-256, which the spec names (R95, R207, R477, R604, R605) and does not define: FIPS 180-4 and
FIPS 198-1 (PRESUMED, log entry 13). -/

namespace Sys2Proof.Machine

/-- The first 64 primes: what no prime below 18 divides, below 312. -/
def shaPrimes : List Nat :=
  (List.range 312).filter fun n => Nat.ble 2 n && [2, 3, 5, 7, 11, 13, 17].all fun d => n == d || n % d != 0

/-- The first 32 bits of the fractional part of a prime's root of degree `d`: the root of p × 2^(32 d) is built bit by bit, from bit 36 down. -/
def shaRoot (d p : Nat) : W32 :=
  BitVec.ofNat 32 ((List.range 37).foldl (fun r i => let t := r + 2 ^ (36 - i); if Nat.ble (t ^ d) (p * 2 ^ (32 * d)) then t else r) 0)

/-- The round constants: of the cube roots. -/
def shaK : List W32 := shaPrimes.map (shaRoot 3)

/-- The initial hash value: of the square roots of the first eight. -/
def shaInit : List W32 := (shaPrimes.take 8).map (shaRoot 2)

/-- The message schedule, newest word first: `n` more words. -/
def shaSchedule : Nat → List W32 → List W32
  | 0, w => w
  | n + 1, w =>
    let a := w.getD 14 0
    let b := w.getD 1 0
    let s0 := a.rotateRight 7 ^^^ a.rotateRight 18 ^^^ (a >>> 3)
    let s1 := b.rotateRight 17 ^^^ b.rotateRight 19 ^^^ (b >>> 10)
    shaSchedule n ((w.getD 15 0 + s0 + w.getD 6 0 + s1) :: w)

/-- One round on the working variables a to h. -/
def shaRound (v : List W32) (k w : W32) : List W32 :=
  match v with
  | [a, b, c, d, e, f, g, h] =>
    let s1 := e.rotateRight 6 ^^^ e.rotateRight 11 ^^^ e.rotateRight 25
    let t1 := h + s1 + ((e &&& f) ^^^ (~~~e &&& g)) + k + w
    let s0 := a.rotateRight 2 ^^^ a.rotateRight 13 ^^^ a.rotateRight 22
    let t2 := s0 + ((a &&& b) ^^^ (a &&& c) ^^^ (b &&& c))
    [t1 + t2, a, b, c, d + t1, e, f, g]
  | v => v

/-- The words of a block, most significant byte first. -/
def shaWords (n : Nat) (bs : List Byte) : List W32 := (List.range n).map fun i => BitVec.ofNat 32 (ofBE (slice bs (4 * i) 4))

/-- One block. -/
def shaBlock (h : List W32) (block : List Byte) : List W32 :=
  let w := (shaSchedule 48 (shaWords 16 block).reverse).reverse
  h.zipWith (· + ·) ((shaK.zip w).foldl (fun v x => shaRound v x.1 x.2) h)

/-- The message with its padding. -/
def shaPad (m : List Byte) : List Byte :=
  m ++ [0x80] ++ List.replicate ((119 - m.length % 64) % 64) 0 ++ toBE 8 (8 * m.length)

/-- SHA-256 of a message, 32 bytes. -/
@[irreducible] def sha256 (m : List Byte) : List Byte :=
  let p := shaPad m
  ((List.range (p.length / 64)).foldl (fun h i => shaBlock h (slice p (64 * i) 64)) shaInit).flatMap fun w => toBE 4 w.toNat

/-- HMAC-SHA-256 of a message under a key, 32 bytes. -/
@[irreducible] def hmacSha256 (key m : List Byte) : List Byte :=
  let k := padTo 64 (if 64 < key.length then sha256 key else key)
  sha256 (k.map (· ^^^ 0x5c) ++ sha256 (k.map (· ^^^ 0x36) ++ m))

end Sys2Proof.Machine
end

