-- ==== Sys2Proof/Machine/Crypto.lean ====
section
/-! DEFINITION. Key derivation, key check values and the protection of cells (R204 to R209, R604, R605, R613, R614), over the
primitives of Sha and Aes. -/

namespace Sys2Proof.Machine

/-- ASCII text as bytes. -/
def ascii (s : String) : List Byte := s.toList.map fun c => BitVec.ofNat 8 c.toNat

/-- SP 800-108 in counter mode (R604): `l` bits, a multiple of 8. -/
def kdf (key label context : List Byte) (l : Nat) : List Byte :=
  (((List.range (ceilDiv l 256)).flatMap fun i =>
    hmacSha256 key (toBE 4 (i + 1) ++ label ++ [0] ++ context ++ toBE 4 l)).take (l / 8))

/-- The key check value of a 256-bit value, bytes most significant first (R605). -/
def kcvOf (v : List Byte) : Nat := ofBE ((hmacSha256 v (ascii "HX4816 KCV")).take 8)

/-- The traffic secret and salt of a direction of a link (R613). -/
def linkSecret (key ctx : List Byte) : List Byte × List Byte :=
  let o := kdf key (ascii "JSLK") ctx 288
  (o.take 32, o.drop 32)

/-- The AES key of phase change `j` (R614). -/
def phaseKey (s : List Byte) (j : Nat) : List Byte := kdf s (ascii "JPHS") (toBE 4 j) 256

/-- The 96-bit IV of R206. -/
def cellIv (salt : List Byte) (epoch dir num seq : Nat) : List Byte :=
  salt ++ toBE 4 epoch ++ [BitVec.ofNat 8 dir, BitVec.ofNat 8 num] ++ toBE 2 seq

/-- A payload of `n` bytes protected: the cipher text, zeros up to byte 111, the tag in bytes 112 to 127 (R206). -/
def sealCell (key iv aad body : List Byte) (n : Nat) : List Byte :=
  let ct := xorBytes (body.take n) (gcmStream key iv n)
  padTo 112 ct ++ gcmTag key iv aad ct

/-- A protected payload of `n` bytes opened; none where the tag fails (R209). -/
def openCell (key iv aad body : List Byte) (n : Nat) : Option (List Byte) :=
  let ct := body.take n
  if gcmTag key iv aad ct = slice body 112 16 then some (xorBytes ct (gcmStream key iv n)) else none

end Sys2Proof.Machine
end

