-- ==== Sys2Proof/Config.lean ====
section
/-! DEFINITION. What an implementation fixes, what the factory writes, and the values the spec leaves open. Each is a constant without a body: nothing can be proved about its value. -/

namespace Sys2Proof

/-- The free values, in the order the machine uses them: a value the spec does not state (log entry 2). -/
opaque Config.freeValue (w : Nat) : Nat → BitVec w

/-- The factory's number of the part among the unit IDs that R3 allows, less 1. -/
opaque Config.unitNumber : Fin 0xFFFFFFFFFFFFFFFE
/-- `0x1000.04 UNIT_ID`, written at the factory, never all zeros and never all ones (R2, R3). -/
def Config.unitId : W64 := BitVec.ofNat 64 (Config.unitNumber.val + 1)
/-- The station address the hub derives from its unit ID (R383). -/
opaque Config.macFromUnitId : Nat
/-- `0x2000.04 RC_TRIM` from the factory, a trim code (R516). -/
opaque Config.rcTrimFactory : Nat
/-- The safety signature of the default values, written at the factory (R644): their CRC-32, which `test_factory_signature` works out. -/
def Config.factorySignature : W32 := 0xC330FB6B#32

/-- The LPDDR5X fitted on the board, in MiB; 0 = none (R279, R361). -/
opaque Config.dramMiB : Nat
/-- The rate of the display frame-store writer, Mbit/s: that of its port (R263), whose figure the spec does not give (log entry 9). -/
opaque Config.displayWriterRate : Nat

/-- The bus number that host software has programmed as the secondary bus of the bridge above a root port (R318): the spec does not say how
the hub of the root port learns it (log entry 11). -/
opaque Config.secondaryBus : Nat → Nat
/-- Identities in the configuration registers of a function of the switch, by function and register: vendor, device and subsystem, revision
and class, and the place of the MSI-X table. The spec gives none of them (log entry 98). -/
opaque Config.pcieId : Nat → Nat → BitVec 32
/-- The cabinet root of a unit ID has composite mode on: no message of the spec tells a member so (log entry 38). -/
opaque Config.rootComposite : Nat → Bool

/-- An engine performs a load or store of its memories that is not aligned to its width, and does not trap (log entry 60). -/
opaque Config.engineMisaligned : Bool
/-- The identity registers of an engine: register number, engine (log entry 60). -/
opaque Config.engineId : Nat → Nat → W32

/-- SHA-256 of the maker's firmware signing key, the content of K0, 32 bytes (R598). -/
opaque Config.firmwareKeyHash : List Byte

/-- Where the PRBS13 fill of an alignment marker starts, less 1 (R183); the spec does not say (log entry 78). -/
opaque Config.prbs13Seed : Fin 8191
/-- Where a test pattern of a register of the given width starts (R164); the spec does not say (log entry 78). -/
opaque Config.patternSeed : Nat → Nat
/-- A symbol that the near-end serial loop brings back in error, by instant and place in the nanosecond: the path is analog (R168 mode 1; log
entry 78). -/
opaque Config.serialError : Nat → Nat → Bool
/-- The levels of SSPRQ (R164), a pattern the spec only names (log entry 78). -/
opaque Config.ssprq : Nat → Fin 4
/-- The FFE presets 0 to 7 by number: magnitudes of c(−2), c(−1), c(+1) and c(+2) before they are brought into the ranges of R150, and
the sign of c(+2); the spec does not state them (log entry 20). -/
opaque Config.ffePreset : Nat → Nat × Nat × Nat × Nat × Bool

end Sys2Proof
end

