-- ==== Sys2Proof/Machine/State.lean ====
section
/-! DEFINITION. The state of the hub: every register, object, queue, timer, pin and hidden value the spec gives it, as plain data, and
the queue of commands that wait. The objects of the dictionary are held by key (R53); what is not an object has a field. -/

namespace Sys2Proof.Machine

/-- The object types of R55. -/
inductive ObjType where
  | bool | u8 | u16 | u32 | u64 | i32 | time32 | enum | bits32 | octets | domain
  deriving DecidableEq, Repr

/-- The access codes of R57. -/
inductive Access where
  | ro | rw | wo | rc | rwe | rwf | rwp
  deriving DecidableEq, Repr

/-- What the range check of R59 allows an object to hold. -/
inductive Legal where
  /-- every value of the type -/
  | any
  | range (lo hi : Nat)
  /-- a range or one further value -/
  | rangeOr (lo hi other : Nat)
  | oneOf (vs : List Nat)
  /-- no bit outside the mask -/
  | subset (mask : Nat)
  /-- no bit outside the mask, and not zero -/
  | subsetNZ (mask : Nat)
  /-- a multiple -/
  | aligned (n : Nat)
  /-- two's complement from minus `lo` to `hi` -/
  | signed (lo hi : Nat)
  /-- ones, then zeros, from the most significant bit (R103) -/
  | contiguous
  /-- both 16-bit halves in a range -/
  | halves (lo hi : Nat)
  /-- both low bytes at most this value -/
  | bytes (hi : Nat)
  /-- bits [3:0] at most this value -/
  | lowNibble (hi : Nat)
  deriving DecidableEq, Repr

/-- The unit of work at whose start an accepted value takes effect, where that unit spans more than one command (R57). `now` stands for
every unit that is one command of this model: the next cell, slot, frame, access, evaluation. -/
inductive EffUnit where
  | now | epoch | frame | training | reset | linkUp | dispTrain | pcieTrain | phyUp | camEnable | fs | second
  | motCycle | attach | usbAttach | sample | gateCycle | etsChange | timing | trig | uart | dmaFetch | slotRamp
  | phase | tst | irq | sbPoll | xtal | discovery | caps | contract | pwm | announce | bmca
  deriving DecidableEq, Repr

/-- One row of an object table: index instances `base + 0x100·p + i`, subindices `sub + step·j`. -/
structure ObjRow where
  base    : Nat
  count   : Nat
  ports   : Nat
  sub     : Nat
  subs    : Nat
  step    : Nat
  ty      : ObjType
  /-- n of OCTETS(n) -/
  n       : Nat
  acc     : Access
  dflt    : Nat
  persist : Bool
  safety  : Bool
  /-- bits kept of a written value, 0 meaning all (R10) -/
  keep    : Nat
  legal   : Legal
  unit    : EffUnit
  deriving DecidableEq, Repr

/-- A sparse store: `base` is the canonical list at the end of a command, `dirty` the writes of the command running, newest first. -/
structure Overlay (α : Type) where
  base  : List (Nat × α)
  dirty : List (Nat × α)
  deriving DecidableEq, Repr

/-- What the object server keeps for one origin. -/
structure OriginSt where
  /-- 64-bit snapshot: key and the high word captured (R79) -/
  snapshot : Option (Nat × W32) := none
  /-- low word held for a 64-bit write (R80) -/
  held : Option (Nat × W32) := none
  /-- `0x1204.01 DESC_TARGET` of this origin (R75) -/
  descTarget : Nat := 0
  /-- the target in effect since the last read of `0x1204.02 DESC_INFO` -/
  descSeen : Nat := 0
  /-- latched nanoseconds of the last `TIME_SEC` read (R395) -/
  timeLatch : Nat := 0
  deriving DecidableEq, Repr

/-- A commit group with staged values (R69). -/
structure Staged where
  leader : Nat
  owner  : Origin
  /-- instant of the first staged write -/
  since  : Nat
  vals   : List (Nat × Nat)
  octs   : List (Nat × List Byte)
  deriving DecidableEq, Repr

/-- What the object server holds for a block whose domain is not on (R60): a write with the value that was in effect before it, where it
replaces one, or a committed group. -/
inductive Held where
  | write (o : Origin) (key val : Nat) (was : Option Nat)
  | group (g : Staged)
  deriving DecidableEq, Repr

/-- An accepted or committed value that has not yet taken effect. -/
structure Waiting where
  key  : Nat
  val  : Nat
  /-- instant of acceptance -/
  acc  : Nat
  /-- network time of acceptance in ns, while its counter runs -/
  net  : Option Nat
  unit : EffUnit
  deriving DecidableEq, Repr

/-- A store-image bank of the MRAM (R63). -/
structure Bank where
  valid : Bool := false
  seq   : Nat := 0
  vals  : List (Nat × Nat) := []
  octs  : List (Nat × List Byte) := []
  deriving DecidableEq, Repr

/-- A command on the object store that is running (R62, R65). -/
inductive StoreRun where
  | idle
  /-- a store with the values captured at acceptance; `hop` names the HOP operation that waits for it -/
  | store (image : Bank) (hop : Option KeySlot)
  | restore
  deriving DecidableEq, Repr

/-- The MRAM: store images and the counts kept over the life of the part (R63, R644, R670). -/
structure Mram where
  bank0 : Bank := {}
  bank1 : Bank := {}
  /-- the bank of the last load or store -/
  last  : Fin 2 := 1
  stores : Nat := 0
  resets : Nat := 0
  /-- safety signature stored (R644); none = the factory's -/
  signature : Option W32 := none
  deriving DecidableEq, Repr

/-- The state of a segmented-transfer channel (R81 to R84). -/
structure SegCh where
  owner  : Option Origin := none
  /-- target key captured at open -/
  target : Nat := 0
  writing : Bool := false
  /-- bytes captured at open for read, or staged for write -/
  bytes  : List Byte := []
  deriving DecidableEq, Repr

/-- What holds the hub in reset. -/
inductive Hold where
  | run
  /-- RSTn low: Kettle, slots, feeds and JTAG act (R33, R659) -/
  | rstn
  /-- PORn released, straps not latched yet (R42, R43) -/
  | strap
  /-- PORn low -/
  | porn
  /-- VDD_AON below 0.68 V (R627) -/
  | vddAon
  /-- factory test (R47) -/
  | factory
  deriving DecidableEq, Repr

/-- The signal balls of the package, group by group in the order of the table of R32. `n` of a pair is its negative conductor. -/
inductive Ball where
  | tkLane (p : Fin 2) (l : Fin 4) (n : Bool)
  | tkCc (p : Fin 2)
  | tkVbs (p : Fin 2)
  | tkVdis (p : Fin 2)
  | tkVen (p : Fin 2)
  | pcieTx (p : Fin 2) (l : Fin 4) (n : Bool)
  | pcieRx (p : Fin 2) (l : Fin 4) (n : Bool)
  | pcieCko (p : Fin 2) (n : Bool)
  | perstn (p : Fin 2)
  | clkreqn (p : Fin 2)
  | waken (p : Fin 2)
  | dpMl (d : Fin 2) (l : Fin 4) (n : Bool)
  | dpAux (d : Fin 2) (n : Bool)
  | hpd (d : Fin 2)
  | vdden | blen | pwm
  | csiCk (c : Fin 4) (n : Bool)
  | csiD (c : Fin 4) (l : Fin 4) (n : Bool)
  | camtrig (t : Fin 8)
  | ethTx (e : Fin 2) (n : Bool)
  | ethRx (e : Fin 2) (n : Bool)
  | mdc (e : Fin 2)
  | mdio (e : Fin 2)
  | phyintn (e : Fin 2)
  | phyrstn (e : Fin 2)
  | ppsOut | ppsIn
  | ax (a : Fin 8) (n : Bool)
  /-- U1 to U3, then the upstream port -/
  | usbD (u : Fin 4) (n : Bool)
  | usbVbs
  | pwren (u : Fin 3)
  | ocn (u : Fin 3)
  | usbBias
  | gpio (k : Fin 32)
  | scl (i : Fin 4)
  | sda (i : Fin 4)
  | sclk (i : Fin 2)
  | mosi (i : Fin 2)
  | miso (i : Fin 2)
  | csn (i : Fin 2) (c : Fin 2)
  | txd (u : Fin 4)
  | rxd (u : Fin 4)
  | rtsn (u : Fin 4)
  | ctsn (u : Fin 4)
  | dq (i : Fin 32)
  | dmi (i : Fin 4)
  | rdqs (i : Fin 4) (n : Bool)
  | wck (i : Fin 4) (n : Bool)
  | ca (ch : Fin 2) (i : Fin 7)
  | dramCs (ch : Fin 2)
  | dramCk (ch : Fin 2) (n : Bool)
  | dramResetn | dramZq
  | qspiSclk
  | qspiCsn (c : Fin 2)
  | qspiIo (i : Fin 4)
  | mpSck | mpMosi | mpMiso | mpCsn | intn
  | avsClk | avsMdata | avsSdata
  | vsel (i : Fin 2)
  | hsGate (n : Fin 8)
  | hsSnsp (n : Fin 8)
  | hsSnsn (n : Fin 8)
  | hsVout (n : Fin 8)
  | hsSeatn (n : Fin 8)
  | feedGate (f : Fin 2)
  | feedSns (f : Fin 2)
  | feedVout
  | refclk (n : Bool)
  | xtalIn | xtalOut
  | porn | rstn | safeOut | safeIn
  /-- STRAP_ROLE0, ROLE1, MPSEL, MPADDR0, MPADDR1, BOOT, AVS -/
  | strap (i : Fin 7)
  | testen | tck | tms | tdi | tdo | trstn
  deriving DecidableEq, Repr

/-- What a ball shows at the hub's side of it (R32). -/
inductive BallLevel where
  /-- high impedance, and the same with the input disabled -/
  | z | zOff
  /-- high impedance with the internal pull-up or pull-down -/
  | zPu | zPd
  /-- driven -/
  | low | high
  /-- the CC terminations: Rd, and Rp as SinkTxOK and as SinkTxNG -/
  | rd | rp | rpNg
  /-- a gate held off (R36, R575), one driven on, and one that the ramp regulates (R577) -/
  | gateOff | gateOn | gateRamp
  /-- the running crystal oscillator -/
  | oscillator
  /-- pulse-width modulation: Hz and duty -/
  | pwm (freq duty : Nat)
  /-- signals of the block that owns the ball -/
  | active
  deriving DecidableEq, Repr

/-- The HOP session of a Caddy slot (R96, R97, R99): last accepted sequence, the cached response with the tag of its request, and the
hub's own sequence of notifications. -/
structure HopSess where
  last   : Nat := 0
  cached : Option (List Byte × List Byte) := none
  notify : Nat := 0
  deriving DecidableEq, Repr

/-- A subscription served by this hub (R93, R99). `slot` is none for one made in an open frame. -/
structure HopSub where
  id     : Nat
  slot   : Option KeySlot
  key    : Nat
  /-- period in ms; 0 = on change -/
  period : Nat
  /-- the route back, and the interface when this hub received the frame itself -/
  path   : List Byte
  src    : HopSrc
  value  : Nat
  /-- instant of the last notification -/
  sent   : Nat
  deriving DecidableEq, Repr

/-- A client whose subscribing frame this hub received over UDP and forwarded (R99). -/
structure HopClient where
  session : Nat
  key     : Nat
  /-- the hop bytes to the hub that serves it -/
  route   : List Byte
  src     : HopSrc
  deriving DecidableEq, Repr

/-- A transaction (R101): a frame received over UDP and forwarded, whose response is awaited. -/
structure HopFwd where
  id      : Nat
  seq     : Nat
  session : Nat
  /-- the hop bytes to its target -/
  route   : List Byte
  src     : HopSrc
  deriving DecidableEq, Repr

/-- A frame executed up to a store operation that runs (R93, R101): the response so far, with the operations that follow it. -/
structure HopExec where
  slot    : Option KeySlot
  src     : HopSrc
  hdr     : List Byte
  /-- the value its tag was checked with (R617) -/
  key     : List Byte
  /-- the tag of the request -/
  tag     : List Byte
  /-- response operations done, newest last -/
  done    : List (List Byte)
  /-- operations that follow -/
  rest    : List (List Byte)
  deriving DecidableEq, Repr

/-- The Hertal Object Protocol. The sessions are listed for slots that have accepted a frame. -/
structure HopSt where
  sessions : List (Nat × HopSess) := []
  /-- the one sequence of open frames -/
  openSess : HopSess := {}
  subs     : List HopSub := []
  clients  : List HopClient := []
  fwd      : List HopFwd := []
  /-- the frame that waits for a store -/
  storing  : Option HopExec := none
  nextId   : Nat := 0
  deriving DecidableEq, Repr
/-- What the decoding of an aperture access gives, under the window's group in effect at its acceptance (R108, R110). -/
structure WinDec where
  win     : Fin 16
  target  : Nat
  /-- `WIN_PATH` -/
  path    : Nat
  /-- offset in the target space -/
  off     : Nat
  flags   : Nat
  /-- `WIN_TIMEOUT`, µs -/
  timeout : Nat
  deriving DecidableEq, Repr

/-- A window's prefetch buffer (R119, R121): the origin whose read filled it, the number of the fill, target space, path and offset of
its block, and the words held. -/
structure Prefetch where
  origin : Origin
  serial : Nat
  target : Nat
  path   : Nat
  block  : Nat
  words  : List (Nat × W32)
  deriving DecidableEq, Repr

/-- An access at the bridge (R110, R111): its number, the address as its origin gave it, whether it lies outside BAR0 and the local range,
its decoding, the offset in the local view, the bytes read or written, and the data. -/
structure BridgeAcc where
  num    : Nat
  origin : Origin
  addr   : Nat
  ap     : Bool
  dec    : Option WinDec
  off    : Nat
  n      : Nat
  write  : Bool
  data   : W32
  deriving DecidableEq, Repr

/-- A remote access that waits for its result (R112, R116). -/
structure RemoteAcc where
  id     : Nat
  /-- the access it carries out -/
  num    : Nat
  origin : Origin
  dec    : WinDec
  write  : Bool
  /-- a write of a posted window: complete for its origin (R111) -/
  posted : Bool
  /-- address as the requester gave it -/
  addr   : Nat
  data   : W32
  path   : W64
  n      : Nat
  /-- it fetches a word for the prefetch buffer filled under this number (R119) -/
  fill   : Option Nat
  /-- the discard of that buffer has raised its event (R122) -/
  told   : Bool := false
  deriving DecidableEq, Repr

/-- A posted write toward the host (R123): data, or an MSI-X vector. -/
inductive HostPosted where
  | mem (addr : W64) (bs : List Byte)
  | msix (vector : Nat)
  deriving DecidableEq, Repr

/-- A transfer on the management port (R128, R129). -/
structure MpTransfer where
  write : Bool
  i2c   : Bool
  addr  : W32
  deriving DecidableEq, Repr

/-- The host bridge (R104 to R132). -/
structure Bridge where
  prefetch : Vector (Option Prefetch) 16 := Vector.replicate 16 none
  remote   : List RemoteAcc := []
  /-- remote accesses held because 256 non-posted transactions are taken (R326) -/
  held     : List RemoteAcc := []
  /-- accesses that wait behind a write of their origin in a non-posted window (R111); the writes among them lie in the inbound posted
  buffer (R123) -/
  queue    : List BridgeAcc := []
  /-- accesses that are not accepted yet: the inbound posted buffer is full, or one before them of their origin waits so -/
  waits    : List BridgeAcc := []
  /-- the outbound posted buffer, oldest first (R123) -/
  postedOut : List HostPosted := []
  nextId   : Nat := 0
  nextAcc  : Nat := 0
  nextFill : Nat := 0
  /-- tracked entries of hub-side requests withdrawn under R124, with the inbound access each was withdrawn for -/
  withdrawn : List (Nat × Nat) := []
  /-- the transfer on the management port, and the access whose answer its master awaits -/
  mp       : Option MpTransfer := none
  mpBusy   : Option Nat := none
  /-- the access being answered -/
  cur      : Nat := 0
  /-- the entry of the discard log that receives the next word -/
  discardNext : Fin 8 := 0
  /-- members whose interrupt message arrived since the last poll (R132) -/
  messages : BitVec 32 := 0
  /-- epochs since the last sideband poll -/
  sincePoll : Nat := 0
  deriving DecidableEq, Repr
/-- What the far end of a trunk tells in its training frames (R199). -/
structure FarInfo where
  type  : Nat := 0
  unit  : Nat := 0
  role  : Nat := 0
  depth : Nat := 0
  path  : Bool := false
  root  : Nat := 0
  rates : Nat := 0
  /-- rate code it tells for the next step -/
  next  : Nat := 0
  /-- encrypted classes and the composite root ports of the far end (log entry 12) -/
  enc   : Nat := 0
  rps   : BitVec 2 := 0
  /-- its keying nonce, once a keying frame has told it -/
  nonce : Option Nat := none
  kcv   : Nat := 0
  /-- its hold of a calibration frame by lane, ps (R203) -/
  hold  : List (Nat × Nat) := []
  /-- its transmit and receive delays by lane, ps -/
  tx    : List (Nat × Nat) := []
  rx    : List (Nat × Nat) := []
  deriving DecidableEq, Repr

/-- What the driver of an end puts on a lane (R146, R157, R168, R170). -/
inductive Drive where
  /-- high impedance -/
  | z
  /-- training patterns -/
  | training
  | codewords
  /-- common mode held, no swing -/
  | idle
  /-- driven, with nothing from the pattern generator yet (R168 mode 3) -/
  | active
  /-- the alignment pattern of a lane that turns -/
  | alignment
  /-- a test pattern, by `TK_PATTERN` -/
  | pattern (k : Nat)
  /-- the symbols received on another lane, retimed -/
  | echo (lane : Nat)
  deriving DecidableEq, Repr

/-- The pads of a lane at this end (R146). -/
structure Pads where
  drive  : Drive := .z
  /-- termination on -/
  term   : Bool := false
  /-- signal detect on, clock recovery held -/
  detect : Bool := false
  deriving DecidableEq, Repr

/-- The path of a lane in LOOP (R168). -/
inductive LoopPath where
  /-- serial output into the own receiver -/
  | serial
  /-- cells into the own receive stream -/
  | parallel
  /-- sent to the far end, which returns it on lane 3 − l -/
  | far
  /-- received here and returned on lane 3 − l -/
  | returned
  deriving DecidableEq, Repr

/-- Receive values of a lane in a direction (R154): equalisers, thresholds, the phase in UI and the deskew delay in ps. -/
structure RxSet where
  ctle   : Nat := 0
  dfe1   : Nat := 0
  dfe2   : Nat := 0
  dfe3   : Nat := 0
  slice  : Nat := 0
  phase  : Int := 0
  deskew : Nat := 0
  deriving DecidableEq, Repr

/-- One end of a lane's stream in the slot grid (R181 to R188): codeword that followed the last marker, slots and codewords since it,
scrambler, bits not yet in a whole codeword or slot, marker periods since link up. -/
structure LaneStream where
  on    : Bool := false
  cw0   : Nat := 0
  slots : Nat := 0
  words : Nat := 0
  scr   : Nat := 0
  bits  : List Bool := []
  /-- a bit of the slot in progress lay in an uncorrectable codeword -/
  bad   : Bool := false
  per   : Nat := 0
  deriving DecidableEq, Repr

/-- The pattern generator of a lane (R170): the pattern, its register, the symbols sent, and whether the next bit goes out inverted. -/
structure PatternGen where
  pattern : Nat
  reg     : Nat
  pos     : Nat := 0
  flip    : Bool := false
  deriving DecidableEq, Repr

/-- The pattern checker of a lane (R170): the pattern, its register, the symbols seen, how many in a row were free of errors, and whether
it has locked. -/
structure PatternCheck where
  pattern : Nat
  reg     : Nat := 0
  pos     : Nat := 0
  good    : Nat := 0
  locked  : Bool := false
  deriving DecidableEq, Repr

/-- A lane of a trunk port at this end. -/
structure LaneSt where
  pads : Pads := {}
  loop : Option LoopPath := none
  /-- TX FFE taps of the two directions, away first, for one this end transmits in (R150, R154) -/
  ffe  : Vector (Option Nat) 2 := Vector.replicate 2 none
  /-- stored receive sets of the two directions, for one this end receives in (R154, R155) -/
  sets : Vector (Option RxSet) 2 := Vector.replicate 2 none
  /-- receive values in use (R153, R156) -/
  live : RxSet := {}
  /-- the receiver inverts the lane, by direction (R136) -/
  inv  : Vector Bool 2 := Vector.replicate 2 false
  /-- own transmit and receive delay, ps (R203) -/
  txDelay : Nat := 0
  rxDelay : Nat := 0
  tx   : LaneStream := {}
  rx   : LaneStream := {}
  /-- codewords of the last 100 ms: instant and symbols corrected (R197) -/
  fec  : List (Nat × Nat) := []
  gen  : Option PatternGen := none
  tst  : Option PatternCheck := none
  /-- receive phase recorded at training, by direction, in UI (R141) -/
  phase0 : Vector Int 2 := Vector.replicate 2 0
  /-- this end's last FFE request for the lane, where it receives, and its last status, where it transmits (R199 bytes 26 and 27) -/
  ask    : Nat := 0
  status : Nat := 0
  deriving DecidableEq, Repr

/-- A live eye scan (R172 to R178). -/
structure EyeScan where
  lane   : Nat
  dir    : Nat
  dwell  : Nat
  start  : Nat
  rate   : Nat
  paused : Bool := false
  /-- an abort takes effect at the next grid point (R57, R176) -/
  abort  : Bool := false
  /-- voltage index, phase index and count of the points measured, oldest first (R172) -/
  counts : List (Nat × Nat × Nat) := []
  deriving DecidableEq, Repr

/-- What the link layer of a trunk port keeps beyond its objects (R187 to R213). -/
structure LinkSt where
  /-- encrypted classes fixed at training, bit c for SCc (R206) -/
  enc       : Nat := 0
  /-- link control cells that wait for the fixed lane: the content from payload byte 0 (R192) -/
  control   : List (List Byte) := []
  /-- HOP carriage cells that wait for a slot: header and payload (R193) -/
  hopTx     : List (List Byte × List Byte) := []
  /-- frame tag of the next HOP frame sent -/
  hopTag    : Nat := 0
  /-- next count of HOP carriage cells sent -/
  hopCount  : Nat := 0
  /-- next count expected of HOP carriage cells received -/
  hopExpect : Nat := 0
  /-- frames being reassembled, by frame tag; none = a gap has spoilt it -/
  hopRx     : List (Nat × Option (List Byte)) := []
  /-- next sequence of each link tunnel sent (R189) -/
  txSeq     : List (Nat × Nat) := []
  /-- next sequence expected of each link tunnel received -/
  rxSeq     : List (Nat × Nat) := []
  /-- traffic secret and salt of the transmit direction (R613) -/
  txS       : List Byte := []
  txSalt    : List Byte := []
  /-- traffic secret and salt of the receive direction -/
  rxS       : List Byte := []
  rxSalt    : List Byte := []
  /-- phase changes of each direction since link up (R614) -/
  txJ       : Nat := 0
  rxJ       : Nat := 0
  /-- announced boundaries at which the direction's phase changes (R208, R615) -/
  txChange  : Option Nat := none
  rxChange  : Option Nat := none
  /-- link epoch count from which the old receive phase is retired (R208) -/
  rxRetire  : Option Nat := none
  /-- epochs a closed announcement is still to be sent in (R615) -/
  closing   : Nat := 0
  /-- full epoch count of the last cell accepted (R207) -/
  lastEpoch : Nat := 0
  /-- control cells received and not handled yet -/
  ctrlIn    : List (List Byte) := []
  /-- epoch boundaries since a link control cell last arrived (R211), and since the leaf's epoch control cell did (R228) -/
  ctrlGap   : Nat := 0
  reportGap : Nat := 0
  /-- Jensar mode is entered on the port -/
  mode      : Bool := false
  /-- instant the bounds of training are measured from (R200, R663) -/
  start     : Nat := 0
  /-- rate code the training runs at (R200, R201) -/
  rate      : Nat := 0
  /-- rate step-downs of this training (R201) -/
  downs     : Nat := 0
  /-- what the far end's training frames have told -/
  far       : FarInfo := {}
  /-- fault code this end's training frames tell (R199, R202) -/
  fault     : Nat := 0
  /-- own part of the step in progress is done, and frames of the next type go out (R200) -/
  done      : Bool := false
  /-- own hold of a calibration frame, ps (R203) -/
  hold      : Nat := 0
  /-- lanes that failed steps 6 or 7, one bit each (R201) -/
  failed    : Nat := 0
  /-- own keying nonce (R205) -/
  nonce     : Nat := 0
  /-- training is held before step 3 (R663) -/
  pathHold  : Bool := false
  /-- length of the last wait of R213 in ms -/
  waitMs    : Nat := 0
  /-- own end role agreed by a role swap that retrains the link (R243): 1 root, 2 leaf -/
  swapEnd   : Option Nat := none
  /-- the slot the link was keyed from (R610) -/
  keySlot   : Option Nat := none
  /-- lanes in single-lane retraining with their direction (R697) -/
  retrain   : List (Nat × Nat) := []
  /-- consecutive failures of single-lane retraining, by lane -/
  fails     : List (Nat × Nat) := []
  /-- lanes whose retraining has passed and that take their state at the next boundary (R697) -/
  trained   : List Nat := []
  /-- periodic markers missed in a row, by lane (R186) -/
  missed    : List (Nat × Nat) := []
  /-- instants of uncorrectable codewords: lane and instant (R198) -/
  cwErr     : List (Nat × Nat) := []
  /-- instant of the last FEC_DEGRADED, by lane (R197) -/
  fecAt     : List (Nat × Nat) := []
  /-- instant of the last CTLE step, by lane (R153) -/
  ctleAt    : List (Nat × Nat) := []
  /-- eye scans under way or paused -/
  eyes      : List EyeScan := []
  /-- this end returns the far end's symbols (R168 mode 3) -/
  farLoop   : Bool := false
  /-- the planner's choice for the epoch (R227) -/
  choice    : Option Nat := none
  /-- `DOWN_COUNT` as the epoch opened (R224) -/
  downAt    : Nat := 0
  /-- the root has sent its announcement of this epoch -/
  announced : Bool := false
  /-- the planner was late this epoch -/
  late      : Bool := false
  /-- the leaf's cell of this epoch has arrived (R228) -/
  reported  : Bool := false
  /-- usable reversible lanes at the far end, bits 0 and 1; none before its first cell (R222) -/
  farUsable : Option Nat := none
  /-- the last announcement was acknowledged (R220); there was one to acknowledge -/
  acked     : Bool := true
  /-- the leaf acknowledges in its next cell -/
  ackDue    : Bool := false
  /-- a swap command waits for the next boundary (R249) -/
  swapCmd   : Bool := false
  /-- request outstanding: boundary, cause, epoch count at sending (R240) -/
  swapReq   : Option (Nat × Nat × Nat) := none
  /-- agreed swap: boundary and own end role after it -/
  swapAt    : Option (Nat × Nat) := none
  /-- instant since which evaluated roles have differed (R239) -/
  swapSince : Option Nat := none
  /-- lanes away of the codes in effect in the last epochs, by link epoch count (R234) -/
  pats      : List (Nat × Nat) := []
  /-- the far end's depth and cabinet root by paths outside this link (R219) -/
  farOut    : Option (Nat × Nat) := none
  /-- L0 of the port has been acquired and the tracking PLL can lock to it (R139, R140) -/
  l0Lock    : Bool := false
  /-- the four lanes -/
  lanes     : Vector LaneSt 4 := Vector.replicate 4 {}
  /-- cells decoded and not handled yet: position in the grid (period, bit), lane, header and payload (R188) -/
  cellsIn   : List ((Nat × Nat) × Lane × List Byte × List Byte) := []
  /-- instant of the last link up -/
  upAt      : Nat := 0
  /-- instant from which route tags may return to the port (R269) -/
  revertAt  : Nat := 0
  /-- link epoch count of the last change of own key phase (R208) -/
  phaseAt   : Nat := 0
  /-- link epoch count of the last difference under R237 at either end (R400) -/
  mismAt    : Option Nat := none
  /-- the time compensation entries are to be rebuilt at the next boundary (R398) -/
  rebuild   : Bool := false
  /-- code in effect at the root end at link up, as its training tells (R230, log entry 12) -/
  initial   : Nat := 2
  deriving DecidableEq, Repr
/-- Where a cell is held (R270, R277, R278). -/
inductive Place where
  | pot | spill | staging
  deriving DecidableEq, Repr

/-- A copy of a cell that waits for its egress (R264). -/
structure Copy where
  egress : Nat
  /-- congestion mark (R275) -/
  cm     : Bool
  /-- link tunnel number at a trunk egress, under the group in effect when the cell was queued (R253) -/
  num    : Nat
  /-- the copy has been counted in `SHAPER_WAITS` -/
  waited : Bool := false
  deriving DecidableEq, Repr

/-- A cell at core ingress: the attachment, its local channel, header and payload. -/
structure Arrival where
  ing     : Nat
  chan    : Nat
  hdr     : List Byte
  body    : List Byte
  /-- a sequence gap lies before it -/
  gap     : Bool := false
  /-- its refusal has been counted -/
  counted : Bool := false
  deriving DecidableEq, Repr

/-- A cell held in the core, in order of arrival. -/
structure QCell where
  tun    : Nat
  cls    : Nat
  /-- the tunnel's local channel under the group in effect when the cell was queued (R253) -/
  chan   : Nat
  place  : Place
  /-- an SC5 frame-end marker in the entry kept for it (R273) -/
  marker : Bool
  /-- trunk hops crossed so far -/
  hops   : Nat
  gap    : Bool
  hdr    : List Byte
  body   : List Byte
  copies : List Copy
  /-- the tunnel was pinned, or multicast, when the cell was queued (R253, R265, R268) -/
  pinned : Bool
  multi  : Bool
  deriving DecidableEq, Repr

/-- A cell handed to an attachment that is no trunk and not taken by it yet. -/
structure InCell where
  egress : Nat
  tun    : Nat
  /-- its local channel -/
  chan   : Nat
  gap    : Bool
  hdr    : List Byte
  body   : List Byte
  deriving DecidableEq, Repr

/-- What became of the lines of an SC5 frame. -/
inductive FrameDrop where
  | none | pot | strainer
  deriving DecidableEq, Repr

/-- The camera lines of one tunnel at one ingress (R273, R304, R348, R351). -/
structure LineSt where
  /-- entries admitted for the line and not used yet -/
  left    : Nat := 0
  /-- the rest of the frame is dropped -/
  drop    : FrameDrop := .none
  /-- lines refused in the frame -/
  refused : Nat := 0
  /-- a sequence gap in the frame -/
  gap     : Bool := false
  deriving DecidableEq, Repr

/-- The token buckets (R290, R302). -/
inductive BucketKind where
  | committed | peak | policer
  deriving DecidableEq, Repr

/-- A bucket: tokens in units of 2^-26 × 10^-6 cell, and the instant they were reckoned at. -/
structure Bucket where
  kind  : BucketKind
  tun   : Nat
  port  : Nat
  level : Nat
  at_   : Nat
  deriving DecidableEq, Repr

/-- An interleaved round-robin state (R288): the egress, which of its states, the pass and the next member. -/
structure Iwrr where
  egress : Nat
  /-- 0 committed tier, 1 excess tier, 2 + c the tunnels of class c -/
  which  : Nat
  pass   : Nat
  pos    : Nat
  deriving DecidableEq, Repr

/-- The switch core, the Pot, Blend and the Strainer. -/
structure CoreSt where
  cells    : List QCell := []
  /-- cells presented by attachments, oldest first -/
  arrivals : List Arrival := []
  /-- cells handed to attachments, oldest first -/
  inbox    : List InCell := []
  lines    : List ((Nat × Nat) × LineSt) := []
  /-- buckets that are not full -/
  buckets  : List Bucket := []
  iwrr     : List Iwrr := []
  /-- egresses that send a cell, and the instant they end -/
  busy     : List (Nat × Nat) := []
  /-- the instant of the next slot a `PORT_LIMIT` leaves open (R293) -/
  limitAt  : List (Nat × Nat) := []
  /-- payload bytes delivered in the present epoch -/
  delivered : Nat := 0
  /-- payload bytes passed from one trunk port to the other (R537) -/
  transit  : Nat := 0
  /-- cells enqueued in the present epoch for a trunk port and class -/
  enq      : List ((Nat × Nat) × Nat) := []
  /-- tunnels not served at an egress for the time being, by their owner's rule (R374) -/
  stalls   : List (Nat × Nat) := []
  /-- E0 and E1 drop the rest of the frame of a refused cell (R387), and whether the last cell presented was refused -/
  frameDrop : List Nat := []
  refused   : Bool := false
  /-- the LPDDR5X channel cannot take a spill write now (R280) -/
  spillBusy : Bool := false
  /-- trunk ports that failover has left and that have not been up for `PIN_REVERT_HOLD` since (R268, R269) -/
  pinLost   : List Nat := []
  deriving DecidableEq, Repr
/-- A DMA channel (R333 to R338). -/
structure DmaCh where
  /-- descriptors fetched -/
  fetched : Nat := 0
  /-- fetched and not opened: buffer address and length -/
  descs   : List (Nat × Nat) := []
  /-- the open buffer: address, length, bytes done -/
  buf     : Option (Nat × Nat × Nat) := none
  /-- cells of the tunnel were dropped since the previous buffer closed -/
  drops   : Bool := false
  /-- bytes of a cell that found no further buffer, and whether the cell has last set -/
  rest    : List Byte := []
  restLast : Bool := false
  /-- a buffer read is outstanding -/
  asked   : Bool := false
  /-- bytes read from host memory that do not fill a cell yet (R335) -/
  part    : List Byte := []
  /-- its next buffer read is held while every tracked entry is taken (R326) -/
  held    : Bool := false
  /-- a descriptor read is outstanding, and the descriptor bytes it has brought -/
  fetching : Option (List Byte) := none
  /-- its next descriptor read is held likewise -/
  fetchHeld : Bool := false
  deriving DecidableEq, Repr

/-- A tracked non-posted transaction (R325). -/
structure NpEntry where
  id   : Nat
  key  : NpKey
  tc   : Nat
  /-- trunk port its path leaves by, if it crosses one -/
  trunk : Option Nat
  /-- slot device it is for, 0 for none -/
  dev  : Nat
  deriving DecidableEq, Repr

/-- What an end of a TLP tunnel counts (R320 to R322). -/
structure TlpTun where
  tun     : Nat
  /-- the PCIe port of the end -/
  port    : Nat
  /-- TLPs sent -/
  sent    : Nat := 0
  /-- cells sent -/
  cells   : Nat := 0
  /-- freed count received -/
  freedIn : Nat := 0
  /-- cells passed out of the opposite direction -/
  freedOut : Nat := 0
  /-- freed count last told -/
  told    : Nat := 0
  /-- count of the last TLP that has entered the link's transmit queue -/
  entered : Nat := 0
  /-- non-posted requests held for their fence: fence, cells and TLP bytes -/
  held    : List (Nat × Nat × List Byte) := []
  /-- TLPs held for window credit: their fence and bytes -/
  wait    : List (Nat × Tlp) := []
  deriving DecidableEq, Repr

/-- The PCIe ports, the switch and non-posted tracking. -/
structure PcieSt where
  np      : List NpEntry := []
  nextNp  : Nat := 0
  tuns    : List TlpTun := []
  /-- non-posted TLPs held while all entries are taken -/
  npHold  : List (Fin 2 × Nat × Tlp) := []
  /-- role and owner in effect (R310, R313) -/
  role    : Vector Nat 2 := Vector.ofFn fun i => if i = 0 then 1 else 2
  owner   : Vector Nat 2 := Vector.replicate 2 1
  /-- the upstream port has been reset since its last link-up (R317) -/
  upReset : Bool := true
  /-- root ports known with a composite owner: unit, port, DL_Active -/
  rps     : List (Nat × Nat × Bool) := []
  /-- former member numbers of hubs that left (R89) -/
  former  : List (Nat × Nat) := []
  /-- every unit path known to a member, in the order it joined by them (R24) -/
  paths   : List (Nat × Nat) := []
  /-- links held in reset at P0 and P1: 0 none, 1 hot reset, 3 PERSTn asserted, 5 PERSTn asserted until Pn_CKO has been stable for 100 µs
  (R312) -/
  reset   : Vector Nat 2 := Vector.replicate 2 0
  /-- Pn_CKO is driven, stable since this instant (R312) -/
  cko     : Vector (Option Nat) 2 := Vector.replicate 2 none
  /-- the reset that downstream ports were last given and that has not been released: 1 hot reset, 3 PERSTn (R314) -/
  given   : Nat := 0
  /-- what the configuration registers of the switch's functions hold where it is not their value after a reset: function times 4096 plus
  register, and value (R309, R311) -/
  cfg     : List (Nat × Nat) := []
  /-- remote bridge requests ended under R327 or R328 whose result may still come (R329) -/
  gone    : List Nat := []
  deriving DecidableEq, Repr
/-- A frame that is open on a camera stream (R344 to R351). -/
structure CamFrame where
  num   : Nat
  /-- TIME32 of FS and of the linked trigger's last edge -/
  fs    : Nat
  trig  : Nat
  lines : Nat := 0
  /-- a line was discarded for CRC; a line was truncated -/
  bad   : Bool := false
  cut   : Bool := false
  /-- byte count of the first line -/
  first : Option Nat := none
  deriving DecidableEq, Repr

/-- A camera trigger (R353 to R356). -/
structure TrigSt where
  /-- edges are to come -/
  runs   : Bool := false
  /-- E0 in ns of network time, and the index of the next edge -/
  e0     : Nat := 0
  k      : Nat := 0
  /-- a pulse is active -/
  pulse  : Bool := false
  /-- a committed group waits for the end of the pulse -/
  waits  : Bool := false
  deriving DecidableEq, Repr
/-- A rectangle of a plane: x, y, width, height. -/
structure Rect where
  x : Nat
  y : Nat
  w : Nat
  h : Nat
  deriving DecidableEq, Repr

/-- A colour as exact fractions of full scale: red, green, blue (R362). -/
structure Pixel where
  r : Nat × Nat
  g : Nat × Nat
  b : Nat × Nat
  deriving DecidableEq, Repr

/-- A display plane (R363, R369 to R374). -/
structure PlaneSt where
  /-- a flip is pending: its record's sequence and target frame -/
  flip  : Option (Nat × Option Nat) := none
  /-- rectangles written into the back buffer since the previous flip -/
  rects : List Rect := []
  /-- the carry under way -/
  carry : Option (List Rect) := none
  deriving DecidableEq, Repr

/-- A display port (R359 to R381). -/
structure DispPort where
  /-- HPD is high -/
  hpd    : Bool := false
  /-- rates and lanes the sink reported at the last capability read, its best self-refresh mode -/
  rates  : Option Nat := none
  lanes  : Nat := 0
  srBest : Nat := 0
  /-- the timing generator runs; the instant the next frame begins -/
  runs   : Bool := false
  next   : Nat := 0
  /-- the rows to be sent of the frame that begins then, with its number -/
  frame  : Option (Nat × List Nat) := none
  /-- the stream stops at the end of the frame -/
  stops  : Bool := false
  /-- idle frames in a row; windows since state 2 was entered -/
  idle   : Nat := 0
  wait   : Nat := 0
  /-- rows, from and to before, that the next selective update covers (R378), and the sink's Y granularity -/
  su     : List (Nat × Nat) := []
  /-- rows of a later change, whose update goes out one frame after that -/
  suNext : Option (List (Nat × Nat)) := none
  yGran  : Nat := 1
  /-- the frame of states 4 and 5 goes out one frame later (R378, R379); the instant it has been sent -/
  later  : Bool := false
  sentAt : Option Nat := none
  /-- `EDP_T_BL` of the sequence under way, ms (R381) -/
  tBl    : Nat := 0
  /-- frame count at which DISP_UNDERRUN was last raised -/
  under  : Option Nat := none
  /-- levels of D0_VDDEN and D0_BLEN -/
  vdden  : Bool := false
  blen   : Bool := false
  /-- the instant the present period of EDP_PWM ends -/
  pwmAt  : Nat := 0
  deriving DecidableEq, Repr
/-- A PTP frame for the engine (R385, R390, R391): whether it was sent or received, the timestamp of an event frame in 1/8 192 000 ns of
network time, and the frame. -/
structure PtpFrame where
  sent  : Bool
  stamp : Option Int
  frame : List Byte
  deriving DecidableEq, Repr

/-- The MAC of an Ethernet port (R383 to R393). -/
structure MacSt where
  /-- frames being reassembled, by tunnel -/
  parts  : List (Nat × List Byte) := []
  /-- frames that wait: egress queue and frame, oldest first -/
  queue  : List (Nat × List Byte) := []
  /-- instant the frame on the wire ends -/
  busy   : Nat := 0
  /-- instant until which PAUSE holds transmission -/
  paused : Nat := 0
  /-- config change time of a committed gate list, ns of network time -/
  change : Option Nat := none
  /-- PTP frames and timestamps that wait for the engine, oldest first -/
  ptp    : List PtpFrame := []
  /-- instants at which the firmware of the PTP engine next sends Sync, Pdelay_Req and Announce, and their sequence numbers (R389) -/
  ptpAt  : Vector Nat 3 := Vector.replicate 3 0
  ptpSeq : Vector Nat 3 := Vector.replicate 3 0
  /-- the instant that firmware last published something of the port -/
  ptpSeen : Nat := 0
  deriving DecidableEq, Repr

/-- Network time: its servo, a step to come, and the grandmaster data that come down the tree (R394 to R407). Times within are in
1/8 192 000 ns. -/
structure NetSt where
  /-- the integral, in 1/4 ppb divided by 819 200 000 -/
  integ  : Int := 0
  /-- consecutive samples within and beyond the lock threshold -/
  good   : Nat := 0
  bad    : Nat := 0
  /-- a step: amount in ns and the pre-step boundary, ns of network time -/
  step   : Option (Int × Nat) := none
  /-- boundaries before this network time are not taken -/
  skip   : Nat := 0
  /-- the multiple of 125 µs whose boundary was taken last, or that time was last set within (R217) -/
  last   : Option Nat := none
  /-- steps and sets applied -/
  steps  : Nat := 0
  /-- the whole second last reached -/
  second : Option Nat := none
  pps    : Bool := false
  /-- bytes 39 to 57 of the uplink's cells, and the flags [5:3] of their byte 2 -/
  gm     : List Byte := []
  gmFlags : Nat := 0
  deriving DecidableEq, Repr

/-- A time exchange cell sent or received: epoch, timestamp, steps applied before it, and allotment pattern (lanes away). -/
structure XStamp where
  epoch : Nat
  time  : Nat
  steps : Nat
  away  : Nat
  deriving DecidableEq, Repr

/-- The time exchange of a trunk port (R399, R400). -/
structure XchgSt where
  /-- the link up these belong to -/
  since : Option Nat := none
  tx    : List XStamp := []
  rx    : List XStamp := []
  /-- root end: t2 by epoch -/
  t2    : List (Nat × Nat) := []
  /-- root end: the accepted d_raw, newest first -/
  raw   : List Int := []
  /-- exchanges up to this one are settled -/
  done  : Option Nat := none
  /-- receive timestamps of the far end's cells that wait to be handled, oldest first -/
  heard : List XStamp := []
  /-- the first cell after link up has been queued -/
  began : Bool := false
  /-- the far end's cells say its time is valid -/
  valid : Bool := false
  deriving DecidableEq, Repr
/-- A response section as the master keeps it: response valid, command missing, CRC failed, drive status, data (R425). -/
structure RespSec where
  valid  : Bool
  noCmd  : Bool
  crcBad : Bool
  status : Nat
  data   : List Byte
  deriving DecidableEq, Repr

/-- A motion cycle whose responses are not yet due at the master: its number, its start, the sections by drive. -/
structure RespCyc where
  k     : Nat
  start : Nat
  secs  : List (Nat × RespSec)
  deriving DecidableEq, Repr

/-- A local axis link (R413 to R420, R433). -/
structure AxlSt where
  /-- command sections held for the cycle: drop and data -/
  secs    : List (Nat × List Byte) := []
  /-- the cycle whose command frame has been built, with the sections it took -/
  built   : Option (Nat × List (Nat × List Byte)) := none
  /-- the cycle last started on the link, its start S_k and T_L -/
  started : Option Nat := none
  start   : Nat := 0
  tl      : Nat := 0
  /-- drops without a command in the frame of that cycle -/
  noCmd   : List Nat := []
  /-- a link cycle is in progress -/
  runs    : Bool := false
  /-- responses of the cycle by drop -/
  resp    : List (Nat × RespSec) := []
  /-- response cells presented of the cycle -/
  sent    : Nat := 0
  /-- the committed group switches the link off when the cycle ends -/
  off     : Bool := false
  deriving DecidableEq, Repr

/-- The motion engine (R421 to R437). -/
structure MotSt where
  /-- number of the last cycle started, not reduced modulo 2^16 -/
  last    : Option Nat := none
  resp    : List RespCyc := []
  /-- consecutive misses by drive 8 × link + drop -/
  misses  : List (Nat × Nat) := []
  /-- drives that have had a valid cycle since the release of PORn or RSTn or the end of a safe stop (R638, R665) -/
  seen    : List Nat := []
  /-- drives whose run of misses has been reported -/
  faulted : List Nat := []
  /-- a safe stop is requested and not yet acted on -/
  request : Bool := false
  /-- a safe stop holds -/
  safe    : Bool := false
  deriving DecidableEq, Repr
/-- GPIO (R446 to R448). -/
structure GpioSt where
  out     : W32 := 0
  /-- directions and pulls in effect since the last sample -/
  dir     : W32 := 0
  pullEn  : W32 := 0xFFFFFFFF
  pullUp  : W32 := 0
  /-- filtered input, and for each pin the samples at a new level and the TIME32 of the first of them -/
  input   : W32 := 0
  run     : List (Nat × Nat × Nat) := []
  /-- changes not yet reported, and the time of the earliest -/
  changed : W32 := 0
  since   : Nat := 0
  /-- instant of the last report; none before the first -/
  last    : Option Nat := none
  /-- output commands held: TIME32, set mask, clear mask -/
  cmds    : List (Nat × Nat × Nat) := []
  /-- the suspend pin is driven high (R459) -/
  susp    : Option Nat := none
  deriving DecidableEq, Repr

/-- Where a list came from (R450). -/
inductive ListSrc where
  | go
  | request (id : Nat)
  | poll (slot : Nat)
  deriving DecidableEq, Repr

/-- An I2C or SPI master (R443, R449, R450). -/
structure MasterSt where
  cmd    : List Byte := List.replicate 256 0
  result : List Byte := []
  status : Nat := 0
  /-- the FIFO, the list that runs in front -/
  queue  : List (ListSrc × List Byte) := []
  runs   : Bool := false
  /-- poll slots whose next run reports whatever it finds -/
  first  : List Nat := []
  deriving DecidableEq, Repr

/-- A UART (R453 to R455). -/
structure UartSt where
  rx     : List Byte := []
  tx     : List Byte := []
  /-- the transmitter sends a character -/
  shift  : Bool := false
  /-- CTSn is asserted -/
  cts    : Bool := true
  /-- a short message may leave -/
  flush  : Bool := false
  sent   : Nat := 0
  credit : Nat := 0
  expect : Nat := 0
  used   : Nat := 0
  told   : Nat := 0
  /-- a data message waits for credit -/
  stalled : Bool := false
  deriving DecidableEq, Repr

/-- The USB hub and its device function (R456 to R463). -/
structure UsbSt where
  /-- states before suspend, hub and device function -/
  before : Nat × Nat := (0, 0)
  suspAt : Nat := 0
  /-- the host has enabled remote wakeup of the device function -/
  wakeOk : Bool := false
  /-- setup sequence number, and the request whose status stage is to come -/
  seq    : Nat := 0
  open_  : Option Nat := none
  /-- a control transfer's SETUP is acknowledged and its status stage is to come -/
  ctl    : Bool := false
  /-- the engine the last request was passed to -/
  eng    : Nat := 0
  /-- addresses of halted endpoints -/
  halts  : List Nat := []
  /-- endpoints whose data toggle is DATA1 -/
  toggle : List Nat := []
  /-- HOP frames waiting on EP1 IN, bytes of a frame arriving on EP1 OUT -/
  ep1In  : List (List Byte) := []
  ep1Out : List Byte := []
  /-- the frame arriving is for the HOP server: `DEV_HOP_ENABLE` at its start -/
  ep1Hop : Bool := false
  /-- transactions of the U3 proxy in flight, each with whether it is a SETUP already acknowledged, and answers returned -/
  flight : List (Nat × Bool) := []
  back   : List (Nat × List Byte) := []
  deriving DecidableEq, Repr
/-- A load of an engine that waits for the result of a remote access (R467): destination register, function code, address, and the
length of its instruction. -/
structure EngLoad where
  rd   : Nat
  fn   : Nat
  addr : W32
  len  : Nat
  /-- the result and the value, once they have arrived -/
  answer : Option (Nat × W32) := none
  deriving DecidableEq, Repr

/-- A Steep engine (R465 to R484): its RISC-V state. Register x0 is not stored. -/
structure EngSt where
  pc       : W32 := 0
  regs     : Vector W32 31 := Vector.replicate 31 0
  /-- mstatus bits MIE and MPIE -/
  mie_     : Bool := false
  mpie     : Bool := false
  /-- mie: software, timer and external enables in their places -/
  mie      : W32 := 0
  mtvec    : W32 := 0
  mscratch : W32 := 0
  mepc     : W32 := 0
  mcause   : W32 := 0
  mtval    : W32 := 0
  minstret : W64 := 0
  mtimecmp : W64 := 0xFFFFFFFFFFFFFFFF
  /-- high word latched by the last read of MTIME (R468) -/
  timeHi   : W32 := 0
  lastResult : Byte := 0
  /-- the machine timer interrupt is pending -/
  mtip     : Bool := false
  /-- its TCM holds code of an accepted image, at whose entry it was released (R478) -/
  loaded   : Bool := false
  /-- the engine sleeps in a WFI (R492) -/
  asleep   : Bool := false
  /-- sources pending and active when it fell asleep -/
  atWfi    : List Nat := []
  /-- the load it stalls on -/
  stall    : Option EngLoad := none
  /-- the result of a posted store that failed after its instruction, and its address (R467, R469) -/
  late     : Option (Nat × W32) := none
  deriving DecidableEq, Repr

/-- The firmware loader, the engine queues' order of service and the interrupt controller's own state. -/
structure FwSt where
  /-- the load in progress: 0 none, 1 from QSPI, 2 from `FW_IMAGE` -/
  loading : Nat := 0
  sbx     : Bool := false
  /-- what the loads go by: the minimum versions and the sandbox key slot in effect at their start (R487) -/
  minVersion : Nat := 0
  sbxMin  : Nat := 0
  keySlot : Nat := 1
  /-- the vendor image accepted -/
  image   : List Byte := []
  /-- the transmit queue that is looked at next, engine × 8 + queue (R475) -/
  txNext  : Nat := 0
  /-- conditions of the level sources that held when last looked at -/
  was     : List Nat := []
  /-- targets at which sources are active (R490) -/
  activeAt : List (Nat × Nat) := []
  /-- the host target had a deliverable source when last looked at (R489) -/
  hostLine : Bool := false
  /-- INTn is held low (R130) -/
  intLow  : Bool := false
  deriving DecidableEq, Repr
/-- Clocks (R498 to R517). -/
structure ClkSt where
  /-- domains held stopped under R512 or R513 -/
  held   : List Nat := []
  /-- the clock-fault path of R513 holds -/
  failed : Bool := false
  deriving DecidableEq, Repr
/-- A power domain's sequence (R521): the cause and detail of the wake in progress. -/
structure DomSt where
  cause  : Nat := 0
  detail : Nat := 0
  /-- the wake has been counted late (R525) -/
  late   : Bool := false
  /-- the resting state that a rest entry goes to -/
  rest   : Nat := 1
  /-- the domain has been off: a wake finds its state lost -/
  lost   : Bool := false
  deriving DecidableEq, Repr

/-- An AVSBus request (R533): a voltage write in mV, the read of Voltage of `AVS_RESTORE`, or the read of Current of the energy meter. -/
inductive AvsKind where
  | write (mv : Nat)
  | voltage
  | current
  deriving DecidableEq, Repr

/-- An AVSBus request that waits for its acknowledgement (R534). -/
structure AvsReq where
  kind  : AvsKind
  /-- the write's response is accepted; VDone is awaited -/
  acked : Bool := false
  /-- instant within which `AVS_SLEW` says a raise is acknowledged (R532) -/
  bound : Nat := 0
  deriving DecidableEq, Repr

/-- Simmer, performance levels and the energy meter (R527 to R537). -/
structure SimSt where
  req    : Option AvsReq := none
  /-- a newer target that replaces a waiting write at its repeat -/
  newer  : Option Nat := none
  /-- level that VSEL[1:0] show; both are high at reset (R32, R38) -/
  vsel   : Nat := 3
  /-- the level they showed before the last change, and its instant (R627) -/
  vselWas : Nat := 3
  vselAt  : Nat := 0
  misses : Nat := 0
  /-- targets computed: instant and mV, newest first -/
  hist   : List (Nat × Nat) := []
  /-- the sensor term, the instant of its last rise, and that of the last slow reading -/
  sensor : Nat := 0
  sensorAt : Nat := 0
  sensorSeen : Nat := 0
  /-- instant of the last read of Current -/
  curAt  : Nat := 0
  /-- a change of level under way, since when, and whether its deferral has been counted -/
  level  : Option Nat := none
  since  : Nat := 0
  deferred : Bool := false
  /-- core energy of the window, in 10^-5 µJ; transit bytes at its start; some of it was in VSEL mode -/
  enCore : Nat := 0
  enFrom : Nat := 0
  enBad  : Bool := false
  /-- `EN_CONTROL` has been written since the window ended -/
  enSeen : Bool := true
  deriving DecidableEq, Repr
/-- A message or signal of the policy engine on CC, as this hub sends it (R542). -/
inductive PdMsg where
  /-- Source_Capabilities or EPR_Source_Capabilities: power objects with their positions -/
  | sourceCaps (epr : Bool) (pdos : List (Nat × Nat))
  | request (epr : Bool) (pos ma : Nat)
  | accept | reject | psRdy | getSourceCap | softReset | hardReset | prSwap | drSwap | frSwap
  | eprEnter | eprAcknowledged | eprSucceeded | eprFailed | eprKeepAlive
  /-- Discover Identity, Discover SVIDs, Discover Modes, Enter Mode: 1 to 4 -/
  | vdm (command svid : Nat)
  | vdmNak (command svid : Nat)
  | identityAck (vid certStat product : Nat)
  | svidsAck (svid : Nat)
  | modesAck (svid vdo : Nat)
  | enterAck (svid : Nat)
  deriving DecidableEq, Repr

/-- What a port has asked for, or has waiting to ask for (R553, R562, R564, R568). -/
inductive PdAsk where
  | request | eprEnter | prSwap | drSwap | frSwap | getCaps | hardReset | discover
  deriving DecidableEq, Repr

/-- A contract: position, mV and mA. -/
structure PdPower where
  pos : Nat := 0
  mv  : Nat := 0
  ma  : Nat := 0
  deriving DecidableEq, Repr

/-- A part in a role swap (R562, R563). -/
inductive PdSwap where
  | none | oldSource | newSource | frsNewSource | frsOldSource
  deriving DecidableEq, Repr

/-- The policy engine of a trunk port (chapter 19). -/
structure PdSt where
  /-- a far source feeds the port on the Rd it presents while the Kettle does not run (R37) -/
  fed     : Bool := false
  /-- the Kettle has started on the port (R547, R660 step 5) -/
  on      : Bool := false
  /-- the power-role capability the port presents while RSTn is low (R33) -/
  cap     : Option Nat := none
  /-- the phase of a dual-role port while unattached: Rp presented -/
  rp      : Bool := false
  /-- TKn_VEN, TKn_VDIS and the converter code -/
  ven     : Bool := false
  vdis    : Bool := false
  code    : Nat := 0
  /-- Source_Capabilities sent without GoodCRC, and whether it came -/
  tries   : Nat := 0
  capsOk  : Bool := false
  /-- the objects last sent, and last received -/
  offered : List PdPower := []
  got     : List PdPower := []
  ask     : Option PdAsk := none
  /-- the contract a transition leads to -/
  next    : Option PdPower := none
  /-- the request that awaits its answer -/
  asked   : PdPower := {}
  /-- requests and commands that wait for SinkTxOK or for the end of a sequence -/
  cmds    : List PdAsk := []
  /-- capabilities to be sent after the present state -/
  newCaps : Bool := false
  /-- consecutive Waits, and whether the sink has stopped -/
  waits   : Nat := 0
  stopped : Bool := false
  /-- a contract has been made since the attach or Hard Reset -/
  made    : Bool := false
  /-- the VDM that awaits its answer, and those unanswered -/
  vdm     : Nat := 0
  silent  : Nat := 0
  swap    : PdSwap := .none
  frsArmed : Bool := false
  /-- the last message and its repeats -/
  last    : Option PdMsg := none
  retries : Nat := 0
  deriving DecidableEq, Repr
/-- A hot-swap slot: the level of its seat contact (R575). -/
structure SlotSt where
  seated : Bool := false
  deriving DecidableEq, Repr

/-- The supply feeds (R586 to R592). -/
structure FeedSt where
  /-- the sense voltage of each feed is within its range -/
  inRange : Vector Bool 2 := Vector.replicate 2 false
  /-- it has stayed there for `FEED_VALID_HOLD` -/
  ok      : Vector Bool 2 := Vector.replicate 2 false
  /-- the feed a switch under way goes to, and the instant of its decision (R588) -/
  switch  : Option (Fin 2 × Nat) := none
  /-- the feed loss of R590 persists -/
  loss    : Bool := false
  deriving DecidableEq, Repr
/-- A staged shadow value with what takes effect at its commit (R606). -/
structure Shadow where
  val   : List Byte
  attr  : Nat
  owner : Origin
  kcv   : Nat
  deriving DecidableEq, Repr

/-- One of the two MRAM records of a slot (R611, R612). `good` is false when its tag or ECC check fails. -/
structure KeyRec where
  seq    : Nat
  attr   : Nat
  val    : List Byte
  kcv    : Nat
  good   : Bool
  voided : Bool
  deriving DecidableEq, Repr

/-- A Caddy slot (R595, R599, R610, R611). The first share of the live value is the value XOR `mask`, the second is `mask`; so for the
shadow and `shadowMask`. -/
structure KeySt where
  live    : List Byte := List.replicate 32 0
  mask    : List Byte := List.replicate 32 0
  shadow  : Option Shadow := none
  shadowMask : List Byte := List.replicate 32 0
  /-- the instant of the last re-mask by time, once there is one (R600) -/
  maskedAt : Option Nat := none
  rec0    : Option KeyRec := none
  rec1    : Option KeyRec := none
  /-- the record the last commit wrote -/
  lastRec : Fin 2 := 1
  /-- a record write of a commit is running -/
  writing : Bool := false
  /-- the value that an invalidation condemned is still stored: the instant from which a boundary zeroises it (R610) -/
  condemned : Option Nat := none
  /-- the records of the slot are being voided; a new value's records wait (R610) -/
  voiding : Bool := false
  deriving DecidableEq, Repr

/-- The Caddy. -/
structure Caddy where
  slots : Vector KeySt 64 := Vector.replicate 64 {}
  /-- the key that scrambles the addresses and data of its SRAM, drawn at each release of PORn (R599) -/
  scramble : List Byte := []
  /-- key and counter block of the CTR_DRBG, once it is seeded (R602) -/
  drbg : Option (List Byte × List Byte) := none
  /-- an integrity fault since the last read of `CADDY_ATTN` (R620) -/
  integritySinceRead : Bool := false
  /-- `FW_STATE` has read 3 or 4 since the last start (R600) -/
  started : Bool := false
  deriving DecidableEq, Repr
/-- A cause reported to SM: code, detail and detection time (R625, R695). -/
structure Report where
  code   : Nat
  detail : Nat
  time   : Nat
  deriving DecidableEq, Repr

/-- Functional safety (R622 to R653). -/
structure Safety where
  /-- reports not yet taken by SM, oldest first -/
  reports : List Report := []
  /-- SM is in its restart after a hardware-path reset (R633) -/
  smRestarting : Bool := false
  /-- a hardware path taken since the last accepted reset (R651) -/
  hwTaken : Bool := false
  /-- the state SM intends for SAFE_OUT: true = asserted, released to Z -/
  outIntent : Bool := true
  /-- consecutive readback disagreements (R629) -/
  readbackMiss : Nat := 0
  /-- instant until which the readback comparison is suspended -/
  readbackAfter : Nat := 0
  /-- the start-up self-test has ended with a pass (R698) -/
  startupPassed : Bool := false
  /-- a cause began an episode during start-up (R698) -/
  episode : Bool := false
  /-- notices of the present episode have been presented (R634) -/
  noticed : Bool := false
  /-- tunnels on which a notice of the present episode arrived (R634) -/
  noticeFrom : List Nat := []
  /-- a complete periodic self-test has passed since the episode began (R638) -/
  testedSince : Bool := false
  /-- the next test of the periodic set, 1 to 9 -/
  nextTest : Nat := 1
  /-- the set that runs began in the present episode and all its tests have passed so far -/
  setClean : Bool := false
  /-- an accepted reset in state 3 reruns the start-up self-test (R638) -/
  rerun : Bool := false
  /-- causes taken while that test runs: they begin an episode after it -/
  afterReset : List Report := []
  /-- the `SS_TIMEOUT` in force for the open session, s (R648) -/
  sessionLimit : Nat := 10
  /-- instants of the uncorrectable errors counted by R628 -/
  eccTimes : List Nat := []
  /-- rails outside their window, by the order of R695 -/
  railsOut : List Nat := []
  /-- VDD_CORE did not settle on its preset (R535) -/
  unsettled : Bool := false
  /-- trunk ports lost with SC7 tunnels on them (cause 8) -/
  lostLinks : List Nat := []
  /-- domains whose wake has become a power fault (R525) -/
  powerFaults : List Nat := []
  deriving DecidableEq, Repr
/-- The instruction of the JTAG port (R48). -/
inductive JtagIr where
  | bypass | idcode | sample | extest
  deriving DecidableEq, Repr

/-- The start-up sequence, the straps, the JTAG port and the temperature sensors (R42 to R48, R660, R670, R688). -/
structure BootSt where
  /-- instant of the last release of PORn or RSTn -/
  since    : Nat := 0
  /-- a start runs or has run since the machine's start -/
  started  : Bool := false
  /-- the cause of the start that waits for the straps -/
  cause    : Nat := 1
  /-- the clocks have been started since PORn (R659, R660) -/
  clocked  : Bool := false
  /-- TESTEN was high at the last release of PORn (R47) -/
  factory  : Bool := false
  /-- straps are being sampled; the samples, oldest first -/
  sampling : Bool := false
  samples  : List (BitVec 7) := []
  /-- settings that came from the store image in place of a default that depends on the role -/
  roleKept : Bool := false
  capKept  : Bool := false
  pcieKept : Bool := false
  /-- AXL is held on until motion first runs (R666) -/
  axlHold  : Bool := false
  /-- the start-up self-test has ended -/
  tested   : Bool := false
  /-- the JTAG instruction and the values held in the boundary-scan chain -/
  jtag     : JtagIr := .bypass
  chain    : List Bool := []
  /-- TJ_HIGH has been raised and the reading has not fallen 5 °C since; a sample since the last read of `TJ_PEAK` -/
  tjHigh   : Bool := false
  tjSeen   : Bool := false
  deriving DecidableEq, Repr


/-- The timed events of the hub, each named by its rule. -/
inductive Timer where
  /-- R72, 100 ms from the first staged write of the group with this leader -/
  | groupExpire (leader : Nat)
  /-- R82, 1 s without an owner access -/
  | segExpire (ch : Fin 4)
  /-- R101, a forwarded HOP transaction -/
  | hopFwd (id : Nat)
  /-- R99, the next periodic notification of a subscription -/
  | hopNotify (id : Nat)
  /-- R121, 20 µs without a hit of a window's prefetch buffer -/
  | prefetchIdle (w : Fin 16)
  /-- R116, the result of a remote access -/
  | remoteAcc (id : Nat)
  /-- R200 to R202, the bound of the training step in progress -/
  | trainStep (p : Port)
  /-- R663, the wait for a path since release -/
  | pathWait
  /-- R213, the wait before training again -/
  | backoff (p : Port)
  /-- R697, the end of a single-lane retraining -/
  | laneRetrain (p : Port) (l : Lane)
  /-- R158, 1.0 µs after the boundary for a lane in DARK or waking -/
  | turnaround (p : Port) (l : Lane)
  /-- R157, R159, steps 2 and 3 at a lane that turns -/
  | turnStep (p : Port) (l : Lane)
  /-- R157, R185, the joining marker of a lane this end transmits on -/
  | joinAt (p : Port) (l : Lane)
  /-- R171, 1 s after the last symbol returned in a far-end loop -/
  | farLoop (p : Port)
  /-- R173, the end of a grid point's dwell -/
  | eyePoint (p : Port) (l : Lane)
  /-- R219, the root end's epoch control cell, 50 µs after the boundary -/
  | rootSend (p : Port)
  /-- R228, the leaf report's bound, 5 µs after the boundary -/
  | reportBound (p : Port)
  /-- R227, the planner's deadline -/
  | planDeadline (p : Port)
  /-- R327, the completion of a tracked transaction -/
  | npTimeout (id : Nat)
  /-- R349, `STR_FE_TIMEOUT` after FS -/
  | feTimeout (st : Fin 16)
  /-- R354, 10 µs after the commit of a trigger group -/
  | trigApply (t : Fin 8)
  /-- R355, the end of a trigger pulse -/
  | trigEnd (t : Fin 8)
  /-- R372, the opening of the next commit window -/
  | window (p : Fin 2)
  /-- R374, the end of a plane's carry -/
  | carry (q : Fin 4)
  /-- R381, 200 ms for HPD after VDDEN -/
  | edpHpd
  /-- R381, `EDP_T_BL` -/
  | edpBacklight
  /-- R399, the time exchange cell of the epoch -/
  | exchange (p : Port)
  /-- R401, the limit without an accepted sample -/
  | servoSample
  /-- R401, `SV_HOLDOVER_LIMIT` -/
  | servoHold
  /-- R406, the end of the PPS_OUT pulse -/
  | ppsEnd
  /-- R667, 1 ms of En_PHYRSTn low -/
  | phyReset (e : Fin 2)
  /-- R447, `GPIO_REPORT_PERIOD` without a report -/
  | gpioReport
  /-- R452, the next run of a poll slot -/
  | poll (i : Fin 24)
  /-- R454, `UART_IDLE` character times -/
  | uartIdle (n : Fin 4)
  /-- R463, 5 ms after suspend entry, and the end of the K -/
  | wakeStart
  | wakeEnd
  /-- R484, R486, an engine's watchdog -/
  | wdog (e : Engine)
  /-- R504, 64 cycles of a domain at a divider -/
  | divRamp (d : Domain)
  /-- R512, 200 µs from a trip for RC to qualify -/
  | rcQual
  /-- R508, the next trim window of RC -/
  | rcTrim
  /-- R511, 10 ms without REFCLK -/
  | refSteer
  /-- R518, the wake bound of a domain -/
  | wakeBound (d : Domain)
  /-- R520, `PD_IDLE_TIMEOUT` of a domain without a need -/
  | idle (d : Domain)
  /-- R524, the scheduled wake of a domain -/
  | sched (d : Domain)
  /-- R534, 100 µs for the acknowledgement of an AVSBus request -/
  | avsAck | avsRepeat
  /-- R535, 1 ms after the fallback -/
  | vcoreSettle
  /-- R537, the end of the metering window -/
  | enWindow
  /-- R547, the next alternation of an unattached dual-role port -/
  | drp (p : Fin 2)
  /-- R550, the next Source_Capabilities -/
  | pdCaps (p : Fin 2)
  /-- R556, the converter code 27 ms after Accept -/
  | pdCode (p : Fin 2)
  /-- R556, VBUS settled within 400 ms of the code -/
  | vbusSettle (p : Fin 2)
  /-- R556, the sink's bound for PS_RDY -/
  | pdRdy (p : Fin 2)
  /-- R556 step 6 -/
  | pdStable (p : Fin 2)
  /-- R558, `PD_WAIT_RETRY` -/
  | pdWait (p : Fin 2)
  /-- R555, the next EPR_KeepAlive -/
  | keepAlive (p : Fin 2)
  /-- R567, 0.7 s after Hard Reset -/
  | reclose (p : Fin 2)
  /-- R575, the 20 ms debounce of a slot -/
  | seat (n : Fin 8)
  /-- R575, `SLOT_RAMP_MAX` in state 4 -/
  | ramp (n : Fin 8)
  /-- R581, the retry timer of a slot -/
  | slotRetry (n : Fin 8)
  /-- R583, `SLOT_GOOD_TIME` in state 5 -/
  | goodTime (n : Fin 8)
  /-- R586, `FEED_VALID_HOLD` of a feed -/
  | feedHold (f : Fin 2)
  /-- R587, `FEED_RETURN_HOLD` of the feed of higher priority -/
  | feedReturn
  /-- R607, 100 ms from the staging of a slot -/
  | keyStage (k : KeySlot)
  /-- R611, the MRAM record write of a commit -/
  | keyRecord (k : KeySlot)
  /-- R610, the voiding of a slot's records -/
  | keyVoid (k : KeySlot)
  /-- R601, the next integrity check of every VALID slot -/
  | keyCheck
  /-- R602, the next reseed -/
  | reseed
  /-- R643, `SS_TIMEOUT` without an accepted frame of the session's slot -/
  | sessionTimeout
  /-- R633, the end of SM's restart -/
  | smRestart
  /-- R638, the start-up self-test that a reset in state 3 reruns -/
  | retest
  /-- R42, the next strap sample -/
  | strap
  deriving DecidableEq, Repr

/-- What a command puts on the outputs of the hub. -/
inductive Out where
  /-- the result code of an access (R76) -/
  | result (o : Origin) (code : Nat)
  /-- the result and value of a read -/
  | data (o : Origin) (code val : Nat)
  /-- the bytes a read of an OCTETS value returns -/
  | octets (o : Origin) (code : Nat) (bs : List Byte)
  /-- a HOP frame sent on a trunk port -/
  | hopTrunk (p : Port) (frame : List Byte)
  /-- a HOP frame sent over UDP on E0 or E1 -/
  | hopUdp (eth : Fin 2) (ip : W32) (port : W16) (via : W32) (frame : List Byte)
  /-- completion of a PCIe read at the management function: 0 success, 1 unsupported request, 2 completer abort -/
  | pcieCpl (status : Fin 3) (data : W32)
  /-- bytes the management port returns (R128, R129) -/
  | mpReturn (bytes : List Byte)
  /-- SCL of the management port held low, or released (R129) -/
  | mpStretch (on : Bool)
  /-- the management port does not acknowledge an I2C transfer -/
  | mpNack
  /-- a remote bridge request cell toward the hub of a path, in SC0 or SC3 (R112): its number, origin kind, write, bytes, prefetch -/
  | bridgeReq (path : W64) (sc3 : Bool) (id : Nat) (mp write : Bool) (target off n : Nat) (data : W32) (fill : Bool)
  /-- the result of a remote bridge request, returned to the requesting hub -/
  | bridgeResult (unit : W64) (id : Nat) (code : Nat) (data : W32)
  /-- an MSI-X vector of the management function -/
  | msix (vector : Nat) (ecrc : Bool)
  /-- an interrupt message cell to the cabinet root in SC3 (R131) -/
  | irqMessage
  /-- a hub-side non-posted request issued again, by the number of its tracked entry (R124) -/
  | npReissue (id : Nat)
  /-- a training frame sent on a lane -/
  | trainFrame (p : Port) (l : Lane) (frame : List Byte)
  /-- the offset sampler of a lane is placed: phase in 1/64 UI and voltage in mV (R172) -/
  | eyeSampler (p : Port) (l : Lane) (phase mv : Int)
  /-- a burst of the pattern in `TK_PATTERN` between training frames, in UI (R199) -/
  | trainPattern (p : Port) (l : Lane) (pattern ui : Nat)
  /-- line symbols of a codeword or an alignment marker on a lane (R135, R180, R183) -/
  | line (p : Port) (l : Lane) (symbols : List (Fin 4))
  /-- a cell put in a slot of a lane of a trunk port -/
  | trunkCell (p : Port) (l : Lane) (hdr body : List Byte)
  /-- a cell handed to an attachment that is not a trunk -/
  | cell (egress : Nat) (tun chan : Nat) (hdr body : List Byte)
  /-- a posted memory write into host memory, with ECRC or without (R309) -/
  | hostWrite (addr : W64) (bs : List Byte) (ecrc : Bool)
  /-- a memory read of host memory asked for by a DMA channel -/
  | hostRead (ch : Fin 64) (desc : Bool) (addr : W64) (len : Nat) (ecrc : Bool)
  /-- a TLP issued at a PCIe port -/
  | tlp (port : Fin 2) (bytes : List Byte)
  /-- a completion without data the hub issues: requester, tag, TC, status 0 SC, 1 UR or 2 CA -/
  | cpl (port : Fin 2) (req tag : W16) (tc : Fin 8) (status : Nat) (ecrc : Bool)
  /-- the reference of an upstream port: the tracked trunk clock, or REFCLK (R311) -/
  | pcieRef (port : Fin 2) (tracked : Bool)
  /-- a reset applied or released at a root port, by the code of R320 byte 5 -/
  | pcieReset (port : Fin 2) (code : Nat)
  /-- a hot-plug signal of a downstream bridge function: device, presence, link active -/
  | hotPlug (dev : Nat) (present active : Bool)
  /-- the reference clock of a root port starts or stops (R312) -/
  | pcieClock (port : Fin 2) (on : Bool)
  /-- a completion with the data of a configuration register the hub holds -/
  | cplData (port : Fin 2) (req tag : W16) (tc : Fin 8) (data : W32) (ecrc : Bool)
  /-- an INTx message of a downstream bridge function: device, asserted -/
  | intx (dev : Nat) (on : Bool)
  /-- the level of a CAMTRIG ball -/
  | camtrig (t : Fin 8) (level : Bool)
  /-- a CSI-2 receiver: off, or on with its lane count code, lane map and inversions (R341) -/
  | csiRx (c : Nat) (on : Option (Nat × Nat × Nat))
  /-- the active rows of a frame a display port sends: frame number, and each row sent with its pixels (R362, R378) -/
  | dispFrame (p : Fin 2) (n : Nat) (rows : List (Nat × List Pixel))
  /-- black from a pixel of a line to the line's end (R366) -/
  | dispBlack (p : Fin 2) (line x : Nat)
  /-- the main link of a display port goes to sleep or wakes, with fast link training or without (R377, R379) -/
  | mainLink (p : Fin 2) (on fast : Bool)
  /-- the panel controls D0_VDDEN and D0_BLEN (R381) -/
  | panel (vdden blen : Bool)
  /-- a read of the sink over AUX: its capabilities with EDID and DisplayID, or its link status (R359, R360) -/
  | auxRead (p : Fin 2) (caps : Bool)
  /-- an Ethernet frame sent on E0 or E1, FCS included -/
  | ethFrame (e : Fin 2) (frame : List Byte)
  /-- an MDIO frame started, with the value of `MDIO_CMD` -/
  | mdio (e : Fin 2) (cmd : W32)
  /-- the level of PPS_OUT -/
  | ppsOut (level : Bool)
  /-- En_PHYRSTn driven low for 1 ms -/
  | phyReset (e : Fin 2)
  /-- a frame on an axis link, scrambled from its seventh byte on (R412) -/
  | axl (n : Fin 8) (frame : List Byte)
  /-- the internal termination of every axis link switched (R679) -/
  | axlTerm (on : Bool)
  /-- levels, directions and pulls of the GPIO pins -/
  | gpio (out dir pullEn pullUp : W32)
  /-- a list started on an I2C (0 to 3) or SPI (4, 5) bus at a clock of so many kHz, with the longest stretch in ms or the SPI mode; a failed
  list ended with STOP, or CS deasserted -/
  | busList (m : Fin 6) (khz setting : Nat) (list : List Byte)
  | busStop (m : Fin 6)
  /-- a character started on a UART at its rate and format, and the state of its RTSn -/
  | uartTx (n : Fin 4) (b : Byte) (baud format : Nat)
  | uartRts (n : Fin 4) (asserted : Bool)
  /-- power of a USB port -/
  | usbPower (port : Fin 3) (on : Bool)
  /-- a message in the USB tunnel -/
  | usbTunnel (m : UsbMsg)
  /-- a transaction from the USB tunnel on this hub's tree -/
  | usbTree (key : W16) (bytes : List Byte)
  /-- a handshake and data to the USB host: NAK, ACK or data -/
  | usbNak
  | usbStall
  | usbAck
  | usbData (bytes : List Byte)
  /-- the device function drives K, or releases the line -/
  | usbWake (on : Bool)
  /-- a HOP frame that waits on EP1 IN of the device function -/
  | hopUsb (frame : List Byte)
  /-- the level of INTn -/
  | intn (low : Bool)
  /-- quad I/O fast read of the loader on QSPI: command, 3-byte address with its mode byte, dummy cycles, and the clock in MHz (R684) -/
  | qspiRead (command addr mode dummies mhz : Nat)
  /-- a request of an engine below a root port: configuration or memory space, write or read, address, bytes and data (R466, R469) -/
  | rootPort (port : Fin 2) (cfg write : Bool) (addr : W64) (n : Nat) (data : W32)
  /-- an AVSBus request's frame, and a Status read -/
  | avs (kind : AvsKind)
  | avsStatus
  /-- AVS_CLK held low and VSEL[1:0] driven to a level -/
  | vsel (level : Nat)
  /-- a message of the policy engine on CC -/
  | pdMsg (p : Nat) (m : PdMsg)
  /-- the Fast Role Swap signal, driven for 90 µs -/
  | frs (p : Nat)
  /-- SAFE_OUT: asserted (released to Z) or driven low -/
  | safeOut (asserted : Bool)
  /-- balls that take a new level as a reset or the loss of a supply begins (R32, R33) -/
  | balls (moved : List (Ball × BallLevel))
  /-- what the TAP does: the IDCODE it returns, the levels captured by the boundary-scan chain, and the balls driven from its cells -/
  | tap (idcode : Option Nat) (captured : List Bool) (driven : List (Ball × Bool))
  deriving DecidableEq, Repr

/-- Everything of the hub but the queue of commands; the field defaults are the values after reset. -/
structure Hub where
  /-- the object dictionary's values (R53), canonical over the defaults; key + 2^24 holds the value in effect of a deferred object -/
  objs    : Overlay Nat := ⟨[], []⟩
  /-- the byte memories: LPDDR5X, shared SRAM, engine TCMs -/
  mem     : Overlay Byte := ⟨[], []⟩
  /-- values of the OCTETS and DOMAIN objects, those that are not empty -/
  octs    : List (Nat × List Byte) := []
  /-- values accepted or committed that wait for their unit of work (R57) -/
  waiting : List Waiting := []
  /-- writes and committed groups held for domains that are not on (R60) -/
  heldActs : List Held := []
  /-- commit groups staged (R69 to R73) -/
  staged  : List Staged := []
  /-- per-origin snapshots, held words, descriptor targets and time latches -/
  origins : List (Origin × OriginSt) := []
  /-- segmented-transfer channels -/
  seg     : Vector SegCh 4 := Vector.replicate 4 {}
  /-- store images and life counters -/
  mram    : Mram := {}
  /-- the store command running -/
  storeRun : StoreRun := .idle
  /-- what holds the hub in reset -/
  hold    : Hold := .run
  /-- nanoseconds of hub time since the model's start -/
  now     : Nat := 0
  /-- the timed events that are due later, with their instants -/
  timers  : List (Timer × Nat) := []
  /-- what the last command put on the hub's outputs, oldest first -/
  out     : List Out := []
  /-- the model's own counter of free values used -/
  freeCtr : Nat := 0
  /-- the network-time counter of R693 and R394, in units of a quarter of 10^-9 ns -/
  netTime : Nat := 0
  /-- the counter runs: TPLL has locked since PORn (R693) -/
  netRuns : Bool := false
  /-- the Hertal Object Protocol -/
  hop     : HopSt := {}
  /-- the host bridge -/
  bridge  : Bridge := {}
  /-- link layers of TK0 and TK1 -/
  links   : Vector LinkSt 2 := Vector.replicate 2 {}
  /-- HOP frames received and not handled yet: where from, and the frame -/
  hopIn   : List (HopSrc × List Byte) := []
  /-- PATH_WAIT has passed since the last release (R663) -/
  pathOver : Bool := false
  /-- the switch core -/
  core    : CoreSt := {}
  /-- DMA channels -/
  dma     : Vector DmaCh 64 := Vector.replicate 64 {}
  /-- PCIe ports, switch and tracking -/
  pcie    : PcieSt := {}
  /-- frames open on the camera streams -/
  cam     : Vector (Option CamFrame) 16 := Vector.replicate 16 none
  /-- camera triggers -/
  trig    : Vector TrigSt 8 := Vector.replicate 8 {}
  /-- display ports and their planes, plane k of Dp at 2p + k -/
  disp    : Vector DispPort 2 := Vector.replicate 2 {}
  planes  : Vector PlaneSt 4 := Vector.replicate 4 {}
  /-- MACs of E0 and E1 -/
  eth     : Vector MacSt 2 := Vector.replicate 2 {}
  /-- network time and its servo -/
  net     : NetSt := {}
  /-- time exchange of TK0 and TK1 -/
  xchg    : Vector XchgSt 2 := Vector.replicate 2 {}
  /-- axis links AX0 to AX7 -/
  axl     : Vector AxlSt 8 := Vector.replicate 8 {}
  /-- motion engine -/
  mot     : MotSt := {}
  /-- peripheral blocks -/
  gpio    : GpioSt := {}
  masters : Vector MasterSt 6 := Vector.replicate 6 {}
  uarts   : Vector UartSt 4 := Vector.replicate 4 {}
  usb     : UsbSt := {}
  /-- Steep engines -/
  engs    : Vector EngSt 12 := Vector.replicate 12 {}
  /-- firmware loader and interrupt controller -/
  fw      : FwSt := {}
  /-- clocks -/
  clk     : ClkSt := {}
  /-- power domains -/
  doms    : Vector DomSt 25 := Vector.replicate 25 {}
  /-- Simmer, performance levels, energy meter -/
  sim     : SimSt := {}
  /-- power negotiation, one engine per trunk port -/
  pd      : Vector PdSt 2 := Vector.replicate 2 {}
  /-- hot-swap slots -/
  slots   : Vector SlotSt 8 := Vector.replicate 8 {}
  /-- supply feeds -/
  feeds   : FeedSt := {}
  /-- the Caddy key store -/
  caddy   : Caddy := {}
  /-- functional safety -/
  safety  : Safety := {}
  /-- start-up, straps, JTAG, temperature -/
  boot    : BootSt := {}
  deriving DecidableEq, Repr

/-- The machine: the hub and the commands that wait, first in, first out. -/
structure State where
  hub     : Hub := {}
  pending : List Instr := []
  deriving DecidableEq, Repr

/-- Reasons the machine stops with a fault: none. Every behaviour the spec describes has a next state. -/
inductive Fault where
  /-- Never raised by any command; it keeps the type inhabited. Safe: a machine that does not stop. -/
  | none
  deriving DecidableEq, Repr

/-- Reasons a command has no meaning. -/
inductive Refusal where
  /-- The command's meaning is not modelled yet. Raised by Dispatch only. Safe: the machine stops. -/
  | notModelled (mnemonic : String)
  deriving DecidableEq, Repr

/-- The machine right after reset: every object at its default, memory unlisted, no command waiting (R61, R660). -/
def State.reset : State := {}

end Sys2Proof.Machine
end

