-- ==== Sys2Proof/Machine/Objects.lean ====
section
/-! DEFINITION. The object dictionary of R53 to R56: one row for every object the spec's object tables list, with its
index, subindex, type, access code, default, attributes P and S, the bits it keeps (R10), the range R59 checks and the
unit of work at which an accepted write takes effect (R57). A key is 256 × index + subindex. -/

set_option linter.unusedVariables false

namespace Sys2Proof.Machine

namespace Obj

abbrev VENDOR_CODE : Nat := 0x100001
abbrev PART_NUMBER : Nat := 0x100002
abbrev STEPPING : Nat := 0x100003
abbrev UNIT_ID : Nat := 0x100004
abbrev PACKAGE_CODE : Nat := 0x100006
abbrev TEMP_GRADE : Nat := 0x100007
abbrev FW_VERSION : Nat := 0x100008
abbrev NODE_ROLE : Nat := 0x110001
abbrev ROLE_ACTIVE : Nat := 0x110002
abbrev TRUNK_DEPTH : Nat := 0x110003
abbrev ROOT_UNIT_ID : Nat := 0x110004
abbrev TRUNK_END : Nat := 0x110006
abbrev DUAL_ATTACHED : Nat := 0x110007
abbrev TOPO_EVENT : Nat := 0x110008
abbrev STRAP_VALUE : Nat := 0x100009
abbrev STORE_CMD : Nat := 0x120501
abbrev RESTORE_CMD : Nat := 0x120502
abbrev STORE_STATUS : Nat := 0x120503
abbrev STORE_COUNT : Nat := 0x120504
abbrev EVENT_LAST : Nat := 0x120301
abbrev EVENT_COUNT : Nat := 0x120302
abbrev GROUP_COMMIT : Nat := 0x120201
abbrev GROUP_ABORT : Nat := 0x120202
abbrev GROUPS_STAGED : Nat := 0x120203
abbrev DESC_TARGET : Nat := 0x120401
abbrev DESC_INFO : Nat := 0x120402
abbrev DESC_DEFAULT : Nat := 0x120404
abbrev DESC_GROUP : Nat := 0x120406
abbrev SEG_TARGET (i : Nat) : Nat := 256 * (0x1210 + i) + 0x1
abbrev SEG_OFFSET (i : Nat) : Nat := 256 * (0x1210 + i) + 0x2
abbrev SEG_LENGTH (i : Nat) : Nat := 256 * (0x1210 + i) + 0x3
abbrev SEG_CONTROL (i : Nat) : Nat := 256 * (0x1210 + i) + 0x4
abbrev SEG_STATUS (i : Nat) : Nat := 256 * (0x1210 + i) + 0x5
abbrev SEG_DATA (i s : Nat) : Nat := 256 * (0x1210 + i) + 0x10 + s
abbrev COMPOSITE_ENABLE : Nat := 0x110009
/-- Subindex 0 of the member table, as events name it (R68). -/
abbrev MEMBER_TABLE : Nat := 0x111000
abbrev MEMBER_UNIT_ID (s : Nat) : Nat := 0x111002 + 2 * s
abbrev MEMBER_PATH (s : Nat) : Nat := 0x111102 + 2 * s
abbrev HOP_ENABLE : Nat := 0x120001
abbrev HOP_UDP_PORT : Nat := 0x120002
abbrev HOP_IPV4_ADDR : Nat := 0x120003
abbrev HOP_IPV4_MASK : Nat := 0x120004
abbrev HOP_IPV4_GW : Nat := 0x120005
abbrev HOP_ALLOW_OPEN : Nat := 0x120006
abbrev HOP_FWD_TIMEOUT : Nat := 0x120007
abbrev HOP_SLOT_MASK : Nat := 0x120008
abbrev HOP_RX_LOCAL : Nat := 0x901001
abbrev HOP_FORWARDED : Nat := 0x901002
abbrev HOP_DROP_TAG : Nat := 0x901003
abbrev HOP_DROP_REPLAY : Nat := 0x901004
abbrev HOP_DROP_FORMAT : Nat := 0x901005
abbrev HOP_DROP_SLOT : Nat := 0x901006
abbrev HOP_DROP_BUSY : Nat := 0x901007
abbrev HOP_LATE_RESPONSE : Nat := 0x901008
abbrev HOP_RESENT : Nat := 0x901009
abbrev WIN_BASE (i : Nat) : Nat := 256 * (0x2510 + i) + 0x1
abbrev WIN_SIZE (i : Nat) : Nat := 256 * (0x2510 + i) + 0x2
abbrev WIN_TARGET (i : Nat) : Nat := 256 * (0x2510 + i) + 0x3
abbrev WIN_PATH (i : Nat) : Nat := 256 * (0x2510 + i) + 0x4
abbrev WIN_OFFSET (i : Nat) : Nat := 256 * (0x2510 + i) + 0x6
abbrev WIN_FLAGS (i : Nat) : Nat := 256 * (0x2510 + i) + 0x7
abbrev WIN_TIMEOUT (i : Nat) : Nat := 256 * (0x2510 + i) + 0x8
abbrev WIN_HITS (i : Nat) : Nat := 256 * (0x2510 + i) + 0x9
abbrev ERRLOG (s : Nat) : Nat := 0x902101 + s
abbrev ERRLOG_COUNT : Nat := 0x902121
abbrev ERRLOG_NEXT : Nat := 0x902122
abbrev DISCARD_LOG (s : Nat) : Nat := 0x902001 + s
abbrev DISCARD_COUNT : Nat := 0x902021
abbrev REMOTE_ALLOW : Nat := 0x250001
abbrev HOST_IRQ_ROUTE : Nat := 0x250002
abbrev SB_POLL_PERIOD : Nat := 0x250003
abbrev SB_SUMMARY : Nat := 0x250004
abbrev SB_LOST : Nat := 0x250005
abbrev NP_RETRY : Nat := 0x250006
abbrev TK_RATES_ALLOWED (p : Nat) : Nat := 256 * (0x3000 + 0x100 * p) + 0x1
abbrev TK_RATE (p : Nat) : Nat := 256 * (0x3000 + 0x100 * p) + 0x2
abbrev TK_REF_SOURCE (p : Nat) : Nat := 256 * (0x3000 + 0x100 * p) + 0x3
abbrev TK_REF_LOCK (p : Nat) : Nat := 256 * (0x3000 + 0x100 * p) + 0x4
abbrev TK_SSC_MEASURED (p : Nat) : Nat := 256 * (0x3000 + 0x100 * p) + 0x5
abbrev TK_TEST_MODE (p : Nat) : Nat := 256 * (0x3000 + 0x100 * p) + 0x6
abbrev TK_PATTERN (p : Nat) : Nat := 256 * (0x3000 + 0x100 * p) + 0x7
abbrev TK_FAR_LOOP_ALLOW (p : Nat) : Nat := 256 * (0x3000 + 0x100 * p) + 0x8
abbrev TK_CHANNEL_CLASS (p : Nat) : Nat := 256 * (0x3000 + 0x100 * p) + 0x9
abbrev LANE_STATE (p i : Nat) : Nat := 256 * (0x3010 + 0x100 * p + i) + 0x1
abbrev LANE_DIR (p i : Nat) : Nat := 256 * (0x3010 + 0x100 * p + i) + 0x2
abbrev FFE_AWAY (p i : Nat) : Nat := 256 * (0x3010 + 0x100 * p + i) + 0x3
abbrev CTLE_AWAY (p i : Nat) : Nat := 256 * (0x3010 + 0x100 * p + i) + 0x4
abbrev DFE1_AWAY (p i : Nat) : Nat := 256 * (0x3010 + 0x100 * p + i) + 0x5
abbrev DFE2_AWAY (p i : Nat) : Nat := 256 * (0x3010 + 0x100 * p + i) + 0x6
abbrev DFE3_AWAY (p i : Nat) : Nat := 256 * (0x3010 + 0x100 * p + i) + 0x7
abbrev SLICE_AWAY (p i : Nat) : Nat := 256 * (0x3010 + 0x100 * p + i) + 0x8
abbrev SKEW_AWAY (p i : Nat) : Nat := 256 * (0x3010 + 0x100 * p + i) + 0xF
abbrev SKEW_TOWARD (p i : Nat) : Nat := 256 * (0x3010 + 0x100 * p + i) + 0x10
abbrev LANE_ADAPT (p i : Nat) : Nat := 256 * (0x3010 + 0x100 * p + i) + 0x11
abbrev TURNS (i : Nat) : Nat := 256 * (0x9030 + i) + 0x1
abbrev TURN_FAIL (i : Nat) : Nat := 256 * (0x9030 + i) + 0x2
abbrev QUIET_ENTRIES (i : Nat) : Nat := 256 * (0x9030 + i) + 0x3
abbrev ALIGN_SLIPS (i : Nat) : Nat := 256 * (0x9030 + i) + 0x4
abbrev TST_ERRORS (p i : Nat) : Nat := 256 * (0x3020 + 0x100 * p + i) + 0x1
abbrev TST_BITS (p i : Nat) : Nat := 256 * (0x3020 + 0x100 * p + i) + 0x2
abbrev TST_STATUS (p i : Nat) : Nat := 256 * (0x3020 + 0x100 * p + i) + 0x4
abbrev TST_CONTROL (p i : Nat) : Nat := 256 * (0x3020 + 0x100 * p + i) + 0x5
abbrev EYE_CONTROL (p i : Nat) : Nat := 256 * (0x3020 + 0x100 * p + i) + 0x6
abbrev EYE_DWELL (p i : Nat) : Nat := 256 * (0x3020 + 0x100 * p + i) + 0x7
abbrev EYE_STATUS (p i : Nat) : Nat := 256 * (0x3020 + 0x100 * p + i) + 0x8
abbrev EYE_POINTS (p i : Nat) : Nat := 256 * (0x3020 + 0x100 * p + i) + 0x9
abbrev EYE_DATA (i : Nat) : Nat := 256 * (0x9040 + i) + 0x1
abbrev LINK_STATE (p : Nat) : Nat := 256 * (0x3040 + 0x100 * p) + 0x1
abbrev LINK_FAULT (p : Nat) : Nat := 256 * (0x3040 + 0x100 * p) + 0x2
abbrev LINK_UPS (p : Nat) : Nat := 256 * (0x3040 + 0x100 * p) + 0x3
abbrev LINK_DOWNS (p : Nat) : Nat := 256 * (0x3040 + 0x100 * p) + 0x4
abbrev LINK_DOWN_CAUSE (p : Nat) : Nat := 256 * (0x3040 + 0x100 * p) + 0x5
abbrev RETRAIN_CMD (p : Nat) : Nat := 256 * (0x3040 + 0x100 * p) + 0x6
abbrev BACKOFF_MAX (p : Nat) : Nat := 256 * (0x3040 + 0x100 * p) + 0x7
abbrev LINK_UP_TIME (p : Nat) : Nat := 256 * (0x3040 + 0x100 * p) + 0x8
abbrev FAR_UNIT_ID (p : Nat) : Nat := 256 * (0x3040 + 0x100 * p) + 0xA
abbrev LINK_KEY_SLOT (p : Nat) : Nat := 256 * (0x3041 + 0x100 * p) + 0x1
abbrev ENC_CLASSES (p : Nat) : Nat := 256 * (0x3041 + 0x100 * p) + 0x2
abbrev KEY_PHASE (p : Nat) : Nat := 256 * (0x3041 + 0x100 * p) + 0x3
abbrev KEY_STATE (p : Nat) : Nat := 256 * (0x3041 + 0x100 * p) + 0x4
abbrev PHASE_CHANGE (p : Nat) : Nat := 256 * (0x3041 + 0x100 * p) + 0x5
abbrev PHASE_INTERVAL (p : Nat) : Nat := 256 * (0x3041 + 0x100 * p) + 0x6
abbrev LINK_EPOCH_COUNT (p : Nat) : Nat := 256 * (0x3041 + 0x100 * p) + 0x7
abbrev C_PAIR (p i : Nat) : Nat := 256 * (0x3030 + 0x100 * p + i) + 0x1
abbrev D_AWAY (p i : Nat) : Nat := 256 * (0x3030 + 0x100 * p + i) + 0x2
abbrev D_TOWARD (p i : Nat) : Nat := 256 * (0x3030 + 0x100 * p + i) + 0x3
abbrev CW_TOTAL (i : Nat) : Nat := 256 * (0x9050 + i) + 0x1
abbrev CW_CORRECTED (i : Nat) : Nat := 256 * (0x9050 + i) + 0x3
abbrev SYM_CORRECTED (i : Nat) : Nat := 256 * (0x9050 + i) + 0x4
abbrev CW_UNCORRECTABLE (i : Nat) : Nat := 256 * (0x9050 + i) + 0x5
abbrev CELL_HDR_CRC (i : Nat) : Nat := 256 * (0x9050 + i) + 0x6
abbrev FEC_HIST (i s : Nat) : Nat := 256 * (0x9050 + i) + 0x10 + s
abbrev CELLS_RX (i : Nat) : Nat := 256 * (0x9058 + i) + 0x1
abbrev CELLS_DROP_CW (i : Nat) : Nat := 256 * (0x9058 + i) + 0x3
abbrev SEQ_GAPS (i : Nat) : Nat := 256 * (0x9058 + i) + 0x4
abbrev AUTH_FAIL (i : Nat) : Nat := 256 * (0x9058 + i) + 0x5
abbrev CELL_FORMAT (i : Nat) : Nat := 256 * (0x9058 + i) + 0x6
abbrev PLAN_ENGINE : Nat := 0x320001
abbrev PLAN_DEADLINE : Nat := 0x320002
abbrev ALLOT_MODE (i : Nat) : Nat := 256 * (0x3202 + i) + 0x1
abbrev ALLOT_FIXED (i : Nat) : Nat := 256 * (0x3202 + i) + 0x2
abbrev ALLOT_PERMIT (i : Nat) : Nat := 256 * (0x3202 + i) + 0x3
abbrev ALLOT_INITIAL (i : Nat) : Nat := 256 * (0x3202 + i) + 0x4
abbrev PLAN_HEADROOM (i : Nat) : Nat := 256 * (0x3202 + i) + 0x5
abbrev PLAN_DOWN_HOLD (i : Nat) : Nat := 256 * (0x3202 + i) + 0x6
abbrev ALLOT_CURRENT (i : Nat) : Nat := 256 * (0x3204 + i) + 0x1
abbrev ALLOT_SINCE (i : Nat) : Nat := 256 * (0x3204 + i) + 0x2
abbrev PAYLOAD_AWAY (i : Nat) : Nat := 256 * (0x3204 + i) + 0x3
abbrev PAYLOAD_TOWARD (i : Nat) : Nat := 256 * (0x3204 + i) + 0x4
abbrev ALLOT_USABLE (i : Nat) : Nat := 256 * (0x3204 + i) + 0x5
abbrev FAR_PERMIT (i : Nat) : Nat := 256 * (0x3204 + i) + 0x6
abbrev ALLOT_NEXT (i : Nat) : Nat := 256 * (0x3204 + i) + 0x7
abbrev ALLOT_AFTER (i : Nat) : Nat := 256 * (0x3204 + i) + 0x8
abbrev DOWN_COUNT (i : Nat) : Nat := 256 * (0x3204 + i) + 0x9
abbrev PLAN_CHOICE (i : Nat) : Nat := 256 * (0x3204 + i) + 0xA
abbrev OCC_LOCAL (i s : Nat) : Nat := 256 * (0x3208 + i) + 0x1 + s
abbrev OCC_FAR (i s : Nat) : Nat := 256 * (0x3208 + i) + 0x9 + s
abbrev ENQ_LOCAL (i s : Nat) : Nat := 256 * (0x3208 + i) + 0x11 + s
abbrev ENQ_FAR (i s : Nat) : Nat := 256 * (0x3208 + i) + 0x19 + s
abbrev SWAP_CMD (i : Nat) : Nat := 256 * (0x3206 + i) + 0x1
abbrev SWAP_AUTO (i : Nat) : Nat := 256 * (0x3206 + i) + 0x2
abbrev SWAP_HOLD (i : Nat) : Nat := 256 * (0x3206 + i) + 0x3
abbrev SWAP_STATE (i : Nat) : Nat := 256 * (0x3206 + i) + 0x4
abbrev SWAP_RESULT (i : Nat) : Nat := 256 * (0x3206 + i) + 0x5
abbrev SWAP_REASON (i : Nat) : Nat := 256 * (0x3206 + i) + 0x6
abbrev SWAP_BOUNDARY (i : Nat) : Nat := 256 * (0x3206 + i) + 0x7
abbrev ALLOT_CHANGES (i : Nat) : Nat := 256 * (0x9060 + i) + 0x1
abbrev PLAN_LATE (i : Nat) : Nat := 256 * (0x9060 + i) + 0x2
abbrev REPORT_MISSING (i : Nat) : Nat := 256 * (0x9060 + i) + 0x3
abbrev ANNOUNCE_UNACKED (i : Nat) : Nat := 256 * (0x9060 + i) + 0x4
abbrev ALLOT_MISMATCHES (i : Nat) : Nat := 256 * (0x9060 + i) + 0x5
abbrev ALLOT_ROLE_SWAPS (i : Nat) : Nat := 256 * (0x9060 + i) + 0x6
abbrev SWAP_REFUSALS (i : Nat) : Nat := 256 * (0x9060 + i) + 0x7
abbrev EPOCHS_AT_CODE (i s : Nat) : Nat := 256 * (0x9060 + i) + 0x10 + s
abbrev TUN_CLASS (i : Nat) : Nat := 256 * (0x6000 + i) + 0x1
abbrev TUN_END_A (i : Nat) : Nat := 256 * (0x6000 + i) + 0x2
abbrev TUN_END_B (i : Nat) : Nat := 256 * (0x6000 + i) + 0x3
abbrev TUN_NUM_TK0 (i : Nat) : Nat := 256 * (0x6000 + i) + 0x4
abbrev TUN_NUM_TK1 (i : Nat) : Nat := 256 * (0x6000 + i) + 0x5
abbrev TUN_LOCAL (i : Nat) : Nat := 256 * (0x6000 + i) + 0x6
abbrev TUN_PINNED (i : Nat) : Nat := 256 * (0x6000 + i) + 0x7
abbrev TUN_LINE_CELLS (i : Nat) : Nat := 256 * (0x6000 + i) + 0x8
abbrev TUN_FLOOR (i : Nat) : Nat := 256 * (0x6000 + i) + 0x9
abbrev TUN_CAP (i : Nat) : Nat := 256 * (0x6000 + i) + 0xA
abbrev TUN_MARK (i : Nat) : Nat := 256 * (0x6000 + i) + 0xB
abbrev TUN_OCC (i : Nat) : Nat := 256 * (0x6000 + i) + 0xC
abbrev TUN_SHARED (i : Nat) : Nat := 256 * (0x6000 + i) + 0xD
abbrev TUN_DROPS (i : Nat) : Nat := 256 * (0x6000 + i) + 0xE
abbrev TUN_MARKS (i : Nat) : Nat := 256 * (0x6000 + i) + 0xF
abbrev TUN_SPILLED (i : Nat) : Nat := 256 * (0x6000 + i) + 0x10
abbrev CORE_DELIVERED : Nat := 0x400001
abbrev POT_ENTRIES : Nat := 0x400002
abbrev POT_OCC : Nat := 0x400003
abbrev POT_OCC_PEAK : Nat := 0x400004
abbrev SHARED_SIZE : Nat := 0x400005
abbrev SHARED_USED : Nat := 0x400006
abbrev FLOOR_SUM : Nat := 0x400007
abbrev CUT_THROUGH_EN : Nat := 0x400008
abbrev DT_ALPHA (s : Nat) : Nat := 0x400101 + s
abbrev LEND_CLASSES : Nat := 0x400109
abbrev CLASS_OCC (s : Nat) : Nat := 0x400111 + s
abbrev CLASS_SHARED (s : Nat) : Nat := 0x400119 + s
abbrev SPILL_ENABLE : Nat := 0x400301
abbrev SPILL_BASE : Nat := 0x400302
abbrev SPILL_SIZE : Nat := 0x400303
abbrev SPILL_USED : Nat := 0x400304
abbrev SPILL_ACTIVE : Nat := 0x400305
abbrev PIN_MAP : Nat := 0x400401
abbrev PIN_EFFECTIVE : Nat := 0x400402
abbrev PIN_REVERT_HOLD : Nat := 0x400403
abbrev CELLS_SWITCHED : Nat := 0x907001
abbrev CUT_THROUGH : Nat := 0x907003
abbrev STORED : Nat := 0x907004
abbrev NO_TUNNEL : Nat := 0x907005
abbrev HOP_LIMIT : Nat := 0x907006
abbrev ADMIT_DROP : Nat := 0x907007
abbrev ADMIT_HELD : Nat := 0x907008
abbrev CORE_ECC_CORRECTED : Nat := 0x907009
abbrev CORE_ECC_UNCORRECTABLE : Nat := 0x90700A
abbrev CAM_LINES_DROPPED : Nat := 0x90700B
abbrev MARKED : Nat := 0x90700C
abbrev PIN_MOVES : Nat := 0x90700D
abbrev PIN_DISCARD : Nat := 0x90700E
abbrev CLASS_DROPS (s : Nat) : Nat := 0x907101 + s
abbrev CLASS_PEAK (s : Nat) : Nat := 0x907111 + s
abbrev SPILL_WRITES : Nat := 0x907201
abbrev SPILL_READS : Nat := 0x907202
abbrev SPILL_BYPASS : Nat := 0x907203
abbrev CLASS_WEIGHT (s : Nat) : Nat := 0x410001 + s
abbrev STRICT_CLASSES : Nat := 0x410009
abbrev PORT_RATE (i : Nat) : Nat := 256 * (0x4110 + i) + 0x1
abbrev PORT_LIMIT (i : Nat) : Nat := 256 * (0x4110 + i) + 0x2
abbrev PORT_NEXT_RATE (i : Nat) : Nat := 256 * (0x4110 + i) + 0x3
abbrev COMMIT_SUM (i : Nat) : Nat := 256 * (0x4110 + i) + 0x4
abbrev RESCALE (i : Nat) : Nat := 256 * (0x4110 + i) + 0x5
abbrev GATE_ENABLE (i : Nat) : Nat := 256 * (0x4120 + i) + 0x1
abbrev GATE_PERIOD (i : Nat) : Nat := 256 * (0x4120 + i) + 0x2
abbrev GATE_OFFSET (i : Nat) : Nat := 256 * (0x4120 + i) + 0x3
abbrev GATE_ENTRIES (i : Nat) : Nat := 256 * (0x4120 + i) + 0x4
abbrev GATE_TIME (i s : Nat) : Nat := 256 * (0x4120 + i) + 0x10 + s
abbrev GATE_OPEN (i s : Nat) : Nat := 256 * (0x4120 + i) + 0x18 + s
abbrev GATE_CURRENT (i : Nat) : Nat := 256 * (0x4120 + i) + 0x20
abbrev CIR (i : Nat) : Nat := 256 * (0x6000 + i) + 0x20
abbrev CBS (i : Nat) : Nat := 256 * (0x6000 + i) + 0x21
abbrev C_TOKRST (i : Nat) : Nat := 256 * (0x6000 + i) + 0x22
abbrev PIR (i : Nat) : Nat := 256 * (0x6000 + i) + 0x23
abbrev PBS (i : Nat) : Nat := 256 * (0x6000 + i) + 0x24
abbrev P_TOKRST (i : Nat) : Nat := 256 * (0x6000 + i) + 0x25
abbrev TUN_WEIGHT (i : Nat) : Nat := 256 * (0x6000 + i) + 0x26
abbrev POL_RATE (i : Nat) : Nat := 256 * (0x6000 + i) + 0x27
abbrev POL_BURST (i : Nat) : Nat := 256 * (0x6000 + i) + 0x28
abbrev POL_TOKRST (i : Nat) : Nat := 256 * (0x6000 + i) + 0x29
abbrev TX_COMMITTED (i : Nat) : Nat := 256 * (0x6000 + i) + 0x30
abbrev TX_EXCESS (i : Nat) : Nat := 256 * (0x6000 + i) + 0x31
abbrev SHAPER_WAITS (i : Nat) : Nat := 256 * (0x6000 + i) + 0x32
abbrev STR_DROPS (i : Nat) : Nat := 256 * (0x6000 + i) + 0x33
abbrev STR_PASSED (i : Nat) : Nat := 256 * (0x6000 + i) + 0x34
abbrev QUEUE_PEAK (i : Nat) : Nat := 256 * (0x6000 + i) + 0x35
abbrev CLASS_TX (i s : Nat) : Nat := 256 * (0x9080 + i) + 0x1 + s
abbrev IDLE_SLOTS (i : Nat) : Nat := 256 * (0x9080 + i) + 0x9
abbrev GATE_HELD (i : Nat) : Nat := 256 * (0x9080 + i) + 0xA
abbrev RESCALE_CHANGES (i : Nat) : Nat := 256 * (0x9080 + i) + 0xB
abbrev CLASS_QUEUE_PEAK (i s : Nat) : Nat := 256 * (0x9080 + i) + 0x11 + s
abbrev NP_INFLIGHT : Nat := 0x500001
abbrev NP_PEAK : Nat := 0x500002
abbrev NP_TIMEOUT : Nat := 0x500003
abbrev SLOT_AUTO : Nat := 0x500004
abbrev PCIE_ROLE (i : Nat) : Nat := 256 * (0x5010 + i) + 0x1
abbrev PCIE_RP_OWNER (i : Nat) : Nat := 256 * (0x5010 + i) + 0x2
abbrev PCIE_MAX_SPEED (i : Nat) : Nat := 256 * (0x5010 + i) + 0x3
abbrev PCIE_MAX_WIDTH (i : Nat) : Nat := 256 * (0x5010 + i) + 0x4
abbrev PCIE_ASPM (i : Nat) : Nat := 256 * (0x5010 + i) + 0x5
abbrev PCIE_ECRC (i : Nat) : Nat := 256 * (0x5010 + i) + 0x6
abbrev PCIE_LINK (i : Nat) : Nat := 256 * (0x5010 + i) + 0x7
abbrev PCIE_SPEED (i : Nat) : Nat := 256 * (0x5010 + i) + 0x8
abbrev PCIE_WIDTH (i : Nat) : Nat := 256 * (0x5010 + i) + 0x9
abbrev PCIE_DEVICE (i : Nat) : Nat := 256 * (0x5010 + i) + 0xA
abbrev SLOT_UNIT_ID (s : Nat) : Nat := 0x502002 + 2 * s
abbrev SLOT_PORT (s : Nat) : Nat := 0x502101 + s
abbrev PCIE_SLOT_STATE (s : Nat) : Nat := 0x502121 + s
abbrev DMA_RING (i : Nat) : Nat := 256 * (0x5030 + i) + 0x1
abbrev DMA_RING_LOG2 (i : Nat) : Nat := 256 * (0x5030 + i) + 0x3
abbrev DMA_DIR (i : Nat) : Nat := 256 * (0x5030 + i) + 0x4
abbrev DMA_OWNER (i : Nat) : Nat := 256 * (0x5030 + i) + 0x5
abbrev DMA_TAIL (i : Nat) : Nat := 256 * (0x5030 + i) + 0x8
abbrev DMA_HEAD (i : Nat) : Nat := 256 * (0x5030 + i) + 0x9
abbrev DMA_STATUS (i : Nat) : Nat := 256 * (0x5030 + i) + 0xA
abbrev DMA_BYTES (i : Nat) : Nat := 256 * (0x5030 + i) + 0xB
abbrev TLP_RX (i : Nat) : Nat := 256 * (0x90A0 + i) + 0x1
abbrev TLP_TX (i : Nat) : Nat := 256 * (0x90A0 + i) + 0x2
abbrev UR_SENT (i : Nat) : Nat := 256 * (0x90A0 + i) + 0x3
abbrev CREDIT_STALLS (i : Nat) : Nat := 256 * (0x90A0 + i) + 0x4
abbrev FENCE_WAITS (i : Nat) : Nat := 256 * (0x90A0 + i) + 0x5
abbrev NP_FULL : Nat := 0x90A201
abbrev CPL_SYNTH_CA : Nat := 0x90A202
abbrev CPL_SYNTH_UR : Nat := 0x90A203
abbrev CPL_LATE : Nat := 0x90A204
abbrev CAM_RX_ENABLE : Nat := 0x510001
abbrev CSI_LANES (i : Nat) : Nat := 256 * (0x5104 + i) + 0x1
abbrev CSI_LANE_MAP (i : Nat) : Nat := 256 * (0x5104 + i) + 0x2
abbrev CSI_POLARITY (i : Nat) : Nat := 256 * (0x5104 + i) + 0x3
abbrev CSI_STATE (i : Nat) : Nat := 256 * (0x5104 + i) + 0x4
abbrev CSI_RATE (i : Nat) : Nat := 256 * (0x5104 + i) + 0x5
abbrev STR_ENABLE (i : Nat) : Nat := 256 * (0x5110 + i) + 0x1
abbrev STR_DATA_TYPE (i : Nat) : Nat := 256 * (0x5110 + i) + 0x2
abbrev STR_SEG_BYTES (i : Nat) : Nat := 256 * (0x5110 + i) + 0x3
abbrev STR_TRIGGER (i : Nat) : Nat := 256 * (0x5110 + i) + 0x4
abbrev STR_FE_TIMEOUT (i : Nat) : Nat := 256 * (0x5110 + i) + 0x5
abbrev STR_STATE (i : Nat) : Nat := 256 * (0x5110 + i) + 0x6
abbrev STR_FRAME_NUM (i : Nat) : Nat := 256 * (0x5110 + i) + 0x7
abbrev STR_TUNNEL (i : Nat) : Nat := 256 * (0x5110 + i) + 0x8
abbrev TRIG_MODE (i : Nat) : Nat := 256 * (0x5120 + i) + 0x1
abbrev TRIG_START (i : Nat) : Nat := 256 * (0x5120 + i) + 0x2
abbrev TRIG_PERIOD (i : Nat) : Nat := 256 * (0x5120 + i) + 0x3
abbrev TRIG_PERIOD_FRAC (i : Nat) : Nat := 256 * (0x5120 + i) + 0x4
abbrev TRIG_WIDTH (i : Nat) : Nat := 256 * (0x5120 + i) + 0x5
abbrev TRIG_POLARITY (i : Nat) : Nat := 256 * (0x5120 + i) + 0x6
abbrev TRIG_LAST (i : Nat) : Nat := 256 * (0x5120 + i) + 0x7
abbrev TRIG_SKIPPED (i : Nat) : Nat := 256 * (0x5120 + i) + 0x8
abbrev FRAMES (i : Nat) : Nat := 256 * (0x90B0 + i) + 0x1
abbrev FRAMES_INCOMPLETE (i : Nat) : Nat := 256 * (0x90B0 + i) + 0x2
abbrev LINES_SENT (i : Nat) : Nat := 256 * (0x90B0 + i) + 0x3
abbrev LINES_DROPPED (i : Nat) : Nat := 256 * (0x90B0 + i) + 0x4
abbrev LINES_TRUNCATED (i : Nat) : Nat := 256 * (0x90B0 + i) + 0x5
abbrev LINES_BAD_CRC (i : Nat) : Nat := 256 * (0x90B0 + i) + 0x6
abbrev FE_SYNTHESISED (i : Nat) : Nat := 256 * (0x90B0 + i) + 0x7
abbrev OUTSIDE_FRAME (i : Nat) : Nat := 256 * (0x90B0 + i) + 0x8
abbrev PH_CORRECTED (i : Nat) : Nat := 256 * (0x90C0 + i) + 0x1
abbrev PH_UNCORRECTABLE (i : Nat) : Nat := 256 * (0x90C0 + i) + 0x2
abbrev PAYLOAD_CRC (i : Nat) : Nat := 256 * (0x90C0 + i) + 0x3
abbrev SOT_ERRORS (i : Nat) : Nat := 256 * (0x90C0 + i) + 0x4
abbrev UNMAPPED (i : Nat) : Nat := 256 * (0x90C0 + i) + 0x5
abbrev FS_BASE : Nat := 0x520001
abbrev FS_SIZE : Nat := 0x520002
abbrev FS_NEED : Nat := 0x520003
abbrev PLANE_ENABLE (i : Nat) : Nat := 256 * (0x5208 + i) + 0x1
abbrev PLANE_FORMAT (i : Nat) : Nat := 256 * (0x5208 + i) + 0x2
abbrev BUF_A (i : Nat) : Nat := 256 * (0x5208 + i) + 0x3
abbrev BUF_B (i : Nat) : Nat := 256 * (0x5208 + i) + 0x4
abbrev STRIDE (i : Nat) : Nat := 256 * (0x5208 + i) + 0x5
abbrev POS (i : Nat) : Nat := 256 * (0x5208 + i) + 0x6
abbrev SIZE (i : Nat) : Nat := 256 * (0x5208 + i) + 0x7
abbrev PLANE_ALPHA (i : Nat) : Nat := 256 * (0x5208 + i) + 0x8
abbrev FRONT (i : Nat) : Nat := 256 * (0x5208 + i) + 0x9
abbrev FLIP_PENDING (i : Nat) : Nat := 256 * (0x5208 + i) + 0xA
abbrev FLIP_CMD (i : Nat) : Nat := 256 * (0x5208 + i) + 0xB
abbrev PIX_CLK (i : Nat) : Nat := 256 * (0x5204 + i) + 0x1
abbrev H_ACTIVE (i : Nat) : Nat := 256 * (0x5204 + i) + 0x2
abbrev H_TOTAL (i : Nat) : Nat := 256 * (0x5204 + i) + 0x3
abbrev H_SYNC_START (i : Nat) : Nat := 256 * (0x5204 + i) + 0x4
abbrev H_SYNC_WIDTH (i : Nat) : Nat := 256 * (0x5204 + i) + 0x5
abbrev V_ACTIVE (i : Nat) : Nat := 256 * (0x5204 + i) + 0x6
abbrev V_TOTAL (i : Nat) : Nat := 256 * (0x5204 + i) + 0x7
abbrev V_SYNC_START (i : Nat) : Nat := 256 * (0x5204 + i) + 0x8
abbrev V_SYNC_WIDTH (i : Nat) : Nat := 256 * (0x5204 + i) + 0x9
abbrev SYNC_POL (i : Nat) : Nat := 256 * (0x5204 + i) + 0xA
abbrev DISP_MODE (i : Nat) : Nat := 256 * (0x5202 + i) + 0x1
abbrev DISP_ENABLE (i : Nat) : Nat := 256 * (0x5202 + i) + 0x2
abbrev DISP_RATES (i : Nat) : Nat := 256 * (0x5202 + i) + 0x3
abbrev DISP_LINK (i : Nat) : Nat := 256 * (0x5202 + i) + 0x4
abbrev DISP_LINK_RATE (i : Nat) : Nat := 256 * (0x5202 + i) + 0x5
abbrev DISP_LANES (i : Nat) : Nat := 256 * (0x5202 + i) + 0x6
abbrev DISP_BPC (i : Nat) : Nat := 256 * (0x5202 + i) + 0x7
abbrev DISP_V_LEAD (i : Nat) : Nat := 256 * (0x5202 + i) + 0x8
abbrev SR_MODE (i : Nat) : Nat := 256 * (0x5202 + i) + 0x9
abbrev SR_IDLE_FRAMES (i : Nat) : Nat := 256 * (0x5202 + i) + 0xA
abbrev SR_MODE_IN_USE (i : Nat) : Nat := 256 * (0x5202 + i) + 0xB
abbrev SR_STATE (i : Nat) : Nat := 256 * (0x5202 + i) + 0xC
abbrev FLIP_STATUS (i : Nat) : Nat := 256 * (0x5202 + i) + 0xD
abbrev FRAME_COUNT (i : Nat) : Nat := 256 * (0x5202 + i) + 0xE
abbrev EDP_PWM_FREQ (i : Nat) : Nat := 256 * (0x5202 + i) + 0xF
abbrev EDP_PWM_DUTY (i : Nat) : Nat := 256 * (0x5202 + i) + 0x10
abbrev EDP_T_BL (i : Nat) : Nat := 256 * (0x5202 + i) + 0x11
abbrev DISP_EDID (i : Nat) : Nat := 256 * (0x5202 + i) + 0x12
abbrev UNDERRUN_LINES (i : Nat) : Nat := 256 * (0x90D0 + i) + 0x1
abbrev LATE_FLIPS (i : Nat) : Nat := 256 * (0x90D0 + i) + 0x2
abbrev RECORDS_WRITTEN (i : Nat) : Nat := 256 * (0x90D0 + i) + 0x3
abbrev RECORDS_DISCARDED (i : Nat) : Nat := 256 * (0x90D0 + i) + 0x4
abbrev FLIPS (i : Nat) : Nat := 256 * (0x90D0 + i) + 0x5
abbrev SR_ENTRIES (i : Nat) : Nat := 256 * (0x90D0 + i) + 0x6
abbrev SR_EXITS (i : Nat) : Nat := 256 * (0x90D0 + i) + 0x7
abbrev SU_FRAMES (i : Nat) : Nat := 256 * (0x90D0 + i) + 0x8
abbrev SR_ENTRY_FAILS (i : Nat) : Nat := 256 * (0x90D0 + i) + 0x9
abbrev LINK_TRAININGS (i : Nat) : Nat := 256 * (0x90D0 + i) + 0xA
abbrev HPD_IRQS (i : Nat) : Nat := 256 * (0x90D0 + i) + 0xB
abbrev CARRY_BYTES (i : Nat) : Nat := 256 * (0x90D0 + i) + 0xC
abbrev ETH_MODE (i : Nat) : Nat := 256 * (0x5302 + i) + 0x1
abbrev ETH_SPEED (i : Nat) : Nat := 256 * (0x5302 + i) + 0x2
abbrev ETH_MAX_FRAME (i : Nat) : Nat := 256 * (0x5302 + i) + 0x3
abbrev ETH_MAC_ADDR (i : Nat) : Nat := 256 * (0x5302 + i) + 0x4
abbrev ETH_PAUSE (i : Nat) : Nat := 256 * (0x5302 + i) + 0x6
abbrev ETH_LINK (i : Nat) : Nat := 256 * (0x5302 + i) + 0x7
abbrev ETH_PCP_MAP (i : Nat) : Nat := 256 * (0x5302 + i) + 0x8
abbrev MDIO_CMD (i : Nat) : Nat := 256 * (0x5302 + i) + 0x9
abbrev MDIO_DATA (i : Nat) : Nat := 256 * (0x5302 + i) + 0xA
abbrev TX_PHY_DELAY (i : Nat) : Nat := 256 * (0x5302 + i) + 0xB
abbrev RX_PHY_DELAY (i : Nat) : Nat := 256 * (0x5302 + i) + 0xC
abbrev LINK_ASYM (i : Nat) : Nat := 256 * (0x5302 + i) + 0xD
abbrev ETS_ENABLE (i : Nat) : Nat := 256 * (0x5308 + i) + 0x1
abbrev ETS_BASE_SEC (i : Nat) : Nat := 256 * (0x5308 + i) + 0x2
abbrev ETS_BASE_NS (i : Nat) : Nat := 256 * (0x5308 + i) + 0x4
abbrev ETS_CYCLE (i : Nat) : Nat := 256 * (0x5308 + i) + 0x5
abbrev ETS_CYCLE_EXT (i : Nat) : Nat := 256 * (0x5308 + i) + 0x6
abbrev ETS_ENTRIES (i : Nat) : Nat := 256 * (0x5308 + i) + 0x7
abbrev ETS_PENDING (i : Nat) : Nat := 256 * (0x5308 + i) + 0x8
abbrev ETS_CURRENT (i : Nat) : Nat := 256 * (0x5308 + i) + 0x9
abbrev ETS_GCL (i s : Nat) : Nat := 256 * (0x5308 + i) + 0x10 + s
abbrev TIME_SEC : Nat := 0x530001
abbrev TIME_NS_LATCHED : Nat := 0x530003
abbrev TIME32_NOW : Nat := 0x530004
abbrev TIME_SOURCE : Nat := 0x530005
abbrev TIME_STATE : Nat := 0x530006
abbrev TIME_SOURCE_IN_USE : Nat := 0x530007
abbrev TIME_SET_SEC : Nat := 0x530008
abbrev TIME_SET_NS : Nat := 0x53000A
abbrev UTC_OFFSET : Nat := 0x53000B
abbrev LEAP : Nat := 0x53000C
abbrev OFFSET_LAST : Nat := 0x53000D
abbrev RATE_ADJ : Nat := 0x53000E
abbrev SV_TRUNK_KP : Nat := 0x530101
abbrev SV_TRUNK_KI : Nat := 0x530102
abbrev SV_GPTP_KP : Nat := 0x530103
abbrev SV_GPTP_KI : Nat := 0x530104
abbrev SV_STEP_THRESHOLD : Nat := 0x530105
abbrev SV_MAX_ADJ : Nat := 0x530106
abbrev SV_LOCK_THRESHOLD : Nat := 0x530107
abbrev SV_LOCK_COUNT : Nat := 0x530108
abbrev SV_HOLDOVER_LIMIT : Nat := 0x530109
abbrev PTP_ENGINE : Nat := 0x530601
abbrev PTP_DOMAIN : Nat := 0x530602
abbrev PTP_PRIORITY1 : Nat := 0x530603
abbrev PTP_PRIORITY2 : Nat := 0x530604
abbrev PTP_CLOCK_CLASS : Nat := 0x530605
abbrev PTP_EXT_CONFIG : Nat := 0x530606
abbrev GM_IDENTITY : Nat := 0x530607
abbrev STEPS_REMOVED : Nat := 0x530609
abbrev GPTP_SAMPLE : Nat := 0x53060C
abbrev PTP_PORT_ENABLE (i : Nat) : Nat := 256 * (0x5304 + i) + 0x1
abbrev PTP_PORT_STATE (i : Nat) : Nat := 256 * (0x5304 + i) + 0x2
abbrev PTP_EXT_STATE (i : Nat) : Nat := 256 * (0x5304 + i) + 0x3
abbrev LOG_SYNC (i : Nat) : Nat := 256 * (0x5304 + i) + 0x4
abbrev LOG_PDELAY_REQ (i : Nat) : Nat := 256 * (0x5304 + i) + 0x5
abbrev LOG_ANNOUNCE (i : Nat) : Nat := 256 * (0x5304 + i) + 0x6
abbrev MEAN_LINK_DELAY (i : Nat) : Nat := 256 * (0x5304 + i) + 0x7
abbrev AS_CAPABLE (i : Nat) : Nat := 256 * (0x5304 + i) + 0x8
abbrev PPS_OUT_ENABLE : Nat := 0x530A01
abbrev PPS_WIDTH : Nat := 0x530A02
abbrev PPS_IN_TIME : Nat := 0x530A03
abbrev TT_ASYM_TRIM (i : Nat) : Nat := 256 * (0x3300 + i) + 0x7
abbrev TT_DELTA (i : Nat) : Nat := 256 * (0x3300 + i) + 0x8
abbrev TT_ROLE (i : Nat) : Nat := 256 * (0x3300 + i) + 0x9
abbrev XCHG_SENT (i : Nat) : Nat := 256 * (0x90E4 + i) + 0x1
abbrev XCHG_ACCEPTED (i : Nat) : Nat := 256 * (0x90E4 + i) + 0x2
abbrev XCHG_DISCARDED (i : Nat) : Nat := 256 * (0x90E4 + i) + 0x3
abbrev RX_FRAMES (i : Nat) : Nat := 256 * (0x90E0 + i) + 0x1
abbrev TX_FRAMES (i : Nat) : Nat := 256 * (0x90E0 + i) + 0x2
abbrev RX_ERRORS (i : Nat) : Nat := 256 * (0x90E0 + i) + 0x3
abbrev RX_UNMATCHED (i : Nat) : Nat := 256 * (0x90E0 + i) + 0x4
abbrev PTP_RX (i : Nat) : Nat := 256 * (0x90E0 + i) + 0x5
abbrev LOCAL_RX (i : Nat) : Nat := 256 * (0x90E0 + i) + 0x6
abbrev TX_REASSEMBLY_DROP (i : Nat) : Nat := 256 * (0x90E0 + i) + 0x7
abbrev GATE_OVERSIZE (i : Nat) : Nat := 256 * (0x90E0 + i) + 0x8
abbrev TIME_STEPS : Nat := 0x90E201
abbrev LOCK_LOSSES : Nat := 0x90E202
abbrev SERVO_CLAMPED : Nat := 0x90E203
abbrev HOLDOVERS : Nat := 0x90E204
abbrev MOT_ENABLE : Nat := 0x540001
abbrev MOT_PERIOD : Nat := 0x540002
abbrev MOT_OFFSET : Nat := 0x540003
abbrev MOT_RESP_DEADLINE : Nat := 0x540004
abbrev MOT_MASTER : Nat := 0x540005
abbrev MOT_MISS_LIMIT : Nat := 0x540006
abbrev MOT_STATE : Nat := 0x540007
abbrev MOT_CYCLE : Nat := 0x540008
abbrev MOT_RESP_CYCLE : Nat := 0x540009
abbrev AXL_ENABLE (i : Nat) : Nat := 256 * (0x5420 + i) + 0x1
abbrev AXL_START (i : Nat) : Nat := 256 * (0x5420 + i) + 0x2
abbrev AXL_DROPS (i : Nat) : Nat := 256 * (0x5420 + i) + 0x3
abbrev AXL_STATE (i : Nat) : Nat := 256 * (0x5420 + i) + 0x4
abbrev AXL_BUSY (i : Nat) : Nat := 256 * (0x5420 + i) + 0x5
abbrev AXL_APPLY (i : Nat) : Nat := 256 * (0x5420 + i) + 0x6
abbrev DROP_BYTES (i s : Nat) : Nat := 256 * (0x5420 + i) + 0x10 + s
abbrev DROP_TAG (i s : Nat) : Nat := 256 * (0x5420 + i) + 0x18 + s
abbrev DROP_RTT (i s : Nat) : Nat := 256 * (0x5420 + i) + 0x20 + s
abbrev IL_CMD_DEADLINE (i : Nat) : Nat := 256 * (0x5448 + i) + 0x2
abbrev IL_DROPS (i : Nat) : Nat := 256 * (0x5448 + i) + 0x3
abbrev IL_DROP_BYTES (i s : Nat) : Nat := 256 * (0x5448 + i) + 0x10 + s
abbrev IL_DROP_TAG (i s : Nat) : Nat := 256 * (0x5448 + i) + 0x18 + s
abbrev CMD_IMAGE (i s : Nat) : Nat := 256 * (0x54C0 + i) + 0x1 + s
abbrev RESP_IMAGE (i s : Nat) : Nat := 256 * (0x54C0 + i) + 0x41 + s
abbrev DRIVE_STATUS (i s : Nat) : Nat := 256 * (0x5460 + i) + 0x1 + s
abbrev LINK_CYCLES (i : Nat) : Nat := 256 * (0x90F0 + i) + 0x1
abbrev DROP_MISSING (i : Nat) : Nat := 256 * (0x90F0 + i) + 0x2
abbrev LINK_CRC (i : Nat) : Nat := 256 * (0x90F0 + i) + 0x3
abbrev CMD_MISSING (i : Nat) : Nat := 256 * (0x90F0 + i) + 0x4
abbrev SAFE_STOP_FRAMES (i : Nat) : Nat := 256 * (0x90F0 + i) + 0x5
abbrev CELLS_LATE : Nat := 0x90F801
abbrev CYCLE_MISMATCH : Nat := 0x90F802
abbrev SECTION_CRC : Nat := 0x90F803
abbrev CYCLES_SKIPPED : Nat := 0x90F804
abbrev MOT_INTEGRITY_FAULTS : Nat := 0x90F805
abbrev GPIO_DIR : Nat := 0x550001
abbrev GPIO_PULL_EN : Nat := 0x550002
abbrev GPIO_PULL_UP : Nat := 0x550003
abbrev GPIO_FILTER : Nat := 0x550004
abbrev GPIO_EDGE_RISE : Nat := 0x550005
abbrev GPIO_EDGE_FALL : Nat := 0x550006
abbrev GPIO_REPORT_PERIOD : Nat := 0x550007
abbrev GPIO_MIRROR_MASK : Nat := 0x550008
abbrev I2C_SPEED (i : Nat) : Nat := 256 * (0x5504 + i) + 0x1
abbrev I2C_STRETCH_MAX (i : Nat) : Nat := 256 * (0x5504 + i) + 0x2
abbrev SPI_CLOCK (i : Nat) : Nat := 256 * (0x5508 + i) + 0x1
abbrev SPI_MODE (i : Nat) : Nat := 256 * (0x5508 + i) + 0x2
abbrev POLL_PERIOD (i : Nat) : Nat := 256 * (0x5510 + i) + 0x1
abbrev POLL_LIST (i : Nat) : Nat := 256 * (0x5510 + i) + 0x2
abbrev POLL_REPORT (i : Nat) : Nat := 256 * (0x5510 + i) + 0x3
abbrev POLL_RESULT (i : Nat) : Nat := 256 * (0x5510 + i) + 0x4
abbrev UART_BAUD (i : Nat) : Nat := 256 * (0x550C + i) + 0x1
abbrev UART_FORMAT (i : Nat) : Nat := 256 * (0x550C + i) + 0x2
abbrev UART_BIND (i : Nat) : Nat := 256 * (0x550C + i) + 0x3
abbrev UART_IDLE (i : Nat) : Nat := 256 * (0x550C + i) + 0x4
abbrev USB_ENABLE : Nat := 0x560001
abbrev USB_UP_SOURCE : Nat := 0x560002
abbrev USB_U3_BIND : Nat := 0x560003
abbrev USB_PWR_MODE : Nat := 0x560004
abbrev USB_SUSP_GPIO : Nat := 0x560005
abbrev USB_STATE : Nat := 0x560006
abbrev PORT_STATUS (i : Nat) : Nat := 256 * (0x5604 + i) + 0x1
abbrev DEV_CONNECT : Nat := 0x561001
abbrev DEV_ENGINE : Nat := 0x561002
abbrev DEV_HOP_ENABLE : Nat := 0x561003
abbrev DEV_STATE : Nat := 0x561004
abbrev DEV_WAKE : Nat := 0x561005
abbrev DEV_WAKE_STATUS : Nat := 0x561006
abbrev DEV_EVENT : Nat := 0x561007
abbrev DEV_SETUP : Nat := 0x561008
abbrev MSG_MALFORMED : Nat := 0x910001
abbrev GPIO_REPORTS : Nat := 0x910002
abbrev GPIO_LATE_CMDS : Nat := 0x910003
abbrev XFER_QUEUE_FULL : Nat := 0x910004
abbrev XFER_ERRORS : Nat := 0x910005
abbrev POLL_SKIPPED : Nat := 0x910006
abbrev GO_IGNORED : Nat := 0x910007
abbrev UART_OVERRUN : Nat := 0x910008
abbrev UART_FRAMING : Nat := 0x910009
abbrev UART_LOST_BYTES : Nat := 0x91000A
abbrev UART_CREDIT_STALLS : Nat := 0x91000B
abbrev REGION_REFUSED : Nat := 0x91000C
abbrev OVERCURRENT : Nat := 0x911001
abbrev PROXY_ISO_DISCARDED : Nat := 0x911002
abbrev PROXY_NAKS : Nat := 0x911003
abbrev BUS_RESETS : Nat := 0x911004
abbrev ABORTED_CONTROL : Nat := 0x911005
abbrev STALE_REPLIES : Nat := 0x911006
abbrev WAKE_SUPERSEDED : Nat := 0x911007
abbrev SUSPENDS : Nat := 0x911008
abbrev ENG_RUN (i : Nat) : Nat := 256 * (0x2410 + i) + 0x1
abbrev ENG_STATE (i : Nat) : Nat := 256 * (0x2410 + i) + 0x2
abbrev ENG_MODE (i : Nat) : Nat := 256 * (0x2410 + i) + 0x3
abbrev ENG_SLEEP_DEPTH (i : Nat) : Nat := 256 * (0x2410 + i) + 0x4
abbrev ENG_WDOG (i : Nat) : Nat := 256 * (0x2410 + i) + 0x5
abbrev ENG_KICK (i : Nat) : Nat := 256 * (0x2410 + i) + 0x6
abbrev ENG_FAULT_PC (i : Nat) : Nat := 256 * (0x2410 + i) + 0x7
abbrev ENG_FAULT_CAUSE (i : Nat) : Nat := 256 * (0x2410 + i) + 0x8
abbrev ENG_RESET (i : Nat) : Nat := 256 * (0x2410 + i) + 0x9
abbrev FW_STATE : Nat := 0x240001
abbrev FW_SOURCE : Nat := 0x240002
abbrev FW_FAIL : Nat := 0x240003
abbrev FW_MIN_VERSION : Nat := 0x240004
abbrev SBX_KEY_SLOT : Nat := 0x240005
abbrev FW_LOAD_CMD : Nat := 0x240006
abbrev RC_MEM_BASE_P0 : Nat := 0x240008
abbrev RC_MEM_BASE_P1 : Nat := 0x24000A
abbrev FW_IMAGE : Nat := 0x240010
abbrev SBX_IMAGE : Nat := 0x240011
abbrev SBX_STATE : Nat := 0x240012
abbrev SBX_RANGE (i s : Nat) : Nat := 256 * (0x24A0 + i) + 0x1 + s
abbrev SBX_WRITE (i : Nat) : Nat := 256 * (0x24A0 + i) + 0x9
abbrev IC_PENDING (s : Nat) : Nat := 0x230001 + s
abbrev IC_RAISE : Nat := 0x230007
abbrev IC_ACTIVE (s : Nat) : Nat := 0x230008 + s
abbrev SRC_CFG (i s : Nat) : Nat := 256 * (0x2310 + i) + 0x1 + s
abbrev TGT_CLAIM (i : Nat) : Nat := 256 * (0x2320 + i) + 0x1
abbrev TGT_COMPLETE (i : Nat) : Nat := 256 * (0x2320 + i) + 0x2
abbrev TGT_STATE (i : Nat) : Nat := 256 * (0x2320 + i) + 0x3
abbrev TGT_WAKE_LAST (i : Nat) : Nat := 256 * (0x2320 + i) + 0x4
abbrev TGT_WAKE_TIME (i : Nat) : Nat := 256 * (0x2320 + i) + 0x5
abbrev TGT_MASK (i s : Nat) : Nat := 256 * (0x2320 + i) + 0x10 + s
abbrev WDOG_EXPIRIES (i : Nat) : Nat := 256 * (0x9120 + i) + 0x1
abbrev ENG_ECC_CORRECTED (i : Nat) : Nat := 256 * (0x9120 + i) + 0x2
abbrev ENG_ECC_UNCORRECTABLE (i : Nat) : Nat := 256 * (0x9120 + i) + 0x3
abbrev ACCESS_FAULTS (i : Nat) : Nat := 256 * (0x9120 + i) + 0x4
abbrev ENG_WAKES (i : Nat) : Nat := 256 * (0x9120 + i) + 0x5
abbrev IC_SPURIOUS : Nat := 0x913001
abbrev IC_REFIRES : Nat := 0x913002
abbrev IC_OFF_TARGET : Nat := 0x913003
abbrev IC_BAD_COMPLETE : Nat := 0x913004
abbrev XTAL_STATE : Nat := 0x200001
abbrev REFCLK_STATE : Nat := 0x200002
abbrev RC_STATE : Nat := 0x200003
abbrev RC_TRIM : Nat := 0x200004
abbrev RC_TRIM_SOURCE : Nat := 0x200005
abbrev RC_STANDBY : Nat := 0x200006
abbrev RC_TRIM_SOF : Nat := 0x200007
abbrev CLK_FAULT_CAUSE : Nat := 0x200008
abbrev CLK_FAULT_TIME : Nat := 0x200009
abbrev CLK_MON_STATUS : Nat := 0x20000A
abbrev PLL_LOCK : Nat := 0x20000B
abbrev CD_SOURCE (i : Nat) : Nat := 256 * (0x2010 + i) + 0x1
abbrev CD_DIV_SET (i : Nat) : Nat := 256 * (0x2010 + i) + 0x2
abbrev CD_DIV (i : Nat) : Nat := 256 * (0x2010 + i) + 0x3
abbrev CD_FREQ (i : Nat) : Nat := 256 * (0x2010 + i) + 0x4
abbrev CD_SWITCHES (i : Nat) : Nat := 256 * (0x9140 + i) + 0x1
abbrev CD_HELD (i : Nat) : Nat := 256 * (0x9140 + i) + 0x2
abbrev MON_TRIPS : Nat := 0x914F01
abbrev RC_QUAL_FAILS : Nat := 0x914F02
abbrev RC_TRIM_STEPS : Nat := 0x914F03
abbrev PD_REQ (i : Nat) : Nat := 256 * (0x2120 + i) + 0x1
abbrev DOM_STATE (i : Nat) : Nat := 256 * (0x2120 + i) + 0x2
abbrev PD_WAKE_ON_ACCESS (i : Nat) : Nat := 256 * (0x2120 + i) + 0x3
abbrev PD_SCHED (i : Nat) : Nat := 256 * (0x2120 + i) + 0x4
abbrev PD_IDLE_TIMEOUT (i : Nat) : Nat := 256 * (0x2120 + i) + 0x5
abbrev PD_WAKE_LAST (i : Nat) : Nat := 256 * (0x2120 + i) + 0x6
abbrev PD_WAKE_TIME (i : Nat) : Nat := 256 * (0x2120 + i) + 0x7
abbrev PD_WAKE_LEAD (i : Nat) : Nat := 256 * (0x2120 + i) + 0x8
abbrev PD_NEED (i : Nat) : Nat := 256 * (0x2120 + i) + 0x9
abbrev PD_MIN_DWELL : Nat := 0x210001
abbrev SIM_ENABLE : Nat := 0x220001
abbrev SIM_MARGIN : Nat := 0x220002
abbrev SIM_VMIN : Nat := 0x220003
abbrev SIM_VMAX : Nat := 0x220004
abbrev SIM_POT_RAISE : Nat := 0x220005
abbrev SIM_DOWN_HOLD : Nat := 0x220006
abbrev SIM_TRANSIT_TARGET : Nat := 0x220007
abbrev PL_MIN : Nat := 0x220008
abbrev PL_SPILL : Nat := 0x220009
abbrev SIM_MODE : Nat := 0x22000A
abbrev PL_VSEL_LEVEL : Nat := 0x22000B
abbrev VCORE_TARGET : Nat := 0x22000C
abbrev VCORE_ACK : Nat := 0x22000D
abbrev VCORE_MEASURED : Nat := 0x22000E
abbrev PL_CURRENT : Nat := 0x22000F
abbrev PL_FLOOR : Nat := 0x220010
abbrev SIM_DEMAND : Nat := 0x220011
abbrev AVS_SLEW : Nat := 0x220012
abbrev AVS_RESTORE : Nat := 0x220013
abbrev EN_CONTROL : Nat := 0x220801
abbrev EN_WINDOW : Nat := 0x220802
abbrev EN_STATUS : Nat := 0x220803
abbrev EN_CORE_UJ : Nat := 0x220804
abbrev EN_TK_UJ : Nat := 0x220806
abbrev EN_BITS : Nat := 0x220808
abbrev EN_PJ_PER_BIT : Nat := 0x22080A
abbrev DOM_WAKES (i : Nat) : Nat := 256 * (0x9150 + i) + 0x1
abbrev DOM_RESTS (i : Nat) : Nat := 256 * (0x9150 + i) + 0x2
abbrev WAKE_LATE (i : Nat) : Nat := 256 * (0x9150 + i) + 0x3
abbrev ACCESS_WAKES (i : Nat) : Nat := 256 * (0x9150 + i) + 0x4
abbrev AVS_REQUESTS : Nat := 0x917001
abbrev AVS_NO_ACK : Nat := 0x917002
abbrev AVS_FALLBACKS : Nat := 0x917003
abbrev VCORE_CHANGES : Nat := 0x917004
abbrev PL_CHANGES : Nat := 0x917005
abbrev PL_DEFERRED : Nat := 0x917006
abbrev SENSOR_RAISES : Nat := 0x917007
abbrev PD_ENABLE (p : Nat) : Nat := 256 * (0x7000 + 0x100 * p) + 0x1
abbrev PD_POWER_CAP (p : Nat) : Nat := 256 * (0x7000 + 0x100 * p) + 0x2
abbrev PD_VSEL_GPIO (p : Nat) : Nat := 256 * (0x7000 + 0x100 * p) + 0x4
abbrev PD_SVID (p : Nat) : Nat := 256 * (0x7000 + 0x100 * p) + 0x5
abbrev PD_JENSAR_ENTRY (p : Nat) : Nat := 256 * (0x7000 + 0x100 * p) + 0x6
abbrev PD_CABLE_MAX_MA (p : Nat) : Nat := 256 * (0x7000 + 0x100 * p) + 0x7
abbrev PD_EPR_ENABLE (p : Nat) : Nat := 256 * (0x7000 + 0x100 * p) + 0x8
abbrev PD_WAIT_RETRY (p : Nat) : Nat := 256 * (0x7000 + 0x100 * p) + 0x9
abbrev PD_WAIT_MAX (p : Nat) : Nat := 256 * (0x7000 + 0x100 * p) + 0xA
abbrev PD_FRS_ENABLE (p : Nat) : Nat := 256 * (0x7000 + 0x100 * p) + 0xB
abbrev PD_PR_SWAP_ACCEPT (p : Nat) : Nat := 256 * (0x7000 + 0x100 * p) + 0xC
abbrev PD_CMD (p : Nat) : Nat := 256 * (0x7000 + 0x100 * p) + 0xD
abbrev SRC_PDO (p s : Nat) : Nat := 256 * (0x7000 + 0x100 * p) + 0x10 + s
abbrev PD_REQ_MV (p : Nat) : Nat := 256 * (0x7000 + 0x100 * p) + 0x20
abbrev PD_REQ_MA (p : Nat) : Nat := 256 * (0x7000 + 0x100 * p) + 0x21
abbrev PD_FRS_CURRENT (p : Nat) : Nat := 256 * (0x7000 + 0x100 * p) + 0x22
abbrev PD_STATE (p : Nat) : Nat := 256 * (0x7000 + 0x100 * p) + 0x30
abbrev PD_POWER_ROLE (p : Nat) : Nat := 256 * (0x7000 + 0x100 * p) + 0x31
abbrev PD_DATA_ROLE (p : Nat) : Nat := 256 * (0x7000 + 0x100 * p) + 0x32
abbrev PD_CONTRACT_MV (p : Nat) : Nat := 256 * (0x7000 + 0x100 * p) + 0x33
abbrev PD_CONTRACT_MA (p : Nat) : Nat := 256 * (0x7000 + 0x100 * p) + 0x34
abbrev PD_CONTRACT_POS (p : Nat) : Nat := 256 * (0x7000 + 0x100 * p) + 0x35
abbrev PD_EPR_ACTIVE (p : Nat) : Nat := 256 * (0x7000 + 0x100 * p) + 0x36
abbrev PD_CONTRACT_STABLE (p : Nat) : Nat := 256 * (0x7000 + 0x100 * p) + 0x37
abbrev PD_MODE (p : Nat) : Nat := 256 * (0x7000 + 0x100 * p) + 0x38
abbrev PD_VBUS_MV (p : Nat) : Nat := 256 * (0x7000 + 0x100 * p) + 0x39
abbrev PD_LAST_RESULT (p : Nat) : Nat := 256 * (0x7000 + 0x100 * p) + 0x3A
abbrev PD_ATTN (p : Nat) : Nat := 256 * (0x7000 + 0x100 * p) + 0x3B
abbrev ATTACHES (i : Nat) : Nat := 256 * (0x9180 + i) + 0x1
abbrev CONTRACTS (i : Nat) : Nat := 256 * (0x9180 + i) + 0x2
abbrev TRANSITIONS_ABORTED (i : Nat) : Nat := 256 * (0x9180 + i) + 0x3
abbrev WAIT_RETRIES (i : Nat) : Nat := 256 * (0x9180 + i) + 0x4
abbrev HARD_RESETS (i : Nat) : Nat := 256 * (0x9180 + i) + 0x5
abbrev PD_ROLE_SWAPS (i : Nat) : Nat := 256 * (0x9180 + i) + 0x6
abbrev SWAPS_SUPERSEDED (i : Nat) : Nat := 256 * (0x9180 + i) + 0x7
abbrev MSG_RETRIES (i : Nat) : Nat := 256 * (0x9180 + i) + 0x8
abbrev SLOT_ENABLE (i : Nat) : Nat := 256 * (0x7200 + i) + 0x1
abbrev SLOT_BUS (i : Nat) : Nat := 256 * (0x7200 + i) + 0x2
abbrev SLOT_SHUNT (i : Nat) : Nat := 256 * (0x7200 + i) + 0x3
abbrev SLOT_ILIM (i : Nat) : Nat := 256 * (0x7200 + i) + 0x4
abbrev SLOT_PLIM (i : Nat) : Nat := 256 * (0x7200 + i) + 0x5
abbrev SLOT_FAST_TRIP (i : Nat) : Nat := 256 * (0x7200 + i) + 0x6
abbrev SLOT_TRIP_TIME (i : Nat) : Nat := 256 * (0x7200 + i) + 0x7
abbrev SLOT_RAMP_MAX (i : Nat) : Nat := 256 * (0x7200 + i) + 0x8
abbrev SLOT_RETRY (i : Nat) : Nat := 256 * (0x7200 + i) + 0x9
abbrev SLOT_PD_PORT (i : Nat) : Nat := 256 * (0x7200 + i) + 0xA
abbrev SLOT_GOOD_TIME (i : Nat) : Nat := 256 * (0x7200 + i) + 0xB
abbrev SLOT_STATE (i : Nat) : Nat := 256 * (0x7200 + i) + 0x10
abbrev SLOT_FAULT_CAUSE (i : Nat) : Nat := 256 * (0x7200 + i) + 0x11
abbrev SLOT_FAULT_COUNT (i : Nat) : Nat := 256 * (0x7200 + i) + 0x12
abbrev SLOT_RETRY_LEFT (i : Nat) : Nat := 256 * (0x7200 + i) + 0x13
abbrev SLOT_BUS_MV (i : Nat) : Nat := 256 * (0x7200 + i) + 0x14
abbrev SLOT_VOUT_MV (i : Nat) : Nat := 256 * (0x7200 + i) + 0x15
abbrev SLOT_I_MA (i : Nat) : Nat := 256 * (0x7200 + i) + 0x16
abbrev SLOT_CLEAR (i : Nat) : Nat := 256 * (0x7200 + i) + 0x17
abbrev SLOT_ATTN (i : Nat) : Nat := 256 * (0x7200 + i) + 0x18
abbrev FEED_MODE : Nat := 0x730001
abbrev FEED_PRIORITY : Nat := 0x730002
abbrev FEED_RETURN_HOLD : Nat := 0x730003
abbrev FEED_VALID_HOLD : Nat := 0x730004
abbrev FEED_FRS_PORTS : Nat := 0x730005
abbrev FA_UV : Nat := 0x730010
abbrev FA_OV : Nat := 0x730011
abbrev FA_PD_PORT : Nat := 0x730012
abbrev FEED_IN_USE : Nat := 0x730020
abbrev FA_STATE : Nat := 0x730021
abbrev FB_STATE : Nat := 0x730022
abbrev FEED_ATTN : Nat := 0x730026
abbrev FEED_CLEAR : Nat := 0x730027
abbrev STARTS (i : Nat) : Nat := 256 * (0x9190 + i) + 0x1
abbrev FAULTS (i : Nat) : Nat := 256 * (0x9190 + i) + 0x2
abbrev FAST_TRIPS (i : Nat) : Nat := 256 * (0x9190 + i) + 0x3
abbrev LATCHES (i : Nat) : Nat := 256 * (0x9190 + i) + 0x4
abbrev SEAT_CHANGES (i : Nat) : Nat := 256 * (0x9190 + i) + 0x5
abbrev HOLDS (i : Nat) : Nat := 256 * (0x9190 + i) + 0x6
abbrev FEED_SWITCHES : Nat := 0x919801
abbrev FEED_LOSSES : Nat := 0x919802
abbrev BBM_FAILS : Nat := 0x919803
abbrev KEY_ATTR (i : Nat) : Nat := 256 * (0x7800 + i) + 0x1
abbrev KEY_KCV (i : Nat) : Nat := 256 * (0x7800 + i) + 0x2
abbrev KEY_STAGE_CFG (i : Nat) : Nat := 256 * (0x7800 + i) + 0x4
abbrev KEY_MATERIAL (i : Nat) : Nat := 256 * (0x7800 + i) + 0x5
abbrev KEY_DERIVE (i : Nat) : Nat := 256 * (0x7800 + i) + 0x6
abbrev KEY_CONTROL (i : Nat) : Nat := 256 * (0x7800 + i) + 0x7
abbrev KEY_SHADOW_KCV (i : Nat) : Nat := 256 * (0x7800 + i) + 0x8
abbrev KEY_COMMIT (i : Nat) : Nat := 256 * (0x7800 + i) + 0xA
abbrev KEY_LAST_RESULT (i : Nat) : Nat := 256 * (0x7800 + i) + 0xC
abbrev KEY_USES (i : Nat) : Nat := 256 * (0x7800 + i) + 0xD
abbrev KEY_REFUSED (i : Nat) : Nat := 256 * (0x7800 + i) + 0xE
abbrev KEY_MRAM_WRITES (i : Nat) : Nat := 256 * (0x7800 + i) + 0xF
abbrev CADDY_PHASE : Nat := 0x91A801
abbrev CADDY_ATTN : Nat := 0x91A802
abbrev ENTROPY_STATE : Nat := 0x91A803
abbrev REMASKS : Nat := 0x91A001
abbrev REPLACEMENTS : Nat := 0x91A002
abbrev KCV_MISMATCHES : Nat := 0x91A003
abbrev ORPHANED : Nat := 0x91A004
abbrev ZEROISED : Nat := 0x91A005
abbrev KEY_INTEGRITY_FAULTS : Nat := 0x91A006
abbrev MRAM_KEY_WRITES : Nat := 0x91A007
abbrev ENTROPY_FAILS : Nat := 0x91A008
abbrev STAGE_EXPIRED : Nat := 0x91A009
abbrev SAFE_STATE : Nat := 0x1F0001
abbrev SAFE_OUT_STATE : Nat := 0x1F0002
abbrev SAFE_IN_STATE : Nat := 0x1F0003
abbrev SAFE_CAUSE_FIRST : Nat := 0x1F0004
abbrev SAFE_CAUSE_TIME : Nat := 0x1F0005
abbrev SAFE_ACTIVE : Nat := 0x1F0006
abbrev SAFE_LATCHED : Nat := 0x1F0007
abbrev SAFE_RESET : Nat := 0x1F0008
abbrev SAFE_LINK_REACTION : Nat := 0x1F0009
abbrev SAFE_REMOTE_SPREAD : Nat := 0x1F000A
abbrev SAFE_ECC_LIMIT : Nat := 0x1F000B
abbrev SAFE_SIGNATURE : Nat := 0x1F000D
abbrev SELFTEST_LAST : Nat := 0x1F000E
abbrev SELFTEST_FAIL : Nat := 0x1F000F
abbrev SS_OPEN : Nat := 0x1F0102
abbrev SS_CLOSE : Nat := 0x1F0103
abbrev SS_STATE : Nat := 0x1F0104
abbrev SS_SLOT : Nat := 0x1F0105
abbrev SS_TIMEOUT : Nat := 0x1F0106
abbrev SS_SLOT_MASK : Nat := 0x1F0107
abbrev FREEZE_LOCAL : Nat := 0x1F1001
abbrev FREEZE_HOP : Nat := 0x1F1002
abbrev FREEZE_REMOTE_FULL : Nat := 0x1F1004
abbrev FREEZE_RELEASE : Nat := 0x1F1005
abbrev FREEZE_LAST : Nat := 0x1F1006
abbrev FREEZE_TIME : Nat := 0x1F1007
abbrev REMOTE_UNIT_ID (s : Nat) : Nat := 0x1F1102 + 2 * s
abbrev REMOTE_KIND (s : Nat) : Nat := 0x1F1112 + s
abbrev SAFE_STOPS : Nat := 0x91B001
abbrev HW_PATH_TRIPS : Nat := 0x91B002
abbrev FREEZES : Nat := 0x91B003
abbrev RELEASES : Nat := 0x91B004
abbrev SS_OPENS : Nat := 0x91B005
abbrev SS_REFUSED : Nat := 0x91B006
abbrev SELFTEST_RUNS : Nat := 0x91B007
abbrev SELFTEST_FAILS : Nat := 0x91B008
abbrev STALLS : Nat := 0x91B009
abbrev RAIL_FAULTS : Nat := 0x91B00A
abbrev NOTICES_SENT : Nat := 0x91B00B
abbrev NOTICES_RECEIVED : Nat := 0x91B00C
abbrev RESETS_REFUSED : Nat := 0x91B00D
abbrev PATH_WAIT : Nat := 0x11000A
abbrev BLOCK_RESET : Nat := 0x210101
abbrev RESET_CAUSE : Nat := 0x210102
abbrev STARTUP_STEP : Nat := 0x210103
abbrev RESET_COUNT : Nat := 0x210104
abbrev READY_TIME : Nat := 0x210105
abbrev BLOCK_RESET_LAST : Nat := 0x210106
abbrev TJ_NOW : Nat := 0x210201
abbrev TJ_PEAK : Nat := 0x210202
abbrev TJ_WARN : Nat := 0x210203
abbrev FFE_TOWARD (p i : Nat) : Nat := 256 * (0x3010 + 0x100 * p + i) + 0x9
abbrev CTLE_TOWARD (p i : Nat) : Nat := 256 * (0x3010 + 0x100 * p + i) + 0xA
abbrev DFE1_TOWARD (p i : Nat) : Nat := 256 * (0x3010 + 0x100 * p + i) + 0xB
abbrev DFE2_TOWARD (p i : Nat) : Nat := 256 * (0x3010 + 0x100 * p + i) + 0xC
abbrev DFE3_TOWARD (p i : Nat) : Nat := 256 * (0x3010 + 0x100 * p + i) + 0xD
abbrev SLICE_TOWARD (p i : Nat) : Nat := 256 * (0x3010 + 0x100 * p + i) + 0xE
abbrev DMA_RESERVED06 (i : Nat) : Nat := 256 * (0x5030 + i) + 0x6
abbrev DMA_ENABLE (i : Nat) : Nat := 256 * (0x5030 + i) + 0x7
abbrev TT_E31_AWAY (i : Nat) : Nat := 256 * (0x3300 + i) + 0x1
abbrev TT_E31_TOWARD (i : Nat) : Nat := 256 * (0x3300 + i) + 0x2
abbrev TT_E22_AWAY (i : Nat) : Nat := 256 * (0x3300 + i) + 0x3
abbrev TT_E22_TOWARD (i : Nat) : Nat := 256 * (0x3300 + i) + 0x4
abbrev TT_E13_AWAY (i : Nat) : Nat := 256 * (0x3300 + i) + 0x5
abbrev TT_E13_TOWARD (i : Nat) : Nat := 256 * (0x3300 + i) + 0x6
abbrev Q_RING (i s : Nat) : Nat := 256 * (0x2440 + i) + 0x10 + 4 * s
abbrev Q_HW (i s : Nat) : Nat := 256 * (0x2440 + i) + 0x11 + 4 * s
abbrev Q_SW (i s : Nat) : Nat := 256 * (0x2440 + i) + 0x12 + 4 * s
abbrev Q_BAD (i s : Nat) : Nat := 256 * (0x2440 + i) + 0x13 + 4 * s
abbrev FB_UV : Nat := 0x730018
abbrev FB_OV : Nat := 0x730019
abbrev FB_PD_PORT : Nat := 0x73001A
abbrev FA_MV : Nat := 0x730023
abbrev FB_MV : Nat := 0x730024
abbrev FEED_VOUT_MV : Nat := 0x730025
abbrev INGRESS_DROPS (s : Nat) : Nat := 0x909001 + s

end Obj

/-- Rows of the objects at 0x1000 to 0x10FF, part 0. -/
def rows10_0 : List ObjRow := [
  ⟨0x1000, 1, 1, 0x1, 1, 1, .u32, 0, .ro, 0x49584831, false, false, 0, .any, .now⟩,  -- VENDOR_CODE (R2)
  ⟨0x1000, 1, 1, 0x2, 1, 1, .u32, 0, .ro, 0x4816, false, false, 0, .any, .now⟩,  -- PART_NUMBER (R2)
  ⟨0x1000, 1, 1, 0x3, 1, 1, .u8, 0, .ro, 0xB0, false, false, 0, .any, .now⟩,  -- STEPPING (R2)
  ⟨0x1000, 1, 1, 0x4, 1, 1, .u64, 0, .ro, Config.unitId.toNat, false, false, 0, .any, .now⟩,  -- UNIT_ID (R2)
  ⟨0x1000, 1, 1, 0x6, 1, 1, .u8, 0, .ro, 1, false, false, 0, .any, .now⟩,  -- PACKAGE_CODE (R2)
  ⟨0x1000, 1, 1, 0x7, 1, 1, .enum, 0, .ro, 1, false, false, 0, .any, .now⟩,  -- TEMP_GRADE (R2)
  ⟨0x1000, 1, 1, 0x8, 1, 1, .u32, 0, .ro, 0, false, false, 0, .any, .now⟩,  -- FW_VERSION (R2)
  ⟨0x1000, 1, 1, 0x9, 1, 1, .u8, 0, .ro, 0, false, false, 0, .any, .now⟩]  -- STRAP_VALUE (R44)

/-- Rows of the objects at 0x1100 to 0x11FF, part 0. -/
def rows11_0 : List ObjRow := [
  ⟨0x1100, 1, 1, 0x1, 1, 1, .enum, 0, .rw, 0, true, false, 0, (.range 0 2), .reset⟩,  -- NODE_ROLE (R18)
  ⟨0x1100, 1, 1, 0x2, 1, 1, .enum, 0, .ro, 0, false, false, 0, .any, .now⟩,  -- ROLE_ACTIVE (R18)
  ⟨0x1100, 1, 1, 0x3, 1, 1, .u8, 0, .ro, 0, false, false, 0, .any, .now⟩,  -- TRUNK_DEPTH (R18)
  ⟨0x1100, 1, 1, 0x4, 1, 1, .u64, 0, .ro, Config.unitId.toNat, false, false, 0, .any, .now⟩,  -- ROOT_UNIT_ID (R18)
  ⟨0x1100, 1, 1, 0x6, 1, 1, .bits32, 0, .ro, 0, false, false, 0, .any, .now⟩,  -- TRUNK_END (R18)
  ⟨0x1100, 1, 1, 0x7, 1, 1, .bool, 0, .ro, 0, false, false, 0, .any, .now⟩,  -- DUAL_ATTACHED (R18)
  ⟨0x1100, 1, 1, 0x8, 1, 1, .u8, 0, .rc, 0, false, false, 0, .any, .now⟩,  -- TOPO_EVENT (R18)
  ⟨0x1100, 1, 1, 0x9, 1, 1, .bool, 0, .rw, 0, true, false, 0, .any, .reset⟩,  -- COMPOSITE_ENABLE (R88)
  ⟨0x1110, 1, 1, 0x2, 32, 2, .u64, 0, .ro, 0, false, false, 0, .any, .now⟩,  -- MEMBER_UNIT_ID (R88)
  ⟨0x1111, 1, 1, 0x2, 32, 2, .u64, 0, .ro, 0, false, false, 0, .any, .now⟩,  -- MEMBER_PATH (R88)
  ⟨0x1100, 1, 1, 0xA, 1, 1, .u16, 0, .rw, 0x64, true, false, 0, (.range 0 10000), .reset⟩]  -- PATH_WAIT (R671)

/-- Rows of the objects at 0x1200 to 0x12FF, part 0. -/
def rows12_0 : List ObjRow := [
  ⟨0x1205, 1, 1, 0x1, 1, 1, .u32, 0, .wo, 0, false, false, 0, (.oneOf [0x73746F72]), .now⟩,  -- STORE_CMD (R67)
  ⟨0x1205, 1, 1, 0x2, 1, 1, .u32, 0, .wo, 0, false, false, 0, (.oneOf [0x6C6F6164]), .now⟩,  -- RESTORE_CMD (R67)
  ⟨0x1205, 1, 1, 0x3, 1, 1, .enum, 0, .ro, 0, false, false, 0, .any, .now⟩,  -- STORE_STATUS (R67)
  ⟨0x1205, 1, 1, 0x4, 1, 1, .u32, 0, .ro, 0, false, false, 0, .any, .now⟩,  -- STORE_COUNT (R67)
  ⟨0x1203, 1, 1, 0x1, 1, 1, .u32, 0, .ro, 0, false, false, 0, .any, .now⟩,  -- EVENT_LAST (R67)
  ⟨0x1203, 1, 1, 0x2, 1, 1, .u32, 0, .rc, 0, false, false, 0, .any, .now⟩,  -- EVENT_COUNT (R67)
  ⟨0x1202, 1, 1, 0x1, 1, 1, .u32, 0, .wo, 0, false, false, 0, .any, .now⟩,  -- GROUP_COMMIT (R75)
  ⟨0x1202, 1, 1, 0x2, 1, 1, .u32, 0, .wo, 0, false, false, 0, .any, .now⟩,  -- GROUP_ABORT (R75)
  ⟨0x1202, 1, 1, 0x3, 1, 1, .u8, 0, .ro, 0, false, false, 0, .any, .now⟩,  -- GROUPS_STAGED (R75)
  ⟨0x1204, 1, 1, 0x1, 1, 1, .u32, 0, .rw, 0, false, false, 0, .any, .now⟩,  -- DESC_TARGET (R75)
  ⟨0x1204, 1, 1, 0x2, 1, 1, .u32, 0, .ro, 0, false, false, 0, .any, .now⟩,  -- DESC_INFO (R75)
  ⟨0x1204, 1, 1, 0x4, 1, 1, .u64, 0, .ro, 0, false, false, 0, .any, .now⟩,  -- DESC_DEFAULT (R75)
  ⟨0x1204, 1, 1, 0x6, 1, 1, .u32, 0, .ro, 0, false, false, 0, .any, .now⟩,  -- DESC_GROUP (R75)
  ⟨0x1210, 4, 1, 0x1, 1, 1, .u32, 0, .rw, 0, false, false, 0, .any, .now⟩,  -- SEG_TARGET (R81)
  ⟨0x1210, 4, 1, 0x2, 1, 1, .u32, 0, .rw, 0, false, false, 0, .any, .now⟩,  -- SEG_OFFSET (R81)
  ⟨0x1210, 4, 1, 0x3, 1, 1, .u32, 0, .ro, 0, false, false, 0, .any, .now⟩,  -- SEG_LENGTH (R81)
  ⟨0x1210, 4, 1, 0x4, 1, 1, .u32, 0, .wo, 0, false, false, 0, (.range 1 4), .now⟩,  -- SEG_CONTROL (R81)
  ⟨0x1210, 4, 1, 0x5, 1, 1, .u32, 0, .ro, 0, false, false, 0, .any, .now⟩,  -- SEG_STATUS (R81)
  ⟨0x1210, 4, 1, 0x10, 64, 1, .u32, 0, .rw, 0, false, false, 0, .any, .now⟩,  -- SEG_DATA (R81)
  ⟨0x1200, 1, 1, 0x1, 1, 1, .bits32, 0, .rw, 7, true, false, 0x7, .any, .now⟩,  -- HOP_ENABLE (R103)
  ⟨0x1200, 1, 1, 0x2, 1, 1, .u16, 0, .rw, 0xC5D0, true, false, 0, .any, .now⟩,  -- HOP_UDP_PORT (R103)
  ⟨0x1200, 1, 1, 0x3, 1, 1, .u32, 0, .rwp, 0, true, false, 0, .any, .now⟩,  -- HOP_IPV4_ADDR (R103)
  ⟨0x1200, 1, 1, 0x4, 1, 1, .u32, 0, .rwp, 0, true, false, 0, .contiguous, .now⟩,  -- HOP_IPV4_MASK (R103)
  ⟨0x1200, 1, 1, 0x5, 1, 1, .u32, 0, .rwp, 0, true, false, 0, .any, .now⟩]  -- HOP_IPV4_GW (R103)

/-- Rows of the objects at 0x1200 to 0x12FF, part 1. -/
def rows12_1 : List ObjRow := [
  ⟨0x1200, 1, 1, 0x6, 1, 1, .bool, 0, .rw, 0, true, false, 0, .any, .now⟩,  -- HOP_ALLOW_OPEN (R103)
  ⟨0x1200, 1, 1, 0x7, 1, 1, .u16, 0, .rw, 0x32, true, false, 0, (.range 30 1000), .now⟩,  -- HOP_FWD_TIMEOUT (R103)
  ⟨0x1200, 1, 1, 0x8, 1, 1, .u64, 0, .rw, 0, true, false, 0, .any, .now⟩]  -- HOP_SLOT_MASK (R103)

/-- Rows of the objects at 0x1F00 to 0x1FFF, part 0. -/
def rows1F_0 : List ObjRow := [
  ⟨0x1F00, 1, 1, 0x1, 1, 1, .enum, 0, .ro, 0, false, false, 0, .any, .now⟩,  -- SAFE_STATE (R648)
  ⟨0x1F00, 1, 1, 0x2, 1, 1, .bool, 0, .ro, 1, false, false, 0, .any, .now⟩,  -- SAFE_OUT_STATE (R648)
  ⟨0x1F00, 1, 1, 0x3, 1, 1, .bool, 0, .ro, 1, false, false, 0, .any, .now⟩,  -- SAFE_IN_STATE (R648)
  ⟨0x1F00, 1, 1, 0x4, 1, 1, .u32, 0, .ro, 0, false, false, 0, .any, .now⟩,  -- SAFE_CAUSE_FIRST (R648)
  ⟨0x1F00, 1, 1, 0x5, 1, 1, .time32, 0, .ro, 0, false, false, 0, .any, .now⟩,  -- SAFE_CAUSE_TIME (R648)
  ⟨0x1F00, 1, 1, 0x6, 1, 1, .bits32, 0, .ro, 0, false, false, 0, .any, .now⟩,  -- SAFE_ACTIVE (R648)
  ⟨0x1F00, 1, 1, 0x7, 1, 1, .bits32, 0, .ro, 0, false, false, 0, .any, .now⟩,  -- SAFE_LATCHED (R648)
  ⟨0x1F00, 1, 1, 0x8, 1, 1, .u8, 0, .wo, 0, false, true, 0, (.range 1 1), .now⟩,  -- SAFE_RESET (R648)
  ⟨0x1F00, 1, 1, 0x9, 1, 1, .enum, 0, .rw, 0, true, true, 0, (.range 0 1), .now⟩,  -- SAFE_LINK_REACTION (R648)
  ⟨0x1F00, 1, 1, 0xA, 1, 1, .bool, 0, .rw, 1, true, true, 0, .any, .now⟩,  -- SAFE_REMOTE_SPREAD (R648)
  ⟨0x1F00, 1, 1, 0xB, 1, 1, .u8, 0, .rw, 4, true, true, 0, (.range 1 64), .now⟩,  -- SAFE_ECC_LIMIT (R648)
  ⟨0x1F00, 1, 1, 0xD, 1, 1, .u32, 0, .ro, Config.factorySignature.toNat, false, false, 0, .any, .now⟩,  -- SAFE_SIGNATURE (R648)
  ⟨0x1F00, 1, 1, 0xE, 1, 1, .time32, 0, .ro, 0, false, false, 0, .any, .now⟩,  -- SELFTEST_LAST (R648)
  ⟨0x1F00, 1, 1, 0xF, 1, 1, .u32, 0, .ro, 0, false, false, 0, .any, .now⟩,  -- SELFTEST_FAIL (R648)
  ⟨0x1F01, 1, 1, 0x2, 1, 1, .u8, 0, .wo, 0, false, false, 0, (.range 1 1), .now⟩,  -- SS_OPEN (R649)
  ⟨0x1F01, 1, 1, 0x3, 1, 1, .u8, 0, .wo, 0, false, false, 0, (.range 1 1), .now⟩,  -- SS_CLOSE (R649)
  ⟨0x1F01, 1, 1, 0x4, 1, 1, .enum, 0, .ro, 0, false, false, 0, .any, .now⟩,  -- SS_STATE (R649)
  ⟨0x1F01, 1, 1, 0x5, 1, 1, .u8, 0, .ro, 0xFF, false, false, 0, .any, .now⟩,  -- SS_SLOT (R649)
  ⟨0x1F01, 1, 1, 0x6, 1, 1, .u16, 0, .rw, 0xA, true, true, 0, (.range 1 600), .now⟩,  -- SS_TIMEOUT (R649)
  ⟨0x1F01, 1, 1, 0x7, 1, 1, .u64, 0, .rw, 4, true, true, 0, .any, .now⟩,  -- SS_SLOT_MASK (R649)
  ⟨0x1F10, 1, 1, 0x1, 1, 1, .bits32, 0, .ro, 0, false, false, 0, .any, .now⟩,  -- FREEZE_LOCAL (R650)
  ⟨0x1F10, 1, 1, 0x2, 1, 1, .u64, 0, .ro, 0, false, false, 0, .any, .now⟩,  -- FREEZE_HOP (R650)
  ⟨0x1F10, 1, 1, 0x4, 1, 1, .bool, 0, .ro, 0, false, false, 0, .any, .now⟩,  -- FREEZE_REMOTE_FULL (R650)
  ⟨0x1F10, 1, 1, 0x5, 1, 1, .u32, 0, .wo, 0, false, true, 0xFF, .any, .now⟩]  -- FREEZE_RELEASE (R650)

/-- Rows of the objects at 0x1F00 to 0x1FFF, part 1. -/
def rows1F_1 : List ObjRow := [
  ⟨0x1F10, 1, 1, 0x6, 1, 1, .u32, 0, .ro, 0, false, false, 0, .any, .now⟩,  -- FREEZE_LAST (R650)
  ⟨0x1F10, 1, 1, 0x7, 1, 1, .time32, 0, .ro, 0, false, false, 0, .any, .now⟩,  -- FREEZE_TIME (R650)
  ⟨0x1F11, 1, 1, 0x2, 8, 2, .u64, 0, .ro, 0, false, false, 0, .any, .now⟩,  -- REMOTE_UNIT_ID (R650)
  ⟨0x1F11, 1, 1, 0x12, 8, 1, .enum, 0, .ro, 0, false, false, 0, .any, .now⟩]  -- REMOTE_KIND (R650)

/-- Rows of the objects at 0x2000 to 0x20FF, part 0. -/
def rows20_0 : List ObjRow := [
  ⟨0x2000, 1, 1, 0x1, 1, 1, .enum, 0, .ro, 0, false, false, 0, .any, .now⟩,  -- XTAL_STATE (R515)
  ⟨0x2000, 1, 1, 0x2, 1, 1, .enum, 0, .ro, 0, false, false, 0, .any, .now⟩,  -- REFCLK_STATE (R515)
  ⟨0x2000, 1, 1, 0x3, 1, 1, .enum, 0, .ro, 1, false, false, 0, .any, .now⟩,  -- RC_STATE (R515)
  ⟨0x2000, 1, 1, 0x4, 1, 1, .u16, 0, .ro, Config.rcTrimFactory, false, false, 0, .any, .now⟩,  -- RC_TRIM (R515)
  ⟨0x2000, 1, 1, 0x5, 1, 1, .enum, 0, .ro, 0, false, false, 0, .any, .now⟩,  -- RC_TRIM_SOURCE (R515)
  ⟨0x2000, 1, 1, 0x6, 1, 1, .bool, 0, .rw, 0, true, false, 0, .any, .xtal⟩,  -- RC_STANDBY (R515)
  ⟨0x2000, 1, 1, 0x7, 1, 1, .bool, 0, .rw, 0, true, false, 0, .any, .now⟩,  -- RC_TRIM_SOF (R515)
  ⟨0x2000, 1, 1, 0x8, 1, 1, .u32, 0, .ro, 0, false, false, 0, .any, .now⟩,  -- CLK_FAULT_CAUSE (R515)
  ⟨0x2000, 1, 1, 0x9, 1, 1, .time32, 0, .ro, 0, false, false, 0, .any, .now⟩,  -- CLK_FAULT_TIME (R515)
  ⟨0x2000, 1, 1, 0xA, 1, 1, .bits32, 0, .ro, 0, false, false, 0, .any, .now⟩,  -- CLK_MON_STATUS (R515)
  ⟨0x2000, 1, 1, 0xB, 1, 1, .bits32, 0, .ro, 0, false, false, 0, .any, .now⟩,  -- PLL_LOCK (R515)
  ⟨0x2010, 11, 1, 0x1, 1, 1, .enum, 0, .ro, 0, false, false, 0, .any, .now⟩,  -- CD_SOURCE (R515)
  ⟨0x2011, 1, 1, 0x2, 1, 1, .u8, 0, .rw, 2, true, false, 0, (.range 2 16), .now⟩,  -- CD_DIV_SET (R515)
  ⟨0x2012, 1, 1, 0x2, 1, 1, .u8, 0, .rw, 4, true, false, 0, (.range 4 16), .now⟩,  -- CD_DIV_SET (R515)
  ⟨0x2013, 1, 1, 0x2, 1, 1, .u8, 0, .rw, 4, true, false, 0, (.range 4 32), .now⟩,  -- CD_DIV_SET (R515)
  ⟨0x2010, 11, 1, 0x3, 1, 1, .u8, 0, .ro, 0, false, false, 0, .any, .now⟩,  -- CD_DIV (R515)
  ⟨0x2010, 11, 1, 0x4, 1, 1, .u32, 0, .ro, 0, false, false, 0, .any, .now⟩]  -- CD_FREQ (R515)

/-- Rows of the objects at 0x2100 to 0x21FF, part 0. -/
def rows21_0 : List ObjRow := [
  ⟨0x2120, 18, 1, 0x1, 1, 1, .enum, 0, .rw, 0, true, false, 0, (.range 0 2), .now⟩,  -- PD_REQ (R538)
  ⟨0x2132, 7, 1, 0x1, 1, 1, .enum, 0, .rw, 1, true, false, 0, (.range 0 2), .now⟩,  -- PD_REQ (R538)
  ⟨0x2120, 25, 1, 0x2, 1, 1, .enum, 0, .ro, 0, false, false, 0, .any, .now⟩,  -- DOM_STATE (R538)
  ⟨0x2120, 25, 1, 0x3, 1, 1, .bool, 0, .rw, 1, true, false, 0, .any, .now⟩,  -- PD_WAKE_ON_ACCESS (R538)
  ⟨0x2120, 25, 1, 0x4, 1, 1, .bool, 0, .rw, 0, true, false, 0, .any, .motCycle⟩,  -- PD_SCHED (R538)
  ⟨0x2120, 25, 1, 0x5, 1, 1, .u16, 0, .rw, 0xA, true, false, 0, (.range 0 60000), .now⟩,  -- PD_IDLE_TIMEOUT (R538)
  ⟨0x2120, 25, 1, 0x6, 1, 1, .u32, 0, .ro, 0, false, false, 0, .any, .now⟩,  -- PD_WAKE_LAST (R538)
  ⟨0x2120, 25, 1, 0x7, 1, 1, .time32, 0, .ro, 0, false, false, 0, .any, .now⟩,  -- PD_WAKE_TIME (R538)
  ⟨0x2120, 25, 1, 0x8, 1, 1, .u32, 0, .ro, 0, false, false, 0, .any, .now⟩,  -- PD_WAKE_LEAD (R538)
  ⟨0x2120, 25, 1, 0x9, 1, 1, .bits32, 0, .ro, 0, false, false, 0, .any, .now⟩,  -- PD_NEED (R538)
  ⟨0x2100, 1, 1, 0x1, 1, 1, .u32, 0, .rw, 0x1388, true, false, 0, (.range 1000 1000000), .motCycle⟩,  -- PD_MIN_DWELL (R538)
  ⟨0x2101, 1, 1, 0x1, 1, 1, .u8, 0, .wo, 0, false, true, 0, (.range 16 24), .now⟩,  -- BLOCK_RESET (R671)
  ⟨0x2101, 1, 1, 0x2, 1, 1, .enum, 0, .ro, 1, false, false, 0, .any, .now⟩,  -- RESET_CAUSE (R671)
  ⟨0x2101, 1, 1, 0x3, 1, 1, .enum, 0, .ro, 0, false, false, 0, .any, .now⟩,  -- STARTUP_STEP (R671)
  ⟨0x2101, 1, 1, 0x4, 1, 1, .u32, 0, .ro, 0, false, false, 0, .any, .now⟩,  -- RESET_COUNT (R671)
  ⟨0x2101, 1, 1, 0x5, 1, 1, .u32, 0, .ro, 0, false, false, 0, .any, .now⟩,  -- READY_TIME (R671)
  ⟨0x2101, 1, 1, 0x6, 1, 1, .u8, 0, .ro, 0xFF, false, false, 0, .any, .now⟩,  -- BLOCK_RESET_LAST (R671)
  ⟨0x2102, 1, 1, 0x1, 1, 1, .i32, 0, .ro, 0, false, false, 0, .any, .now⟩,  -- TJ_NOW (R688)
  ⟨0x2102, 1, 1, 0x2, 1, 1, .i32, 0, .rc, 0, false, false, 0, .any, .now⟩,  -- TJ_PEAK (R688)
  ⟨0x2102, 1, 1, 0x3, 1, 1, .i32, 0, .rw, 0x3E8, true, false, 0, (.range 600 1050), .now⟩]  -- TJ_WARN (R688)

/-- Rows of the objects at 0x2200 to 0x22FF, part 0. -/
def rows22_0 : List ObjRow := [
  ⟨0x2200, 1, 1, 0x1, 1, 1, .bool, 0, .rw, 1, true, false, 0, .any, .now⟩,  -- SIM_ENABLE (R539)
  ⟨0x2200, 1, 1, 0x2, 1, 1, .u8, 0, .rw, 0x19, true, false, 0, (.range 0 100), .now⟩,  -- SIM_MARGIN (R539)
  ⟨0x2200, 1, 1, 0x3, 1, 1, .u16, 0, .rw, 0x244, true, false, 0, (.range 580 800), .now⟩,  -- SIM_VMIN (R539)
  ⟨0x2200, 1, 1, 0x4, 1, 1, .u16, 0, .rw, 0x320, true, false, 0, (.range 580 800), .now⟩,  -- SIM_VMAX (R539)
  ⟨0x2200, 1, 1, 0x5, 1, 1, .u8, 0, .rw, 0x32, true, false, 0, (.rangeOr 10 100 0), .now⟩,  -- SIM_POT_RAISE (R539)
  ⟨0x2200, 1, 1, 0x6, 1, 1, .u32, 0, .rw, 0x3E8, true, false, 0, (.range 10 1000000), .now⟩,  -- SIM_DOWN_HOLD (R539)
  ⟨0x2200, 1, 1, 0x7, 1, 1, .u16, 0, .rw, 0xB4, true, false, 0, (.range 125 180), .now⟩,  -- SIM_TRANSIT_TARGET (R539)
  ⟨0x2200, 1, 1, 0x8, 1, 1, .enum, 0, .rw, 0, true, false, 0, (.range 0 3), .now⟩,  -- PL_MIN (R539)
  ⟨0x2200, 1, 1, 0x9, 1, 1, .enum, 0, .rw, 2, true, false, 0, (.range 0 3), .now⟩,  -- PL_SPILL (R539)
  ⟨0x2200, 1, 1, 0xA, 1, 1, .enum, 0, .ro, 1, false, false, 0, .any, .now⟩,  -- SIM_MODE (R539)
  ⟨0x2200, 1, 1, 0xB, 1, 1, .enum, 0, .rw, 3, true, false, 0, (.range 0 3), .now⟩,  -- PL_VSEL_LEVEL (R539)
  ⟨0x2200, 1, 1, 0xC, 1, 1, .u16, 0, .ro, 0x320, false, false, 0, .any, .now⟩,  -- VCORE_TARGET (R539)
  ⟨0x2200, 1, 1, 0xD, 1, 1, .u16, 0, .ro, 0x320, false, false, 0, .any, .now⟩,  -- VCORE_ACK (R539)
  ⟨0x2200, 1, 1, 0xE, 1, 1, .u16, 0, .ro, 0, false, false, 0, .any, .now⟩,  -- VCORE_MEASURED (R539)
  ⟨0x2200, 1, 1, 0xF, 1, 1, .enum, 0, .ro, 3, false, false, 0, .any, .now⟩,  -- PL_CURRENT (R539)
  ⟨0x2200, 1, 1, 0x10, 1, 1, .enum, 0, .ro, 0, false, false, 0, .any, .now⟩,  -- PL_FLOOR (R539)
  ⟨0x2200, 1, 1, 0x11, 1, 1, .u32, 0, .ro, 0, false, false, 0, .any, .now⟩,  -- SIM_DEMAND (R539)
  ⟨0x2200, 1, 1, 0x12, 1, 1, .u8, 0, .rw, 5, true, false, 0, (.range 1 50), .now⟩,  -- AVS_SLEW (R539)
  ⟨0x2200, 1, 1, 0x13, 1, 1, .u8, 0, .wo, 0, false, true, 0, (.range 1 1), .now⟩,  -- AVS_RESTORE (R539)
  ⟨0x2208, 1, 1, 0x1, 1, 1, .u8, 0, .wo, 0, false, false, 0, (.range 1 2), .now⟩,  -- EN_CONTROL (R539)
  ⟨0x2208, 1, 1, 0x2, 1, 1, .u32, 0, .rw, 0x3E8, false, false, 0, (.range 1 60000), .now⟩,  -- EN_WINDOW (R539)
  ⟨0x2208, 1, 1, 0x3, 1, 1, .enum, 0, .ro, 0, false, false, 0, .any, .now⟩,  -- EN_STATUS (R539)
  ⟨0x2208, 1, 1, 0x4, 1, 1, .u64, 0, .ro, 0, false, false, 0, .any, .now⟩,  -- EN_CORE_UJ (R539)
  ⟨0x2208, 1, 1, 0x6, 1, 1, .u64, 0, .ro, 0, false, false, 0, .any, .now⟩]  -- EN_TK_UJ (R539)

/-- Rows of the objects at 0x2200 to 0x22FF, part 1. -/
def rows22_1 : List ObjRow := [
  ⟨0x2208, 1, 1, 0x8, 1, 1, .u64, 0, .ro, 0, false, false, 0, .any, .now⟩,  -- EN_BITS (R539)
  ⟨0x2208, 1, 1, 0xA, 1, 1, .u32, 0, .ro, 0, false, false, 0, .any, .now⟩]  -- EN_PJ_PER_BIT (R539)

/-- Rows of the objects at 0x2300 to 0x23FF, part 0. -/
def rows23_0 : List ObjRow := [
  ⟨0x2300, 1, 1, 0x1, 6, 1, .bits32, 0, .rw, 0, false, false, 0, .any, .now⟩,  -- IC_PENDING (R496)
  ⟨0x2300, 1, 1, 0x7, 1, 1, .u8, 0, .wo, 0, false, false, 0, (.range 128 191), .now⟩,  -- IC_RAISE (R496)
  ⟨0x2300, 1, 1, 0x8, 6, 1, .bits32, 0, .ro, 0, false, false, 0, .any, .now⟩,  -- IC_ACTIVE (R496)
  ⟨0x2310, 3, 1, 0x1, 64, 1, .u32, 0, .rw, 0, true, false, 0xFF, (.lowNibble 13), .now⟩,  -- SRC_CFG (R496)
  ⟨0x2320, 14, 1, 0x1, 1, 1, .u32, 0, .rc, 0, false, false, 0, .any, .now⟩,  -- TGT_CLAIM (R496)
  ⟨0x2320, 14, 1, 0x2, 1, 1, .u32, 0, .wo, 0, false, false, 0, .any, .now⟩,  -- TGT_COMPLETE (R496)
  ⟨0x2320, 14, 1, 0x3, 1, 1, .enum, 0, .ro, 0, false, false, 0, .any, .now⟩,  -- TGT_STATE (R496)
  ⟨0x2320, 14, 1, 0x4, 1, 1, .u8, 0, .ro, 0xFF, false, false, 0, .any, .now⟩,  -- TGT_WAKE_LAST (R496)
  ⟨0x2320, 14, 1, 0x5, 1, 1, .time32, 0, .ro, 0, false, false, 0, .any, .now⟩,  -- TGT_WAKE_TIME (R496)
  ⟨0x2320, 14, 1, 0x10, 6, 1, .bits32, 0, .rw, 0, false, false, 0, .any, .now⟩]  -- TGT_MASK (R496)

/-- Rows of the objects at 0x2400 to 0x24FF, part 0. -/
def rows24_0 : List ObjRow := [
  ⟨0x2410, 12, 1, 0x1, 1, 1, .enum, 0, .rw, 1, false, true, 0, (.range 0 1), .now⟩,  -- ENG_RUN (R486)
  ⟨0x2410, 12, 1, 0x2, 1, 1, .enum, 0, .ro, 0, false, false, 0, .any, .now⟩,  -- ENG_STATE (R486)
  ⟨0x2410, 12, 1, 0x3, 1, 1, .enum, 0, .rw, 0, true, true, 0, (.range 0 1), .reset⟩,  -- ENG_MODE (R486)
  ⟨0x2410, 12, 1, 0x4, 1, 1, .enum, 0, .rw, 0, true, false, 0, (.range 0 1), .now⟩,  -- ENG_SLEEP_DEPTH (R486)
  ⟨0x2410, 12, 1, 0x5, 1, 1, .u32, 0, .rw, 0, true, false, 0, (.rangeOr 10 1000000 0), .now⟩,  -- ENG_WDOG (R486)
  ⟨0x2410, 12, 1, 0x6, 1, 1, .u8, 0, .wo, 0, false, false, 0, (.range 1 1), .now⟩,  -- ENG_KICK (R486)
  ⟨0x2410, 12, 1, 0x7, 1, 1, .u32, 0, .ro, 0, false, false, 0, .any, .now⟩,  -- ENG_FAULT_PC (R486)
  ⟨0x2410, 12, 1, 0x8, 1, 1, .u32, 0, .ro, 0, false, false, 0, .any, .now⟩,  -- ENG_FAULT_CAUSE (R486)
  ⟨0x2410, 12, 1, 0x9, 1, 1, .u8, 0, .wo, 0, false, true, 0, (.range 1 1), .now⟩,  -- ENG_RESET (R486)
  ⟨0x2400, 1, 1, 0x1, 1, 1, .enum, 0, .ro, 0, false, false, 0, .any, .now⟩,  -- FW_STATE (R487)
  ⟨0x2400, 1, 1, 0x2, 1, 1, .enum, 0, .ro, 0, false, false, 0, .any, .now⟩,  -- FW_SOURCE (R487)
  ⟨0x2400, 1, 1, 0x3, 1, 1, .enum, 0, .ro, 0, false, false, 0, .any, .now⟩,  -- FW_FAIL (R487)
  ⟨0x2400, 1, 1, 0x4, 1, 1, .u32, 0, .rw, 0, true, true, 0, .any, .now⟩,  -- FW_MIN_VERSION (R487)
  ⟨0x2400, 1, 1, 0x5, 1, 1, .u8, 0, .rw, 1, true, true, 0, (.range 1 63), .now⟩,  -- SBX_KEY_SLOT (R487)
  ⟨0x2400, 1, 1, 0x6, 1, 1, .u32, 0, .wo, 0, false, false, 0, (.oneOf [0x66776C64, 0x7362786C]), .now⟩,  -- FW_LOAD_CMD (R487)
  ⟨0x2400, 1, 1, 0x8, 1, 1, .u64, 0, .rw, 0, true, false, 0, (.aligned 0x10000000), .now⟩,  -- RC_MEM_BASE_P0 (R487)
  ⟨0x2400, 1, 1, 0xA, 1, 1, .u64, 0, .rw, 0, true, false, 0, (.aligned 0x10000000), .now⟩,  -- RC_MEM_BASE_P1 (R487)
  ⟨0x2400, 1, 1, 0x10, 1, 1, .domain, 0, .wo, 0, false, false, 0, .any, .now⟩,  -- FW_IMAGE (R487)
  ⟨0x2400, 1, 1, 0x11, 1, 1, .domain, 0, .wo, 0, false, false, 0, .any, .now⟩,  -- SBX_IMAGE (R487)
  ⟨0x2400, 1, 1, 0x12, 1, 1, .enum, 0, .ro, 0, false, false, 0, .any, .now⟩,  -- SBX_STATE (R487)
  ⟨0x24A0, 2, 1, 0x1, 8, 1, .u32, 0, .rw, 0xFFFF, true, true, 0, .any, .now⟩,  -- SBX_RANGE (R487)
  ⟨0x24A0, 2, 1, 0x9, 1, 1, .bits32, 0, .rw, 0, true, true, 0xFF, .any, .now⟩,  -- SBX_WRITE (R487)
  ⟨0x2440, 12, 1, 0x10, 8, 4, .u32, 0, .rw, 0, true, false, 0x3FFFFF, .any, .now⟩,  -- Q_RING (R474)
  ⟨0x2440, 12, 1, 0x11, 8, 4, .u16, 0, .ro, 0, false, false, 0, .any, .now⟩]  -- Q_HW (R474)

/-- Rows of the objects at 0x2400 to 0x24FF, part 1. -/
def rows24_1 : List ObjRow := [
  ⟨0x2440, 12, 1, 0x12, 8, 4, .u16, 0, .rw, 0, false, false, 0, .any, .now⟩,  -- Q_SW (R474)
  ⟨0x2440, 12, 1, 0x13, 8, 4, .u32, 0, .rc, 0, false, false, 0, .any, .now⟩]  -- Q_BAD (R474)

/-- Rows of the objects at 0x2500 to 0x25FF, part 0. -/
def rows25_0 : List ObjRow := [
  ⟨0x2510, 16, 1, 0x1, 1, 1, .u32, 0, .rwp, 0, true, false, 0, .any, .now⟩,  -- WIN_BASE (R108)
  ⟨0x2510, 16, 1, 0x2, 1, 1, .u8, 0, .rwp, 0xC, true, false, 0, (.range 12 28), .now⟩,  -- WIN_SIZE (R108)
  ⟨0x2510, 16, 1, 0x3, 1, 1, .enum, 0, .rwp, 0, true, false, 0, (.range 0 3), .now⟩,  -- WIN_TARGET (R108)
  ⟨0x2510, 16, 1, 0x4, 1, 1, .u64, 0, .rwp, 0, true, false, 0, .any, .now⟩,  -- WIN_PATH (R108)
  ⟨0x2510, 16, 1, 0x6, 1, 1, .u32, 0, .rwp, 0, true, false, 0, .any, .now⟩,  -- WIN_OFFSET (R108)
  ⟨0x2510, 16, 1, 0x7, 1, 1, .bits32, 0, .rwp, 5, true, false, 0x1F, .any, .now⟩,  -- WIN_FLAGS (R108)
  ⟨0x2510, 16, 1, 0x8, 1, 1, .u16, 0, .rw, 0x3E8, true, false, 0, (.range 100 50000), .now⟩,  -- WIN_TIMEOUT (R108)
  ⟨0x2510, 16, 1, 0x9, 1, 1, .u32, 0, .rc, 0, false, false, 0, .any, .now⟩,  -- WIN_HITS (R108)
  ⟨0x2500, 1, 1, 0x1, 1, 1, .bits32, 0, .rw, 3, true, false, 0x3, .any, .now⟩,  -- REMOTE_ALLOW (R132)
  ⟨0x2500, 1, 1, 0x2, 1, 1, .enum, 0, .rw, 2, true, false, 0, (.range 0 2), .irq⟩,  -- HOST_IRQ_ROUTE (R132)
  ⟨0x2500, 1, 1, 0x3, 1, 1, .u16, 0, .rw, 8, true, false, 0, (.range 1 4096), .sbPoll⟩,  -- SB_POLL_PERIOD (R132)
  ⟨0x2500, 1, 1, 0x4, 1, 1, .bits32, 0, .ro, 0, false, false, 0, .any, .now⟩,  -- SB_SUMMARY (R132)
  ⟨0x2500, 1, 1, 0x5, 1, 1, .u32, 0, .rc, 0, false, false, 0, .any, .now⟩,  -- SB_LOST (R132)
  ⟨0x2500, 1, 1, 0x6, 1, 1, .u32, 0, .rc, 0, false, false, 0, .any, .now⟩]  -- NP_RETRY (R132)

/-- Rows of the objects at 0x3000 to 0x30FF, part 0. -/
def rows30_0 : List ObjRow := [
  ⟨0x3000, 1, 2, 0x1, 1, 1, .bits32, 0, .rw, 0xF, true, false, 0xF, (.range 1 15), .training⟩,  -- TK_RATES_ALLOWED (R164)
  ⟨0x3000, 1, 2, 0x2, 1, 1, .enum, 0, .ro, 0, false, false, 0, .any, .now⟩,  -- TK_RATE (R164)
  ⟨0x3000, 1, 2, 0x3, 1, 1, .enum, 0, .ro, 0, false, false, 0, .any, .now⟩,  -- TK_REF_SOURCE (R164)
  ⟨0x3000, 1, 2, 0x4, 1, 1, .bool, 0, .ro, 0, false, false, 0, .any, .now⟩,  -- TK_REF_LOCK (R164)
  ⟨0x3000, 1, 2, 0x5, 1, 1, .u16, 0, .ro, 0, false, false, 0, .any, .now⟩,  -- TK_SSC_MEASURED (R164)
  ⟨0x3000, 1, 2, 0x6, 1, 1, .enum, 0, .rw, 0, false, true, 0, (.range 0 3), .now⟩,  -- TK_TEST_MODE (R164)
  ⟨0x3000, 1, 2, 0x7, 1, 1, .enum, 0, .rw, 1, false, false, 0, (.range 0 4), .tst⟩,  -- TK_PATTERN (R164)
  ⟨0x3000, 1, 2, 0x8, 1, 1, .bool, 0, .rw, 0, true, false, 0, .any, .now⟩,  -- TK_FAR_LOOP_ALLOW (R164)
  ⟨0x3000, 1, 2, 0x9, 1, 1, .enum, 0, .rw, 0, true, false, 0, (.range 0 3), .training⟩,  -- TK_CHANNEL_CLASS (R164)
  ⟨0x3010, 4, 2, 0x1, 1, 1, .enum, 0, .ro, 0, false, false, 0, .any, .now⟩,  -- LANE_STATE (R165)
  ⟨0x3010, 4, 2, 0x2, 1, 1, .enum, 0, .ro, 2, false, false, 0, .any, .now⟩,  -- LANE_DIR (R165)
  ⟨0x3010, 4, 2, 0x3, 1, 1, .bits32, 0, .ro, 0, false, false, 0, .any, .now⟩,  -- FFE_AWAY (R165)
  ⟨0x3010, 4, 2, 0x4, 1, 1, .u8, 0, .ro, 0, false, false, 0, .any, .now⟩,  -- CTLE_AWAY (R165)
  ⟨0x3010, 4, 2, 0x5, 1, 1, .bits32, 0, .ro, 0, false, false, 0, .any, .now⟩,  -- DFE1_AWAY (R165)
  ⟨0x3010, 4, 2, 0x6, 1, 1, .bits32, 0, .ro, 0, false, false, 0, .any, .now⟩,  -- DFE2_AWAY (R165)
  ⟨0x3010, 4, 2, 0x7, 1, 1, .bits32, 0, .ro, 0, false, false, 0, .any, .now⟩,  -- DFE3_AWAY (R165)
  ⟨0x3010, 4, 2, 0x8, 1, 1, .bits32, 0, .ro, 0, false, false, 0, .any, .now⟩,  -- SLICE_AWAY (R165)
  ⟨0x3010, 4, 2, 0xF, 1, 1, .u32, 0, .ro, 0, false, false, 0, .any, .now⟩,  -- SKEW_AWAY (R165)
  ⟨0x3010, 4, 2, 0x10, 1, 1, .u32, 0, .ro, 0, false, false, 0, .any, .now⟩,  -- SKEW_TOWARD (R165)
  ⟨0x3010, 4, 2, 0x11, 1, 1, .enum, 0, .rwe, 0, false, false, 0, (.range 0 1), .epoch⟩,  -- LANE_ADAPT (R165)
  ⟨0x3020, 4, 2, 0x1, 1, 1, .u32, 0, .rc, 0, false, false, 0, .any, .now⟩,  -- TST_ERRORS (R170)
  ⟨0x3020, 4, 2, 0x2, 1, 1, .u64, 0, .ro, 0, false, false, 0, .any, .now⟩,  -- TST_BITS (R170)
  ⟨0x3020, 4, 2, 0x4, 1, 1, .enum, 0, .ro, 0, false, false, 0, .any, .now⟩,  -- TST_STATUS (R170)
  ⟨0x3020, 4, 2, 0x5, 1, 1, .u8, 0, .wo, 0, false, false, 0, (.range 1 3), .now⟩]  -- TST_CONTROL (R170)

/-- Rows of the objects at 0x3000 to 0x30FF, part 1. -/
def rows30_1 : List ObjRow := [
  ⟨0x3020, 4, 2, 0x6, 1, 1, .u8, 0, .wo, 0, false, false, 0, (.range 1 2), .now⟩,  -- EYE_CONTROL (R176)
  ⟨0x3020, 4, 2, 0x7, 1, 1, .u8, 0, .rw, 0x14, false, false, 0, (.range 10 30), .now⟩,  -- EYE_DWELL (R176)
  ⟨0x3020, 4, 2, 0x8, 1, 1, .enum, 0, .ro, 0, false, false, 0, .any, .now⟩,  -- EYE_STATUS (R176)
  ⟨0x3020, 4, 2, 0x9, 1, 1, .u16, 0, .ro, 0, false, false, 0, .any, .now⟩,  -- EYE_POINTS (R176)
  ⟨0x3040, 1, 2, 0x1, 1, 1, .enum, 0, .ro, 0, false, false, 0, .any, .now⟩,  -- LINK_STATE (R214)
  ⟨0x3040, 1, 2, 0x2, 1, 1, .enum, 0, .ro, 0, false, false, 0, .any, .now⟩,  -- LINK_FAULT (R214)
  ⟨0x3040, 1, 2, 0x3, 1, 1, .u32, 0, .rc, 0, false, false, 0, .any, .now⟩,  -- LINK_UPS (R214)
  ⟨0x3040, 1, 2, 0x4, 1, 1, .u32, 0, .rc, 0, false, false, 0, .any, .now⟩,  -- LINK_DOWNS (R214)
  ⟨0x3040, 1, 2, 0x5, 1, 1, .enum, 0, .ro, 0, false, false, 0, .any, .now⟩,  -- LINK_DOWN_CAUSE (R214)
  ⟨0x3040, 1, 2, 0x6, 1, 1, .u8, 0, .wo, 0, false, true, 0, (.range 1 1), .now⟩,  -- RETRAIN_CMD (R214)
  ⟨0x3040, 1, 2, 0x7, 1, 1, .u16, 0, .rw, 0x3E8, true, false, 0, (.range 10 1000), .now⟩,  -- BACKOFF_MAX (R214)
  ⟨0x3040, 1, 2, 0x8, 1, 1, .time32, 0, .ro, 0, false, false, 0, .any, .now⟩,  -- LINK_UP_TIME (R214)
  ⟨0x3040, 1, 2, 0xA, 1, 1, .u64, 0, .ro, 0, false, false, 0, .any, .now⟩,  -- FAR_UNIT_ID (R214)
  ⟨0x3041, 1, 2, 0x1, 1, 1, .u8, 0, .rw, 0xFF, true, true, 0, (.rangeOr 0 63 0xFF), .training⟩,  -- LINK_KEY_SLOT (R214)
  ⟨0x3041, 1, 2, 0x2, 1, 1, .bits32, 0, .rw, 0, true, true, 0xFF, .any, .training⟩,  -- ENC_CLASSES (R214)
  ⟨0x3041, 1, 2, 0x3, 1, 1, .u8, 0, .ro, 0, false, false, 0, .any, .now⟩,  -- KEY_PHASE (R214)
  ⟨0x3041, 1, 2, 0x4, 1, 1, .enum, 0, .ro, 0, false, false, 0, .any, .now⟩,  -- KEY_STATE (R214)
  ⟨0x3041, 1, 2, 0x5, 1, 1, .u8, 0, .wo, 0, false, false, 0, (.range 1 1), .now⟩,  -- PHASE_CHANGE (R214)
  ⟨0x3041, 1, 2, 0x6, 1, 1, .u32, 0, .rw, 0x800000, true, false, 0, (.range 0x00010000 0x10000000), .phase⟩,  -- PHASE_INTERVAL (R214)
  ⟨0x3041, 1, 2, 0x7, 1, 1, .u32, 0, .ro, 0, false, false, 0, .any, .now⟩,  -- LINK_EPOCH_COUNT (R214)
  ⟨0x3030, 4, 2, 0x1, 1, 1, .u32, 0, .ro, 0, false, false, 0, .any, .now⟩,  -- C_PAIR (R214)
  ⟨0x3030, 4, 2, 0x2, 1, 1, .u32, 0, .ro, 0, false, false, 0, .any, .now⟩,  -- D_AWAY (R214)
  ⟨0x3030, 4, 2, 0x3, 1, 1, .u32, 0, .ro, 0, false, false, 0, .any, .now⟩,  -- D_TOWARD (R214)
  ⟨0x3010, 4, 2, 0x9, 1, 1, .bits32, 0, .ro, 0, false, false, 0, .any, .now⟩]  -- FFE_TOWARD (R164)

/-- Rows of the objects at 0x3000 to 0x30FF, part 2. -/
def rows30_2 : List ObjRow := [
  ⟨0x3010, 4, 2, 0xA, 1, 1, .u8, 0, .ro, 0, false, false, 0, .any, .now⟩,  -- CTLE_TOWARD (R164)
  ⟨0x3010, 4, 2, 0xB, 1, 1, .bits32, 0, .ro, 0, false, false, 0, .any, .now⟩,  -- DFE1_TOWARD (R164)
  ⟨0x3010, 4, 2, 0xC, 1, 1, .bits32, 0, .ro, 0, false, false, 0, .any, .now⟩,  -- DFE2_TOWARD (R164)
  ⟨0x3010, 4, 2, 0xD, 1, 1, .bits32, 0, .ro, 0, false, false, 0, .any, .now⟩,  -- DFE3_TOWARD (R164)
  ⟨0x3010, 4, 2, 0xE, 1, 1, .bits32, 0, .ro, 0, false, false, 0, .any, .now⟩]  -- SLICE_TOWARD (R164)

/-- Rows of the objects at 0x3100 to 0x31FF, part 0. -/
def rows31_0 : List ObjRow := [
  ⟨0x3000, 1, 2, 0x1, 1, 1, .bits32, 0, .rw, 0xF, true, false, 0xF, (.range 1 15), .training⟩,  -- TK_RATES_ALLOWED (R164)
  ⟨0x3000, 1, 2, 0x2, 1, 1, .enum, 0, .ro, 0, false, false, 0, .any, .now⟩,  -- TK_RATE (R164)
  ⟨0x3000, 1, 2, 0x3, 1, 1, .enum, 0, .ro, 0, false, false, 0, .any, .now⟩,  -- TK_REF_SOURCE (R164)
  ⟨0x3000, 1, 2, 0x4, 1, 1, .bool, 0, .ro, 0, false, false, 0, .any, .now⟩,  -- TK_REF_LOCK (R164)
  ⟨0x3000, 1, 2, 0x5, 1, 1, .u16, 0, .ro, 0, false, false, 0, .any, .now⟩,  -- TK_SSC_MEASURED (R164)
  ⟨0x3000, 1, 2, 0x6, 1, 1, .enum, 0, .rw, 0, false, true, 0, (.range 0 3), .now⟩,  -- TK_TEST_MODE (R164)
  ⟨0x3000, 1, 2, 0x7, 1, 1, .enum, 0, .rw, 1, false, false, 0, (.range 0 4), .tst⟩,  -- TK_PATTERN (R164)
  ⟨0x3000, 1, 2, 0x8, 1, 1, .bool, 0, .rw, 0, true, false, 0, .any, .now⟩,  -- TK_FAR_LOOP_ALLOW (R164)
  ⟨0x3000, 1, 2, 0x9, 1, 1, .enum, 0, .rw, 0, true, false, 0, (.range 0 3), .training⟩,  -- TK_CHANNEL_CLASS (R164)
  ⟨0x3010, 4, 2, 0x1, 1, 1, .enum, 0, .ro, 0, false, false, 0, .any, .now⟩,  -- LANE_STATE (R165)
  ⟨0x3010, 4, 2, 0x2, 1, 1, .enum, 0, .ro, 2, false, false, 0, .any, .now⟩,  -- LANE_DIR (R165)
  ⟨0x3010, 4, 2, 0x3, 1, 1, .bits32, 0, .ro, 0, false, false, 0, .any, .now⟩,  -- FFE_AWAY (R165)
  ⟨0x3010, 4, 2, 0x4, 1, 1, .u8, 0, .ro, 0, false, false, 0, .any, .now⟩,  -- CTLE_AWAY (R165)
  ⟨0x3010, 4, 2, 0x5, 1, 1, .bits32, 0, .ro, 0, false, false, 0, .any, .now⟩,  -- DFE1_AWAY (R165)
  ⟨0x3010, 4, 2, 0x6, 1, 1, .bits32, 0, .ro, 0, false, false, 0, .any, .now⟩,  -- DFE2_AWAY (R165)
  ⟨0x3010, 4, 2, 0x7, 1, 1, .bits32, 0, .ro, 0, false, false, 0, .any, .now⟩,  -- DFE3_AWAY (R165)
  ⟨0x3010, 4, 2, 0x8, 1, 1, .bits32, 0, .ro, 0, false, false, 0, .any, .now⟩,  -- SLICE_AWAY (R165)
  ⟨0x3010, 4, 2, 0xF, 1, 1, .u32, 0, .ro, 0, false, false, 0, .any, .now⟩,  -- SKEW_AWAY (R165)
  ⟨0x3010, 4, 2, 0x10, 1, 1, .u32, 0, .ro, 0, false, false, 0, .any, .now⟩,  -- SKEW_TOWARD (R165)
  ⟨0x3010, 4, 2, 0x11, 1, 1, .enum, 0, .rwe, 0, false, false, 0, (.range 0 1), .epoch⟩,  -- LANE_ADAPT (R165)
  ⟨0x3020, 4, 2, 0x1, 1, 1, .u32, 0, .rc, 0, false, false, 0, .any, .now⟩,  -- TST_ERRORS (R170)
  ⟨0x3020, 4, 2, 0x2, 1, 1, .u64, 0, .ro, 0, false, false, 0, .any, .now⟩,  -- TST_BITS (R170)
  ⟨0x3020, 4, 2, 0x4, 1, 1, .enum, 0, .ro, 0, false, false, 0, .any, .now⟩,  -- TST_STATUS (R170)
  ⟨0x3020, 4, 2, 0x5, 1, 1, .u8, 0, .wo, 0, false, false, 0, (.range 1 3), .now⟩]  -- TST_CONTROL (R170)

/-- Rows of the objects at 0x3100 to 0x31FF, part 1. -/
def rows31_1 : List ObjRow := [
  ⟨0x3020, 4, 2, 0x6, 1, 1, .u8, 0, .wo, 0, false, false, 0, (.range 1 2), .now⟩,  -- EYE_CONTROL (R176)
  ⟨0x3020, 4, 2, 0x7, 1, 1, .u8, 0, .rw, 0x14, false, false, 0, (.range 10 30), .now⟩,  -- EYE_DWELL (R176)
  ⟨0x3020, 4, 2, 0x8, 1, 1, .enum, 0, .ro, 0, false, false, 0, .any, .now⟩,  -- EYE_STATUS (R176)
  ⟨0x3020, 4, 2, 0x9, 1, 1, .u16, 0, .ro, 0, false, false, 0, .any, .now⟩,  -- EYE_POINTS (R176)
  ⟨0x3040, 1, 2, 0x1, 1, 1, .enum, 0, .ro, 0, false, false, 0, .any, .now⟩,  -- LINK_STATE (R214)
  ⟨0x3040, 1, 2, 0x2, 1, 1, .enum, 0, .ro, 0, false, false, 0, .any, .now⟩,  -- LINK_FAULT (R214)
  ⟨0x3040, 1, 2, 0x3, 1, 1, .u32, 0, .rc, 0, false, false, 0, .any, .now⟩,  -- LINK_UPS (R214)
  ⟨0x3040, 1, 2, 0x4, 1, 1, .u32, 0, .rc, 0, false, false, 0, .any, .now⟩,  -- LINK_DOWNS (R214)
  ⟨0x3040, 1, 2, 0x5, 1, 1, .enum, 0, .ro, 0, false, false, 0, .any, .now⟩,  -- LINK_DOWN_CAUSE (R214)
  ⟨0x3040, 1, 2, 0x6, 1, 1, .u8, 0, .wo, 0, false, true, 0, (.range 1 1), .now⟩,  -- RETRAIN_CMD (R214)
  ⟨0x3040, 1, 2, 0x7, 1, 1, .u16, 0, .rw, 0x3E8, true, false, 0, (.range 10 1000), .now⟩,  -- BACKOFF_MAX (R214)
  ⟨0x3040, 1, 2, 0x8, 1, 1, .time32, 0, .ro, 0, false, false, 0, .any, .now⟩,  -- LINK_UP_TIME (R214)
  ⟨0x3040, 1, 2, 0xA, 1, 1, .u64, 0, .ro, 0, false, false, 0, .any, .now⟩,  -- FAR_UNIT_ID (R214)
  ⟨0x3041, 1, 2, 0x1, 1, 1, .u8, 0, .rw, 0xFF, true, true, 0, (.rangeOr 0 63 0xFF), .training⟩,  -- LINK_KEY_SLOT (R214)
  ⟨0x3041, 1, 2, 0x2, 1, 1, .bits32, 0, .rw, 0, true, true, 0xFF, .any, .training⟩,  -- ENC_CLASSES (R214)
  ⟨0x3041, 1, 2, 0x3, 1, 1, .u8, 0, .ro, 0, false, false, 0, .any, .now⟩,  -- KEY_PHASE (R214)
  ⟨0x3041, 1, 2, 0x4, 1, 1, .enum, 0, .ro, 0, false, false, 0, .any, .now⟩,  -- KEY_STATE (R214)
  ⟨0x3041, 1, 2, 0x5, 1, 1, .u8, 0, .wo, 0, false, false, 0, (.range 1 1), .now⟩,  -- PHASE_CHANGE (R214)
  ⟨0x3041, 1, 2, 0x6, 1, 1, .u32, 0, .rw, 0x800000, true, false, 0, (.range 0x00010000 0x10000000), .phase⟩,  -- PHASE_INTERVAL (R214)
  ⟨0x3041, 1, 2, 0x7, 1, 1, .u32, 0, .ro, 0, false, false, 0, .any, .now⟩,  -- LINK_EPOCH_COUNT (R214)
  ⟨0x3030, 4, 2, 0x1, 1, 1, .u32, 0, .ro, 0, false, false, 0, .any, .now⟩,  -- C_PAIR (R214)
  ⟨0x3030, 4, 2, 0x2, 1, 1, .u32, 0, .ro, 0, false, false, 0, .any, .now⟩,  -- D_AWAY (R214)
  ⟨0x3030, 4, 2, 0x3, 1, 1, .u32, 0, .ro, 0, false, false, 0, .any, .now⟩,  -- D_TOWARD (R214)
  ⟨0x3010, 4, 2, 0x9, 1, 1, .bits32, 0, .ro, 0, false, false, 0, .any, .now⟩]  -- FFE_TOWARD (R164)

/-- Rows of the objects at 0x3100 to 0x31FF, part 2. -/
def rows31_2 : List ObjRow := [
  ⟨0x3010, 4, 2, 0xA, 1, 1, .u8, 0, .ro, 0, false, false, 0, .any, .now⟩,  -- CTLE_TOWARD (R164)
  ⟨0x3010, 4, 2, 0xB, 1, 1, .bits32, 0, .ro, 0, false, false, 0, .any, .now⟩,  -- DFE1_TOWARD (R164)
  ⟨0x3010, 4, 2, 0xC, 1, 1, .bits32, 0, .ro, 0, false, false, 0, .any, .now⟩,  -- DFE2_TOWARD (R164)
  ⟨0x3010, 4, 2, 0xD, 1, 1, .bits32, 0, .ro, 0, false, false, 0, .any, .now⟩,  -- DFE3_TOWARD (R164)
  ⟨0x3010, 4, 2, 0xE, 1, 1, .bits32, 0, .ro, 0, false, false, 0, .any, .now⟩]  -- SLICE_TOWARD (R164)

/-- Rows of the objects at 0x3200 to 0x32FF, part 0. -/
def rows32_0 : List ObjRow := [
  ⟨0x3200, 1, 1, 0x1, 1, 1, .u8, 0, .rw, 0, true, false, 0, (.range 0 9), .epoch⟩,  -- PLAN_ENGINE (R246)
  ⟨0x3200, 1, 1, 0x2, 1, 1, .u8, 0, .rw, 0x28, true, false, 0, (.range 10 45), .epoch⟩,  -- PLAN_DEADLINE (R246)
  ⟨0x3202, 2, 1, 0x1, 1, 1, .enum, 0, .rwe, 0, true, false, 0, (.range 0 1), .epoch⟩,  -- ALLOT_MODE (R246)
  ⟨0x3202, 2, 1, 0x2, 1, 1, .enum, 0, .rwe, 2, true, false, 0, (.oneOf [0, 2, 3, 4, 6, 7, 8, 10, 11, 12, 14, 15]), .epoch⟩,  -- ALLOT_FIXED (R246)
  ⟨0x3202, 2, 1, 0x3, 1, 1, .bits32, 0, .rwe, 0xDDDD, true, false, 0, (.subsetNZ 0xDDDD), .epoch⟩,  -- ALLOT_PERMIT (R246)
  ⟨0x3202, 2, 1, 0x4, 1, 1, .enum, 0, .rw, 2, true, false, 0, (.oneOf [0, 2, 3, 4, 6, 7, 8, 10, 11, 12, 14, 15]), .training⟩,  -- ALLOT_INITIAL (R246)
  ⟨0x3202, 2, 1, 0x5, 1, 1, .u8, 0, .rwe, 0x19, true, false, 0, (.range 0 100), .epoch⟩,  -- PLAN_HEADROOM (R246)
  ⟨0x3202, 2, 1, 0x6, 1, 1, .u16, 0, .rwe, 0x28, true, false, 0, (.range 1 8000), .epoch⟩,  -- PLAN_DOWN_HOLD (R246)
  ⟨0x3204, 2, 1, 0x1, 1, 1, .enum, 0, .ro, 0x10, false, false, 0, .any, .now⟩,  -- ALLOT_CURRENT (R247)
  ⟨0x3204, 2, 1, 0x2, 1, 1, .u32, 0, .ro, 0, false, false, 0, .any, .now⟩,  -- ALLOT_SINCE (R247)
  ⟨0x3204, 2, 1, 0x3, 1, 1, .u32, 0, .ro, 0, false, false, 0, .any, .now⟩,  -- PAYLOAD_AWAY (R247)
  ⟨0x3204, 2, 1, 0x4, 1, 1, .u32, 0, .ro, 0, false, false, 0, .any, .now⟩,  -- PAYLOAD_TOWARD (R247)
  ⟨0x3204, 2, 1, 0x5, 1, 1, .bits32, 0, .ro, 0, false, false, 0, .any, .now⟩,  -- ALLOT_USABLE (R247)
  ⟨0x3204, 2, 1, 0x6, 1, 1, .bits32, 0, .ro, 0, false, false, 0, .any, .now⟩,  -- FAR_PERMIT (R247)
  ⟨0x3204, 2, 1, 0x7, 1, 1, .enum, 0, .ro, 0x10, false, false, 0, .any, .now⟩,  -- ALLOT_NEXT (R247)
  ⟨0x3204, 2, 1, 0x8, 1, 1, .enum, 0, .ro, 0x10, false, false, 0, .any, .now⟩,  -- ALLOT_AFTER (R247)
  ⟨0x3204, 2, 1, 0x9, 1, 1, .u16, 0, .ro, 0, false, false, 0, .any, .now⟩,  -- DOWN_COUNT (R247)
  ⟨0x3204, 2, 1, 0xA, 1, 1, .u8, 0, .wo, 0, false, false, 0, (.range 0 15), .now⟩,  -- PLAN_CHOICE (R247)
  ⟨0x3208, 2, 1, 0x1, 8, 1, .u16, 0, .ro, 0, false, false, 0, .any, .now⟩,  -- OCC_LOCAL (R248)
  ⟨0x3208, 2, 1, 0x9, 8, 1, .u16, 0, .ro, 0, false, false, 0, .any, .now⟩,  -- OCC_FAR (R248)
  ⟨0x3208, 2, 1, 0x11, 8, 1, .u16, 0, .ro, 0, false, false, 0, .any, .now⟩,  -- ENQ_LOCAL (R248)
  ⟨0x3208, 2, 1, 0x19, 8, 1, .u16, 0, .ro, 0, false, false, 0, .any, .now⟩,  -- ENQ_FAR (R248)
  ⟨0x3206, 2, 1, 0x1, 1, 1, .u8, 0, .wo, 0, false, true, 0, (.range 1 1), .now⟩,  -- SWAP_CMD (R249)
  ⟨0x3206, 2, 1, 0x2, 1, 1, .bool, 0, .rw, 1, true, false, 0, .any, .now⟩]  -- SWAP_AUTO (R249)

/-- Rows of the objects at 0x3200 to 0x32FF, part 1. -/
def rows32_1 : List ObjRow := [
  ⟨0x3206, 2, 1, 0x3, 1, 1, .u16, 0, .rw, 0x64, true, false, 0, (.range 10 10000), .now⟩,  -- SWAP_HOLD (R249)
  ⟨0x3206, 2, 1, 0x4, 1, 1, .enum, 0, .ro, 0, false, false, 0, .any, .now⟩,  -- SWAP_STATE (R249)
  ⟨0x3206, 2, 1, 0x5, 1, 1, .enum, 0, .ro, 0, false, false, 0, .any, .now⟩,  -- SWAP_RESULT (R249)
  ⟨0x3206, 2, 1, 0x6, 1, 1, .u8, 0, .ro, 0, false, false, 0, .any, .now⟩,  -- SWAP_REASON (R249)
  ⟨0x3206, 2, 1, 0x7, 1, 1, .u32, 0, .ro, 0, false, false, 0, .any, .now⟩]  -- SWAP_BOUNDARY (R249)

/-- Rows of the objects at 0x3300 to 0x33FF, part 0. -/
def rows33_0 : List ObjRow := [
  ⟨0x3300, 2, 1, 0x7, 1, 1, .i32, 0, .rwe, 0, true, false, 0, (.signed 2000 2000), .epoch⟩,  -- TT_ASYM_TRIM (R408)
  ⟨0x3300, 2, 1, 0x8, 1, 1, .i32, 0, .ro, 0, false, false, 0, .any, .now⟩,  -- TT_DELTA (R408)
  ⟨0x3300, 2, 1, 0x9, 1, 1, .enum, 0, .ro, 0, false, false, 0, .any, .now⟩,  -- TT_ROLE (R408)
  ⟨0x3300, 2, 1, 0x1, 1, 1, .u32, 0, .ro, 0, false, false, 0, .any, .now⟩,  -- TT_E31_AWAY (R409)
  ⟨0x3300, 2, 1, 0x2, 1, 1, .u32, 0, .ro, 0, false, false, 0, .any, .now⟩,  -- TT_E31_TOWARD (R409)
  ⟨0x3300, 2, 1, 0x3, 1, 1, .u32, 0, .ro, 0, false, false, 0, .any, .now⟩,  -- TT_E22_AWAY (R409)
  ⟨0x3300, 2, 1, 0x4, 1, 1, .u32, 0, .ro, 0, false, false, 0, .any, .now⟩,  -- TT_E22_TOWARD (R409)
  ⟨0x3300, 2, 1, 0x5, 1, 1, .u32, 0, .ro, 0, false, false, 0, .any, .now⟩,  -- TT_E13_AWAY (R409)
  ⟨0x3300, 2, 1, 0x6, 1, 1, .u32, 0, .ro, 0, false, false, 0, .any, .now⟩]  -- TT_E13_TOWARD (R409)

/-- Rows of the objects at 0x4000 to 0x40FF, part 0. -/
def rows40_0 : List ObjRow := [
  ⟨0x4000, 1, 1, 0x1, 1, 1, .u32, 0, .ro, 0, false, false, 0, .any, .now⟩,  -- CORE_DELIVERED (R281)
  ⟨0x4000, 1, 1, 0x2, 1, 1, .u32, 0, .ro, 0x20000, false, false, 0, .any, .now⟩,  -- POT_ENTRIES (R281)
  ⟨0x4000, 1, 1, 0x3, 1, 1, .u32, 0, .ro, 0, false, false, 0, .any, .now⟩,  -- POT_OCC (R281)
  ⟨0x4000, 1, 1, 0x4, 1, 1, .u32, 0, .rc, 0, false, false, 0, .any, .now⟩,  -- POT_OCC_PEAK (R281)
  ⟨0x4000, 1, 1, 0x5, 1, 1, .u32, 0, .ro, 0x1FC00, false, false, 0, .any, .now⟩,  -- SHARED_SIZE (R281)
  ⟨0x4000, 1, 1, 0x6, 1, 1, .u32, 0, .ro, 0, false, false, 0, .any, .now⟩,  -- SHARED_USED (R281)
  ⟨0x4000, 1, 1, 0x7, 1, 1, .u32, 0, .ro, 0, false, false, 0, .any, .now⟩,  -- FLOOR_SUM (R281)
  ⟨0x4000, 1, 1, 0x8, 1, 1, .bool, 0, .rw, 1, true, false, 0, .any, .now⟩,  -- CUT_THROUGH_EN (R281)
  ⟨0x4001, 1, 1, 0x1, 1, 1, .u8, 0, .rw, 1, true, false, 0, (.range 0 7), .now⟩,  -- DT_ALPHA (R281)
  ⟨0x4001, 1, 1, 0x2, 1, 1, .u8, 0, .rw, 2, true, false, 0, (.range 0 7), .now⟩,  -- DT_ALPHA (R281)
  ⟨0x4001, 1, 1, 0x3, 1, 1, .u8, 0, .rw, 3, true, false, 0, (.range 0 7), .now⟩,  -- DT_ALPHA (R281)
  ⟨0x4001, 1, 1, 0x4, 1, 1, .u8, 0, .rw, 4, true, false, 0, (.range 0 7), .now⟩,  -- DT_ALPHA (R281)
  ⟨0x4001, 1, 1, 0x5, 1, 1, .u8, 0, .rw, 5, true, false, 0, (.range 0 7), .now⟩,  -- DT_ALPHA (R281)
  ⟨0x4001, 1, 1, 0x6, 1, 1, .u8, 0, .rw, 6, true, false, 0, (.range 0 7), .now⟩,  -- DT_ALPHA (R281)
  ⟨0x4001, 1, 1, 0x9, 1, 1, .bits32, 0, .rw, 0, true, false, 0, (.subset 0x3F), .now⟩,  -- LEND_CLASSES (R281)
  ⟨0x4001, 1, 1, 0x11, 8, 1, .u32, 0, .ro, 0, false, false, 0, .any, .now⟩,  -- CLASS_OCC (R281)
  ⟨0x4001, 1, 1, 0x19, 8, 1, .u32, 0, .ro, 0, false, false, 0, .any, .now⟩,  -- CLASS_SHARED (R281)
  ⟨0x4003, 1, 1, 0x1, 1, 1, .bool, 0, .rw, 1, true, false, 0, .any, .now⟩,  -- SPILL_ENABLE (R281)
  ⟨0x4003, 1, 1, 0x2, 1, 1, .u32, 0, .rwp, 0, true, false, 0, (.aligned 0x100000), .now⟩,  -- SPILL_BASE (R281)
  ⟨0x4003, 1, 1, 0x3, 1, 1, .u16, 0, .rwp, 0, true, false, 0, (.range 0 4096), .now⟩,  -- SPILL_SIZE (R281)
  ⟨0x4003, 1, 1, 0x4, 1, 1, .u32, 0, .ro, 0, false, false, 0, .any, .now⟩,  -- SPILL_USED (R281)
  ⟨0x4003, 1, 1, 0x5, 1, 1, .bool, 0, .ro, 0, false, false, 0, .any, .now⟩,  -- SPILL_ACTIVE (R281)
  ⟨0x4004, 1, 1, 0x1, 1, 1, .bits32, 0, .rwe, 0xAAAA, true, false, 0xFFFF, .any, .epoch⟩,  -- PIN_MAP (R281)
  ⟨0x4004, 1, 1, 0x2, 1, 1, .bits32, 0, .ro, 0xAAAA, false, false, 0, .any, .now⟩]  -- PIN_EFFECTIVE (R281)

/-- Rows of the objects at 0x4000 to 0x40FF, part 1. -/
def rows40_1 : List ObjRow := [
  ⟨0x4004, 1, 1, 0x3, 1, 1, .u16, 0, .rw, 0x3E8, true, false, 0, (.range 100 60000), .linkUp⟩]  -- PIN_REVERT_HOLD (R281)

/-- Rows of the objects at 0x4100 to 0x41FF, part 0. -/
def rows41_0 : List ObjRow := [
  ⟨0x4100, 1, 1, 0x1, 1, 1, .u8, 0, .rw, 1, true, false, 0, (.range 1 255), .now⟩,  -- CLASS_WEIGHT (R289)
  ⟨0x4100, 1, 1, 0x2, 1, 1, .u8, 0, .rw, 2, true, false, 0, (.range 1 255), .now⟩,  -- CLASS_WEIGHT (R289)
  ⟨0x4100, 1, 1, 0x3, 1, 1, .u8, 0, .rw, 4, true, false, 0, (.range 1 255), .now⟩,  -- CLASS_WEIGHT (R289)
  ⟨0x4100, 1, 1, 0x4, 1, 1, .u8, 0, .rw, 8, true, false, 0, (.range 1 255), .now⟩,  -- CLASS_WEIGHT (R289)
  ⟨0x4100, 1, 1, 0x5, 1, 1, .u8, 0, .rw, 8, true, false, 0, (.range 1 255), .now⟩,  -- CLASS_WEIGHT (R289)
  ⟨0x4100, 1, 1, 0x6, 1, 1, .u8, 0, .rw, 0x10, true, false, 0, (.range 1 255), .now⟩,  -- CLASS_WEIGHT (R289)
  ⟨0x4100, 1, 1, 0x7, 1, 1, .u8, 0, .rw, 0x10, true, false, 0, (.range 1 255), .now⟩,  -- CLASS_WEIGHT (R289)
  ⟨0x4100, 1, 1, 0x8, 1, 1, .u8, 0, .rw, 0x10, true, false, 0, (.range 1 255), .now⟩,  -- CLASS_WEIGHT (R289)
  ⟨0x4100, 1, 1, 0x9, 1, 1, .bits32, 0, .rw, 0xC0, true, false, 0xFF, (.range 128 255), .now⟩,  -- STRICT_CLASSES (R289)
  ⟨0x4110, 15, 1, 0x1, 1, 1, .u32, 0, .ro, 0, false, false, 0, .any, .now⟩,  -- PORT_RATE (R296)
  ⟨0x4110, 15, 1, 0x2, 1, 1, .u32, 0, .rw, 0, true, false, 0, (.rangeOr 1 300000 0), .now⟩,  -- PORT_LIMIT (R296)
  ⟨0x4110, 15, 1, 0x3, 1, 1, .u32, 0, .ro, 0, false, false, 0, .any, .now⟩,  -- PORT_NEXT_RATE (R296)
  ⟨0x4110, 15, 1, 0x4, 1, 1, .u32, 0, .ro, 0, false, false, 0, .any, .now⟩,  -- COMMIT_SUM (R296)
  ⟨0x4110, 15, 1, 0x5, 1, 1, .u16, 0, .ro, 0x400, false, false, 0, .any, .now⟩,  -- RESCALE (R296)
  ⟨0x4120, 2, 1, 0x1, 1, 1, .bool, 0, .rwp, 0, true, false, 0, .any, .gateCycle⟩,  -- GATE_ENABLE (R301)
  ⟨0x4120, 2, 1, 0x2, 1, 1, .u8, 0, .rwp, 1, true, false, 0, (.range 0 7), .gateCycle⟩,  -- GATE_PERIOD (R301)
  ⟨0x4120, 2, 1, 0x3, 1, 1, .u32, 0, .rwp, 0, true, false, 0, .any, .gateCycle⟩,  -- GATE_OFFSET (R301)
  ⟨0x4120, 2, 1, 0x4, 1, 1, .u8, 0, .rwp, 1, true, false, 0, (.range 1 8), .gateCycle⟩,  -- GATE_ENTRIES (R301)
  ⟨0x4120, 2, 1, 0x10, 8, 1, .u32, 0, .rwp, 0, true, false, 0, .any, .gateCycle⟩,  -- GATE_TIME (R301)
  ⟨0x4120, 2, 1, 0x18, 8, 1, .u8, 0, .rwp, 0xFF, true, false, 0, .any, .gateCycle⟩,  -- GATE_OPEN (R301)
  ⟨0x4120, 2, 1, 0x20, 1, 1, .u8, 0, .ro, 0xFF, false, false, 0, .any, .now⟩]  -- GATE_CURRENT (R301)

/-- Rows of the objects at 0x5000 to 0x50FF, part 0. -/
def rows50_0 : List ObjRow := [
  ⟨0x5000, 1, 1, 0x1, 1, 1, .u16, 0, .ro, 0, false, false, 0, .any, .now⟩,  -- NP_INFLIGHT (R339)
  ⟨0x5000, 1, 1, 0x2, 1, 1, .u16, 0, .rc, 0, false, false, 0, .any, .now⟩,  -- NP_PEAK (R339)
  ⟨0x5000, 1, 1, 0x3, 1, 1, .u32, 0, .rw, 0x2710, true, false, 0, (.range 1000 1000000), .now⟩,  -- NP_TIMEOUT (R339)
  ⟨0x5000, 1, 1, 0x4, 1, 1, .bool, 0, .rw, 1, true, false, 0, .any, .now⟩,  -- SLOT_AUTO (R339)
  ⟨0x5010, 1, 1, 0x1, 1, 1, .enum, 0, .rw, 1, true, false, 0, (.range 0 2), .reset⟩,  -- PCIE_ROLE (R339)
  ⟨0x5011, 1, 1, 0x1, 1, 1, .enum, 0, .rw, 2, true, false, 0, (.range 0 2), .reset⟩,  -- PCIE_ROLE (R339)
  ⟨0x5010, 2, 1, 0x2, 1, 1, .enum, 0, .rw, 1, true, false, 0, (.range 0 1), .reset⟩,  -- PCIE_RP_OWNER (R339)
  ⟨0x5010, 2, 1, 0x3, 1, 1, .enum, 0, .rw, 5, true, false, 0, (.range 1 5), .pcieTrain⟩,  -- PCIE_MAX_SPEED (R339)
  ⟨0x5010, 2, 1, 0x4, 1, 1, .enum, 0, .rw, 3, true, false, 0, (.range 1 3), .pcieTrain⟩,  -- PCIE_MAX_WIDTH (R339)
  ⟨0x5010, 2, 1, 0x5, 1, 1, .bits32, 0, .rw, 7, true, false, 0x7, .any, .pcieTrain⟩,  -- PCIE_ASPM (R339)
  ⟨0x5010, 2, 1, 0x6, 1, 1, .bool, 0, .rw, 0, true, false, 0, .any, .now⟩,  -- PCIE_ECRC (R339)
  ⟨0x5010, 2, 1, 0x7, 1, 1, .enum, 0, .ro, 0, false, false, 0, .any, .now⟩,  -- PCIE_LINK (R339)
  ⟨0x5010, 2, 1, 0x8, 1, 1, .enum, 0, .ro, 0, false, false, 0, .any, .now⟩,  -- PCIE_SPEED (R339)
  ⟨0x5010, 2, 1, 0x9, 1, 1, .enum, 0, .ro, 0, false, false, 0, .any, .now⟩,  -- PCIE_WIDTH (R339)
  ⟨0x5010, 2, 1, 0xA, 1, 1, .u8, 0, .ro, 0, false, false, 0, .any, .now⟩,  -- PCIE_DEVICE (R339)
  ⟨0x5020, 1, 1, 0x2, 31, 2, .u64, 0, .rwp, 0, true, false, 0, .any, .now⟩,  -- SLOT_UNIT_ID (R339)
  ⟨0x5021, 1, 1, 0x1, 31, 1, .u8, 0, .rwp, 0xFF, true, false, 0, (.rangeOr 0 1 0xFF), .now⟩,  -- SLOT_PORT (R339)
  ⟨0x5021, 1, 1, 0x21, 31, 1, .enum, 0, .ro, 0, false, false, 0, .any, .now⟩,  -- PCIE_SLOT_STATE (R339)
  ⟨0x5030, 64, 1, 0x1, 1, 1, .u64, 0, .rwp, 0, true, false, 0, .any, .dmaFetch⟩,  -- DMA_RING (R339)
  ⟨0x5030, 64, 1, 0x3, 1, 1, .u8, 0, .rwp, 4, true, false, 0, (.range 4 12), .dmaFetch⟩,  -- DMA_RING_LOG2 (R339)
  ⟨0x5030, 64, 1, 0x4, 1, 1, .enum, 0, .rwp, 0, true, false, 0, (.range 0 1), .dmaFetch⟩,  -- DMA_DIR (R339)
  ⟨0x5030, 64, 1, 0x5, 1, 1, .u8, 0, .rwp, 0, true, false, 0, .any, .dmaFetch⟩,  -- DMA_OWNER (R339)
  ⟨0x5030, 64, 1, 0x8, 1, 1, .u32, 0, .rw, 0, false, false, 0, .any, .now⟩,  -- DMA_TAIL (R339)
  ⟨0x5030, 64, 1, 0x9, 1, 1, .u32, 0, .ro, 0, false, false, 0, .any, .now⟩]  -- DMA_HEAD (R339)

/-- Rows of the objects at 0x5000 to 0x50FF, part 1. -/
def rows50_1 : List ObjRow := [
  ⟨0x5030, 64, 1, 0xA, 1, 1, .enum, 0, .ro, 0, false, false, 0, .any, .now⟩,  -- DMA_STATUS (R339)
  ⟨0x5030, 64, 1, 0xB, 1, 1, .u32, 0, .rc, 0, false, false, 0, .any, .now⟩,  -- DMA_BYTES (R339)
  ⟨0x5030, 64, 1, 0x6, 1, 1, .u32, 0, .ro, 0, false, false, 0, .any, .now⟩,  -- DMA_RESERVED06 (R339)
  ⟨0x5030, 64, 1, 0x7, 1, 1, .bool, 0, .rwp, 0, true, false, 0, .any, .dmaFetch⟩]  -- DMA_ENABLE (R339)

/-- Rows of the objects at 0x5100 to 0x51FF, part 0. -/
def rows51_0 : List ObjRow := [
  ⟨0x5100, 1, 1, 0x1, 1, 1, .bits32, 0, .rw, 0, true, false, 0xF, .any, .now⟩,  -- CAM_RX_ENABLE (R341)
  ⟨0x5104, 4, 1, 0x1, 1, 1, .enum, 0, .rw, 3, true, false, 0, (.range 1 3), .camEnable⟩,  -- CSI_LANES (R341)
  ⟨0x5104, 4, 1, 0x2, 1, 1, .u8, 0, .rw, 0xE4, true, false, 0, .any, .camEnable⟩,  -- CSI_LANE_MAP (R341)
  ⟨0x5104, 4, 1, 0x3, 1, 1, .u8, 0, .rw, 0, true, false, 0x1F, .any, .camEnable⟩,  -- CSI_POLARITY (R341)
  ⟨0x5104, 4, 1, 0x4, 1, 1, .enum, 0, .ro, 0, false, false, 0, .any, .now⟩,  -- CSI_STATE (R341)
  ⟨0x5104, 4, 1, 0x5, 1, 1, .u16, 0, .ro, 0, false, false, 0, .any, .now⟩,  -- CSI_RATE (R341)
  ⟨0x5110, 16, 1, 0x1, 1, 1, .bool, 0, .rw, 0, true, false, 0, .any, .fs⟩,  -- STR_ENABLE (R343)
  ⟨0x5110, 16, 1, 0x2, 1, 1, .u8, 0, .rw, 0x2A, true, false, 0, (.range 0x10 0x3F), .fs⟩,  -- STR_DATA_TYPE (R343)
  ⟨0x5110, 16, 1, 0x3, 1, 1, .enum, 0, .rw, 0, true, false, 0, (.range 0 1), .fs⟩,  -- STR_SEG_BYTES (R343)
  ⟨0x5110, 16, 1, 0x4, 1, 1, .u8, 0, .rw, 0xFF, true, false, 0, (.rangeOr 0 7 0xFF), .fs⟩,  -- STR_TRIGGER (R343)
  ⟨0x5110, 16, 1, 0x5, 1, 1, .u16, 0, .rw, 0x32, true, false, 0, (.range 1 1000), .fs⟩,  -- STR_FE_TIMEOUT (R343)
  ⟨0x5110, 16, 1, 0x6, 1, 1, .enum, 0, .ro, 0, false, false, 0, .any, .now⟩,  -- STR_STATE (R343)
  ⟨0x5110, 16, 1, 0x7, 1, 1, .u16, 0, .ro, 0, false, false, 0, .any, .now⟩,  -- STR_FRAME_NUM (R343)
  ⟨0x5110, 16, 1, 0x8, 1, 1, .u16, 0, .ro, 0xFFFF, false, false, 0, .any, .now⟩,  -- STR_TUNNEL (R343)
  ⟨0x5120, 8, 1, 0x1, 1, 1, .enum, 0, .rwp, 0, true, false, 0, (.range 0 2), .trig⟩,  -- TRIG_MODE (R353)
  ⟨0x5120, 8, 1, 0x2, 1, 1, .time32, 0, .rwp, 0, true, false, 0, .any, .trig⟩,  -- TRIG_START (R353)
  ⟨0x5120, 8, 1, 0x3, 1, 1, .u32, 0, .rwp, 0xF4240, true, false, 0, (.range 2000 4000000000), .trig⟩,  -- TRIG_PERIOD (R353)
  ⟨0x5120, 8, 1, 0x4, 1, 1, .u16, 0, .rwp, 0, true, false, 0, .any, .trig⟩,  -- TRIG_PERIOD_FRAC (R353)
  ⟨0x5120, 8, 1, 0x5, 1, 1, .u32, 0, .rwp, 0x2710, true, false, 0, (.range 100 0xFFFFFFFF), .trig⟩,  -- TRIG_WIDTH (R353)
  ⟨0x5120, 8, 1, 0x6, 1, 1, .bool, 0, .rwp, 0, true, false, 0, .any, .trig⟩,  -- TRIG_POLARITY (R353)
  ⟨0x5120, 8, 1, 0x7, 1, 1, .time32, 0, .ro, 0, false, false, 0, .any, .now⟩,  -- TRIG_LAST (R353)
  ⟨0x5120, 8, 1, 0x8, 1, 1, .u32, 0, .rc, 0, false, false, 0, .any, .now⟩]  -- TRIG_SKIPPED (R353)

/-- Rows of the objects at 0x5200 to 0x52FF, part 0. -/
def rows52_0 : List ObjRow := [
  ⟨0x5200, 1, 1, 0x1, 1, 1, .u32, 0, .rwp, 0, true, false, 0, (.aligned 0x100000), .now⟩,  -- FS_BASE (R361)
  ⟨0x5200, 1, 1, 0x2, 1, 1, .u16, 0, .rwp, 0, true, false, 0, (.range 0 4096), .now⟩,  -- FS_SIZE (R361)
  ⟨0x5200, 1, 1, 0x3, 1, 1, .u32, 0, .ro, 0, false, false, 0, .any, .now⟩,  -- FS_NEED (R361)
  ⟨0x5208, 4, 1, 0x1, 1, 1, .bool, 0, .rwf, 0, true, false, 0, .any, .frame⟩,  -- PLANE_ENABLE (R364)
  ⟨0x5208, 4, 1, 0x2, 1, 1, .enum, 0, .rwf, 0, true, false, 0, (.range 0 3), .frame⟩,  -- PLANE_FORMAT (R364)
  ⟨0x5208, 4, 1, 0x3, 1, 1, .u32, 0, .rwf, 0, true, false, 0, (.aligned 4096), .frame⟩,  -- BUF_A (R364)
  ⟨0x5208, 4, 1, 0x4, 1, 1, .u32, 0, .rwf, 0, true, false, 0, (.aligned 4096), .frame⟩,  -- BUF_B (R364)
  ⟨0x5208, 4, 1, 0x5, 1, 1, .u32, 0, .rwf, 0x1E00, true, false, 0, (.aligned 256), .frame⟩,  -- STRIDE (R364)
  ⟨0x5208, 4, 1, 0x6, 1, 1, .u32, 0, .rwf, 0, true, false, 0, .any, .frame⟩,  -- POS (R364)
  ⟨0x5208, 4, 1, 0x7, 1, 1, .u32, 0, .rwf, 0, true, false, 0, (.halves 1 7680), .frame⟩,  -- SIZE (R364)
  ⟨0x5208, 4, 1, 0x8, 1, 1, .u8, 0, .rwf, 0xFF, true, false, 0, .any, .frame⟩,  -- PLANE_ALPHA (R364)
  ⟨0x5208, 4, 1, 0x9, 1, 1, .enum, 0, .ro, 0, false, false, 0, .any, .now⟩,  -- FRONT (R364)
  ⟨0x5208, 4, 1, 0xA, 1, 1, .bool, 0, .ro, 0, false, false, 0, .any, .now⟩,  -- FLIP_PENDING (R364)
  ⟨0x5208, 4, 1, 0xB, 1, 1, .u8, 0, .wo, 0, false, false, 0, (.range 1 1), .now⟩,  -- FLIP_CMD (R364)
  ⟨0x5204, 2, 1, 0x1, 1, 1, .u32, 0, .rwp, 0x24414, true, false, 0, (.range 25000 600000), .timing⟩,  -- PIX_CLK (R375)
  ⟨0x5204, 2, 1, 0x2, 1, 1, .u16, 0, .rwp, 0x780, true, false, 0, (.range 64 7680), .timing⟩,  -- H_ACTIVE (R375)
  ⟨0x5204, 2, 1, 0x3, 1, 1, .u16, 0, .rwp, 0x898, true, false, 0, .any, .timing⟩,  -- H_TOTAL (R375)
  ⟨0x5204, 2, 1, 0x4, 1, 1, .u16, 0, .rwp, 0x7D8, true, false, 0, .any, .timing⟩,  -- H_SYNC_START (R375)
  ⟨0x5204, 2, 1, 0x5, 1, 1, .u16, 0, .rwp, 0x2C, true, false, 0, .any, .timing⟩,  -- H_SYNC_WIDTH (R375)
  ⟨0x5204, 2, 1, 0x6, 1, 1, .u16, 0, .rwp, 0x438, true, false, 0, (.range 32 4320), .timing⟩,  -- V_ACTIVE (R375)
  ⟨0x5204, 2, 1, 0x7, 1, 1, .u16, 0, .rwp, 0x465, true, false, 0, .any, .timing⟩,  -- V_TOTAL (R375)
  ⟨0x5204, 2, 1, 0x8, 1, 1, .u16, 0, .rwp, 0x43C, true, false, 0, .any, .timing⟩,  -- V_SYNC_START (R375)
  ⟨0x5204, 2, 1, 0x9, 1, 1, .u16, 0, .rwp, 5, true, false, 0, .any, .timing⟩,  -- V_SYNC_WIDTH (R375)
  ⟨0x5204, 2, 1, 0xA, 1, 1, .bits32, 0, .rwp, 0, true, false, 0x3, .any, .timing⟩]  -- SYNC_POL (R375)

/-- Rows of the objects at 0x5200 to 0x52FF, part 1. -/
def rows52_1 : List ObjRow := [
  ⟨0x5202, 2, 1, 0x1, 1, 1, .enum, 0, .rw, 0, true, false, 0, (.range 0 2), .dispTrain⟩,  -- DISP_MODE (R380)
  ⟨0x5202, 2, 1, 0x2, 1, 1, .bool, 0, .rw, 0, true, false, 0, .any, .now⟩,  -- DISP_ENABLE (R380)
  ⟨0x5202, 2, 1, 0x3, 1, 1, .bits32, 0, .rw, 0xFF07, true, false, 0xFF07, .any, .dispTrain⟩,  -- DISP_RATES (R380)
  ⟨0x5202, 2, 1, 0x4, 1, 1, .enum, 0, .ro, 0, false, false, 0, .any, .now⟩,  -- DISP_LINK (R380)
  ⟨0x5202, 2, 1, 0x5, 1, 1, .u16, 0, .ro, 0, false, false, 0, .any, .now⟩,  -- DISP_LINK_RATE (R380)
  ⟨0x5202, 2, 1, 0x6, 1, 1, .u8, 0, .ro, 0, false, false, 0, .any, .now⟩,  -- DISP_LANES (R380)
  ⟨0x5202, 2, 1, 0x7, 1, 1, .enum, 0, .rwf, 0, true, false, 0, (.range 0 1), .frame⟩,  -- DISP_BPC (R380)
  ⟨0x5202, 2, 1, 0x8, 1, 1, .u8, 0, .rwf, 4, true, false, 0, (.range 2 64), .frame⟩,  -- DISP_V_LEAD (R380)
  ⟨0x5202, 2, 1, 0x9, 1, 1, .enum, 0, .rw, 0, true, false, 0, (.range 0 3), .dispTrain⟩,  -- SR_MODE (R380)
  ⟨0x5202, 2, 1, 0xA, 1, 1, .u8, 0, .rw, 4, true, false, 0, (.range 2 255), .frame⟩,  -- SR_IDLE_FRAMES (R380)
  ⟨0x5202, 2, 1, 0xB, 1, 1, .enum, 0, .ro, 0, false, false, 0, .any, .now⟩,  -- SR_MODE_IN_USE (R380)
  ⟨0x5202, 2, 1, 0xC, 1, 1, .enum, 0, .ro, 0, false, false, 0, .any, .now⟩,  -- SR_STATE (R380)
  ⟨0x5202, 2, 1, 0xD, 1, 1, .u32, 0, .ro, 0, false, false, 0, .any, .now⟩,  -- FLIP_STATUS (R380)
  ⟨0x5202, 2, 1, 0xE, 1, 1, .u32, 0, .ro, 0, false, false, 0, .any, .now⟩,  -- FRAME_COUNT (R380)
  ⟨0x5202, 2, 1, 0xF, 1, 1, .u32, 0, .rw, 0x4E20, true, false, 0, (.range 200 50000), .pwm⟩,  -- EDP_PWM_FREQ (R380)
  ⟨0x5202, 2, 1, 0x10, 1, 1, .u16, 0, .rw, 0, true, false, 0, (.range 0 1000), .pwm⟩,  -- EDP_PWM_DUTY (R380)
  ⟨0x5202, 2, 1, 0x11, 1, 1, .u16, 0, .rw, 0x32, true, false, 0, (.range 0 1000), .now⟩,  -- EDP_T_BL (R380)
  ⟨0x5202, 2, 1, 0x12, 1, 1, .domain, 0, .ro, 0, false, false, 0, .any, .now⟩]  -- DISP_EDID (R380)

/-- Rows of the objects at 0x5300 to 0x53FF, part 0. -/
def rows53_0 : List ObjRow := [
  ⟨0x5302, 2, 1, 0x1, 1, 1, .enum, 0, .rw, 0, true, false, 0, (.range 0 2), .phyUp⟩,  -- ETH_MODE (R384)
  ⟨0x5302, 2, 1, 0x2, 1, 1, .enum, 0, .rw, 0, true, false, 0, (.range 0 6), .phyUp⟩,  -- ETH_SPEED (R384)
  ⟨0x5302, 2, 1, 0x3, 1, 1, .u16, 0, .rw, 0x5F2, true, false, 0, (.range 1518 9018), .now⟩,  -- ETH_MAX_FRAME (R384)
  ⟨0x5302, 2, 1, 0x4, 1, 1, .u64, 0, .rw, Config.macFromUnitId, true, false, 0xFFFFFFFFFFFF, .any, .now⟩,  -- ETH_MAC_ADDR (R384)
  ⟨0x5302, 2, 1, 0x6, 1, 1, .bool, 0, .rw, 1, true, false, 0, .any, .now⟩,  -- ETH_PAUSE (R384)
  ⟨0x5302, 2, 1, 0x7, 1, 1, .enum, 0, .ro, 0, false, false, 0, .any, .now⟩,  -- ETH_LINK (R384)
  ⟨0x5302, 2, 1, 0x8, 1, 1, .u32, 0, .rw, 0xFAC688, true, false, 0xFFFFFF, .any, .now⟩,  -- ETH_PCP_MAP (R384)
  ⟨0x5302, 2, 1, 0x9, 1, 1, .u32, 0, .wo, 0, false, false, 0xC3FFFFFF, .any, .now⟩,  -- MDIO_CMD (R384)
  ⟨0x5302, 2, 1, 0xA, 1, 1, .u32, 0, .ro, 0, false, false, 0, .any, .now⟩,  -- MDIO_DATA (R384)
  ⟨0x5302, 2, 1, 0xB, 1, 1, .u32, 0, .rw, 0, true, false, 0, .any, .now⟩,  -- TX_PHY_DELAY (R384)
  ⟨0x5302, 2, 1, 0xC, 1, 1, .u32, 0, .rw, 0, true, false, 0, .any, .now⟩,  -- RX_PHY_DELAY (R384)
  ⟨0x5302, 2, 1, 0xD, 1, 1, .i32, 0, .rw, 0, true, false, 0, .any, .now⟩,  -- LINK_ASYM (R384)
  ⟨0x5308, 2, 1, 0x1, 1, 1, .bool, 0, .rwp, 0, true, false, 0, .any, .etsChange⟩,  -- ETS_ENABLE (R393)
  ⟨0x5308, 2, 1, 0x2, 1, 1, .u64, 0, .rwp, 0, true, false, 0, .any, .etsChange⟩,  -- ETS_BASE_SEC (R393)
  ⟨0x5308, 2, 1, 0x4, 1, 1, .u32, 0, .rwp, 0, true, false, 0, (.range 0 999999999), .etsChange⟩,  -- ETS_BASE_NS (R393)
  ⟨0x5308, 2, 1, 0x5, 1, 1, .u32, 0, .rwp, 0xF4240, true, false, 0, (.range 1000 500000000), .etsChange⟩,  -- ETS_CYCLE (R393)
  ⟨0x5308, 2, 1, 0x6, 1, 1, .u32, 0, .rwp, 0, true, false, 0, .any, .etsChange⟩,  -- ETS_CYCLE_EXT (R393)
  ⟨0x5308, 2, 1, 0x7, 1, 1, .u8, 0, .rwp, 1, true, false, 0, (.range 1 32), .etsChange⟩,  -- ETS_ENTRIES (R393)
  ⟨0x5308, 2, 1, 0x8, 1, 1, .bool, 0, .ro, 0, false, false, 0, .any, .now⟩,  -- ETS_PENDING (R393)
  ⟨0x5308, 2, 1, 0x9, 1, 1, .u8, 0, .ro, 0xFF, false, false, 0, .any, .now⟩,  -- ETS_CURRENT (R393)
  ⟨0x5308, 2, 1, 0x10, 32, 1, .u32, 0, .rwp, 0xF4240FF, true, false, 0, (.range 0x4000 0xFFFFFFFF), .etsChange⟩,  -- ETS_GCL (R393)
  ⟨0x5300, 1, 1, 0x1, 1, 1, .u64, 0, .ro, 0, false, false, 0, .any, .now⟩,  -- TIME_SEC (R407)
  ⟨0x5300, 1, 1, 0x3, 1, 1, .u32, 0, .ro, 0, false, false, 0, .any, .now⟩,  -- TIME_NS_LATCHED (R407)
  ⟨0x5300, 1, 1, 0x4, 1, 1, .time32, 0, .ro, 0, false, false, 0, .any, .now⟩]  -- TIME32_NOW (R407)

/-- Rows of the objects at 0x5300 to 0x53FF, part 1. -/
def rows53_1 : List ObjRow := [
  ⟨0x5300, 1, 1, 0x5, 1, 1, .enum, 0, .rw, 0, true, false, 0, (.range 0 2), .sample⟩,  -- TIME_SOURCE (R407)
  ⟨0x5300, 1, 1, 0x6, 1, 1, .enum, 0, .ro, 0, false, false, 0, .any, .now⟩,  -- TIME_STATE (R407)
  ⟨0x5300, 1, 1, 0x7, 1, 1, .enum, 0, .ro, 0, false, false, 0, .any, .now⟩,  -- TIME_SOURCE_IN_USE (R407)
  ⟨0x5300, 1, 1, 0x8, 1, 1, .u64, 0, .rwp, 0, false, false, 0, .any, .now⟩,  -- TIME_SET_SEC (R407)
  ⟨0x5300, 1, 1, 0xA, 1, 1, .u32, 0, .rwp, 0, false, false, 0, (.range 0 999999999), .now⟩,  -- TIME_SET_NS (R407)
  ⟨0x5300, 1, 1, 0xB, 1, 1, .i32, 0, .rw, 0x25, true, false, 0, .any, .now⟩,  -- UTC_OFFSET (R407)
  ⟨0x5300, 1, 1, 0xC, 1, 1, .bits32, 0, .rw, 0, false, false, 0x3, .any, .now⟩,  -- LEAP (R407)
  ⟨0x5300, 1, 1, 0xD, 1, 1, .i32, 0, .ro, 0, false, false, 0, .any, .now⟩,  -- OFFSET_LAST (R407)
  ⟨0x5300, 1, 1, 0xE, 1, 1, .i32, 0, .ro, 0, false, false, 0, .any, .now⟩,  -- RATE_ADJ (R407)
  ⟨0x5301, 1, 1, 0x1, 1, 1, .u32, 0, .rwp, 0x960, true, false, 0, (.range 0 8000), .now⟩,  -- SV_TRUNK_KP (R407)
  ⟨0x5301, 1, 1, 0x2, 1, 1, .u32, 0, .rwp, 0x2EE0, true, false, 0, (.range 0 80000), .now⟩,  -- SV_TRUNK_KI (R407)
  ⟨0x5301, 1, 1, 0x3, 1, 1, .u32, 0, .rwp, 0x190, true, false, 0, (.range 0 80000), .now⟩,  -- SV_GPTP_KP (R407)
  ⟨0x5301, 1, 1, 0x4, 1, 1, .u32, 0, .rwp, 0x28, true, false, 0, (.range 0 8000), .now⟩,  -- SV_GPTP_KI (R407)
  ⟨0x5301, 1, 1, 0x5, 1, 1, .u32, 0, .rwp, 0x3E8, true, false, 0, (.range 100 1000000000), .now⟩,  -- SV_STEP_THRESHOLD (R407)
  ⟨0x5301, 1, 1, 0x6, 1, 1, .u32, 0, .rwp, 0x186A0, true, false, 0, (.range 1000 500000), .now⟩,  -- SV_MAX_ADJ (R407)
  ⟨0x5301, 1, 1, 0x7, 1, 1, .u32, 0, .rwp, 0xFA0, true, false, 0, (.range 500 1000000), .now⟩,  -- SV_LOCK_THRESHOLD (R407)
  ⟨0x5301, 1, 1, 0x8, 1, 1, .u16, 0, .rwp, 0x40, true, false, 0, (.range 1 8000), .now⟩,  -- SV_LOCK_COUNT (R407)
  ⟨0x5301, 1, 1, 0x9, 1, 1, .u32, 0, .rwp, 0x3E8, true, false, 0, (.range 10 3600000), .now⟩,  -- SV_HOLDOVER_LIMIT (R407)
  ⟨0x5306, 1, 1, 0x1, 1, 1, .u8, 0, .rw, 1, true, false, 0, (.range 0 9), .reset⟩,  -- PTP_ENGINE (R407)
  ⟨0x5306, 1, 1, 0x2, 1, 1, .u8, 0, .rw, 0, true, false, 0, (.range 0 127), .announce⟩,  -- PTP_DOMAIN (R407)
  ⟨0x5306, 1, 1, 0x3, 1, 1, .u8, 0, .rw, 0xF8, true, false, 0, .any, .announce⟩,  -- PTP_PRIORITY1 (R407)
  ⟨0x5306, 1, 1, 0x4, 1, 1, .u8, 0, .rw, 0xF8, true, false, 0, .any, .announce⟩,  -- PTP_PRIORITY2 (R407)
  ⟨0x5306, 1, 1, 0x5, 1, 1, .u8, 0, .rw, 0xF8, true, false, 0, .any, .announce⟩,  -- PTP_CLOCK_CLASS (R407)
  ⟨0x5306, 1, 1, 0x6, 1, 1, .bool, 0, .rw, 0, true, false, 0, .any, .bmca⟩]  -- PTP_EXT_CONFIG (R407)

/-- Rows of the objects at 0x5300 to 0x53FF, part 2. -/
def rows53_2 : List ObjRow := [
  ⟨0x5306, 1, 1, 0x7, 1, 1, .u64, 0, .ro, 0, false, false, 0, .any, .now⟩,  -- GM_IDENTITY (R407)
  ⟨0x5306, 1, 1, 0x9, 1, 1, .u16, 0, .ro, 0, false, false, 0, .any, .now⟩,  -- STEPS_REMOVED (R407)
  ⟨0x5306, 1, 1, 0xC, 1, 1, .i32, 0, .wo, 0, false, false, 0, .any, .now⟩,  -- GPTP_SAMPLE (R407)
  ⟨0x5304, 2, 1, 0x1, 1, 1, .bool, 0, .rw, 1, true, false, 0, .any, .bmca⟩,  -- PTP_PORT_ENABLE (R407)
  ⟨0x5304, 2, 1, 0x2, 1, 1, .enum, 0, .ro, 0, false, false, 0, .any, .now⟩,  -- PTP_PORT_STATE (R407)
  ⟨0x5304, 2, 1, 0x3, 1, 1, .enum, 0, .rw, 1, true, false, 0, (.range 0 3), .bmca⟩,  -- PTP_EXT_STATE (R407)
  ⟨0x5304, 2, 1, 0x4, 1, 1, .i32, 0, .rw, 0xFFFFFFFD, true, false, 0, (.signed 7 0), .now⟩,  -- LOG_SYNC (R407)
  ⟨0x5304, 2, 1, 0x5, 1, 1, .i32, 0, .rw, 0, true, false, 0, (.signed 3 3), .now⟩,  -- LOG_PDELAY_REQ (R407)
  ⟨0x5304, 2, 1, 0x6, 1, 1, .i32, 0, .rw, 0, true, false, 0, (.signed 3 3), .now⟩,  -- LOG_ANNOUNCE (R407)
  ⟨0x5304, 2, 1, 0x7, 1, 1, .u32, 0, .ro, 0, false, false, 0, .any, .now⟩,  -- MEAN_LINK_DELAY (R407)
  ⟨0x5304, 2, 1, 0x8, 1, 1, .bool, 0, .ro, 0, false, false, 0, .any, .now⟩,  -- AS_CAPABLE (R407)
  ⟨0x530A, 1, 1, 0x1, 1, 1, .bool, 0, .rw, 0, true, false, 0, .any, .second⟩,  -- PPS_OUT_ENABLE (R407)
  ⟨0x530A, 1, 1, 0x2, 1, 1, .u32, 0, .rw, 0x989680, true, false, 0, (.range 100 500000000), .second⟩,  -- PPS_WIDTH (R407)
  ⟨0x530A, 1, 1, 0x3, 1, 1, .time32, 0, .ro, 0, false, false, 0, .any, .now⟩]  -- PPS_IN_TIME (R407)

/-- Rows of the objects at 0x5400 to 0x54FF, part 0. -/
def rows54_0 : List ObjRow := [
  ⟨0x5400, 1, 1, 0x1, 1, 1, .bool, 0, .rw, 0, true, false, 0, .any, .motCycle⟩,  -- MOT_ENABLE (R438)
  ⟨0x5400, 1, 1, 0x2, 1, 1, .u8, 0, .rwp, 1, true, false, 0, (.range 0 7), .motCycle⟩,  -- MOT_PERIOD (R438)
  ⟨0x5400, 1, 1, 0x3, 1, 1, .u32, 0, .rwp, 0, true, false, 0, .any, .motCycle⟩,  -- MOT_OFFSET (R438)
  ⟨0x5400, 1, 1, 0x4, 1, 1, .u32, 0, .rwp, 0xEA60, true, false, 0, .any, .motCycle⟩,  -- MOT_RESP_DEADLINE (R438)
  ⟨0x5400, 1, 1, 0x5, 1, 1, .bool, 0, .rwp, 0, true, false, 0, .any, .motCycle⟩,  -- MOT_MASTER (R438)
  ⟨0x5400, 1, 1, 0x6, 1, 1, .u8, 0, .rw, 2, true, true, 0, (.range 1 2), .motCycle⟩,  -- MOT_MISS_LIMIT (R438)
  ⟨0x5400, 1, 1, 0x7, 1, 1, .enum, 0, .ro, 0, false, false, 0, .any, .now⟩,  -- MOT_STATE (R438)
  ⟨0x5400, 1, 1, 0x8, 1, 1, .u16, 0, .ro, 0, false, false, 0, .any, .now⟩,  -- MOT_CYCLE (R438)
  ⟨0x5400, 1, 1, 0x9, 1, 1, .u16, 0, .ro, 0, false, false, 0, .any, .now⟩,  -- MOT_RESP_CYCLE (R438)
  ⟨0x5420, 8, 1, 0x1, 1, 1, .bool, 0, .rwp, 0, true, false, 0, .any, .motCycle⟩,  -- AXL_ENABLE (R439)
  ⟨0x5420, 8, 1, 0x2, 1, 1, .u32, 0, .rwp, 0x7D0, true, false, 0, .any, .motCycle⟩,  -- AXL_START (R439)
  ⟨0x5420, 8, 1, 0x3, 1, 1, .u8, 0, .rwp, 0, true, false, 0, .any, .motCycle⟩,  -- AXL_DROPS (R439)
  ⟨0x5420, 8, 1, 0x4, 1, 1, .enum, 0, .ro, 0, false, false, 0, .any, .now⟩,  -- AXL_STATE (R439)
  ⟨0x5420, 8, 1, 0x5, 1, 1, .u32, 0, .ro, 0, false, false, 0, .any, .now⟩,  -- AXL_BUSY (R439)
  ⟨0x5420, 8, 1, 0x6, 1, 1, .u32, 0, .ro, 0, false, false, 0, .any, .now⟩,  -- AXL_APPLY (R439)
  ⟨0x5420, 8, 1, 0x10, 8, 1, .u16, 0, .rwp, 0, true, false, 0, (.bytes 64), .motCycle⟩,  -- DROP_BYTES (R439)
  ⟨0x5420, 8, 1, 0x18, 8, 1, .u32, 0, .rwp, 0, true, false, 0, .any, .motCycle⟩,  -- DROP_TAG (R439)
  ⟨0x5420, 8, 1, 0x20, 8, 1, .u16, 0, .ro, 0, false, false, 0, .any, .now⟩,  -- DROP_RTT (R439)
  ⟨0x5448, 24, 1, 0x2, 1, 1, .u32, 0, .rwp, 0x3E8, true, false, 0, .any, .motCycle⟩,  -- IL_CMD_DEADLINE (R440)
  ⟨0x5448, 24, 1, 0x3, 1, 1, .u8, 0, .rwp, 0, true, false, 0, .any, .motCycle⟩,  -- IL_DROPS (R440)
  ⟨0x5448, 24, 1, 0x10, 8, 1, .u16, 0, .rwp, 0, true, false, 0, (.bytes 64), .motCycle⟩,  -- IL_DROP_BYTES (R440)
  ⟨0x5448, 24, 1, 0x18, 8, 1, .u32, 0, .rwp, 0, true, false, 0, .any, .motCycle⟩,  -- IL_DROP_TAG (R440)
  ⟨0x54C0, 64, 1, 0x1, 64, 1, .u32, 0, .rwp, 0, false, false, 0, .any, .motCycle⟩,  -- CMD_IMAGE (R441)
  ⟨0x54C0, 64, 1, 0x41, 64, 1, .u32, 0, .ro, 0, false, false, 0, .any, .now⟩]  -- RESP_IMAGE (R441)

/-- Rows of the objects at 0x5400 to 0x54FF, part 1. -/
def rows54_1 : List ObjRow := [
  ⟨0x5460, 32, 1, 0x1, 8, 1, .u32, 0, .ro, 0, false, false, 0, .any, .now⟩]  -- DRIVE_STATUS (R441)

/-- Rows of the objects at 0x5500 to 0x55FF, part 0. -/
def rows55_0 : List ObjRow := [
  ⟨0x5500, 1, 1, 0x1, 1, 1, .bits32, 0, .rw, 0, true, false, 0, .any, .sample⟩,  -- GPIO_DIR (R448)
  ⟨0x5500, 1, 1, 0x2, 1, 1, .bits32, 0, .rw, 0xFFFFFFFF, true, false, 0, .any, .sample⟩,  -- GPIO_PULL_EN (R448)
  ⟨0x5500, 1, 1, 0x3, 1, 1, .bits32, 0, .rw, 0, true, false, 0, .any, .sample⟩,  -- GPIO_PULL_UP (R448)
  ⟨0x5500, 1, 1, 0x4, 1, 1, .u8, 0, .rw, 4, true, false, 0, (.range 1 255), .sample⟩,  -- GPIO_FILTER (R448)
  ⟨0x5500, 1, 1, 0x5, 1, 1, .bits32, 0, .rw, 0, true, false, 0, .any, .sample⟩,  -- GPIO_EDGE_RISE (R448)
  ⟨0x5500, 1, 1, 0x6, 1, 1, .bits32, 0, .rw, 0, true, false, 0, .any, .sample⟩,  -- GPIO_EDGE_FALL (R448)
  ⟨0x5500, 1, 1, 0x7, 1, 1, .u16, 0, .rw, 0, true, false, 0, (.range 0 60000), .now⟩,  -- GPIO_REPORT_PERIOD (R448)
  ⟨0x5500, 1, 1, 0x8, 1, 1, .bits32, 0, .rw, 0, true, false, 0, .any, .now⟩,  -- GPIO_MIRROR_MASK (R448)
  ⟨0x5504, 4, 1, 0x1, 1, 1, .enum, 0, .rw, 1, true, false, 0, (.range 0 2), .now⟩,  -- I2C_SPEED (R452)
  ⟨0x5504, 4, 1, 0x2, 1, 1, .u16, 0, .rw, 0x19, true, false, 0, (.range 1 1000), .now⟩,  -- I2C_STRETCH_MAX (R452)
  ⟨0x5508, 2, 1, 0x1, 1, 1, .u8, 0, .rw, 0xA, true, false, 0, (.range 1 50), .now⟩,  -- SPI_CLOCK (R452)
  ⟨0x5508, 2, 1, 0x2, 1, 1, .u8, 0, .rw, 0, true, false, 0, (.range 0 3), .now⟩,  -- SPI_MODE (R452)
  ⟨0x5510, 24, 1, 0x1, 1, 1, .u32, 0, .rwp, 0, true, false, 0, (.rangeOr 200 60000000 0), .now⟩,  -- POLL_PERIOD (R452)
  ⟨0x5510, 24, 1, 0x2, 1, 1, .octets, 104, .rwp, 0, true, false, 0, .any, .now⟩,  -- POLL_LIST (R452)
  ⟨0x5510, 24, 1, 0x3, 1, 1, .enum, 0, .rwp, 0, true, false, 0, (.range 0 1), .now⟩,  -- POLL_REPORT (R452)
  ⟨0x5510, 24, 1, 0x4, 1, 1, .octets, 104, .ro, 0, false, false, 0, .any, .now⟩,  -- POLL_RESULT (R452)
  ⟨0x550C, 4, 1, 0x1, 1, 1, .u32, 0, .rwp, 0x1C200, true, false, 0, (.range 300 6000000), .uart⟩,  -- UART_BAUD (R453)
  ⟨0x550C, 4, 1, 0x2, 1, 1, .bits32, 0, .rwp, 0, true, false, 0xF, (.oneOf [0, 1, 2, 4, 5, 6, 8, 9, 10, 12, 13, 14]), .uart⟩,  -- UART_FORMAT (R453)
  ⟨0x550C, 4, 1, 0x3, 1, 1, .enum, 0, .rwp, 0, true, false, 0, (.range 0 3), .uart⟩,  -- UART_BIND (R453)
  ⟨0x550C, 4, 1, 0x4, 1, 1, .u8, 0, .rwp, 4, true, false, 0, (.range 1 255), .uart⟩]  -- UART_IDLE (R453)

/-- Rows of the objects at 0x5600 to 0x56FF, part 0. -/
def rows56_0 : List ObjRow := [
  ⟨0x5600, 1, 1, 0x1, 1, 1, .bool, 0, .rw, 0, true, false, 0, .any, .usbAttach⟩,  -- USB_ENABLE (R459)
  ⟨0x5600, 1, 1, 0x2, 1, 1, .enum, 0, .rw, 0, true, false, 0, (.range 0 1), .usbAttach⟩,  -- USB_UP_SOURCE (R459)
  ⟨0x5600, 1, 1, 0x3, 1, 1, .enum, 0, .rw, 0, true, false, 0, (.range 0 1), .usbAttach⟩,  -- USB_U3_BIND (R459)
  ⟨0x5600, 1, 1, 0x4, 1, 1, .enum, 0, .rw, 0, true, false, 0, (.range 0 1), .usbAttach⟩,  -- USB_PWR_MODE (R459)
  ⟨0x5600, 1, 1, 0x5, 1, 1, .u8, 0, .rw, 0xFF, true, false, 0, (.rangeOr 0 31 0xFF), .now⟩,  -- USB_SUSP_GPIO (R459)
  ⟨0x5600, 1, 1, 0x6, 1, 1, .enum, 0, .ro, 0, false, false, 0, .any, .now⟩,  -- USB_STATE (R459)
  ⟨0x5604, 3, 1, 0x1, 1, 1, .bits32, 0, .ro, 0, false, false, 0, .any, .now⟩,  -- PORT_STATUS (R459)
  ⟨0x5610, 1, 1, 0x1, 1, 1, .bool, 0, .rw, 0, false, false, 0, .any, .now⟩,  -- DEV_CONNECT (R463)
  ⟨0x5610, 1, 1, 0x2, 1, 1, .u8, 0, .rw, 1, true, false, 0, (.range 0 11), .now⟩,  -- DEV_ENGINE (R463)
  ⟨0x5610, 1, 1, 0x3, 1, 1, .bool, 0, .rw, 0, true, false, 0, .any, .now⟩,  -- DEV_HOP_ENABLE (R463)
  ⟨0x5610, 1, 1, 0x4, 1, 1, .enum, 0, .ro, 0, false, false, 0, .any, .now⟩,  -- DEV_STATE (R463)
  ⟨0x5610, 1, 1, 0x5, 1, 1, .u8, 0, .wo, 0, false, false, 0, (.range 1 1), .now⟩,  -- DEV_WAKE (R463)
  ⟨0x5610, 1, 1, 0x6, 1, 1, .enum, 0, .ro, 0, false, false, 0, .any, .now⟩,  -- DEV_WAKE_STATUS (R463)
  ⟨0x5610, 1, 1, 0x7, 1, 1, .u32, 0, .rc, 0, false, false, 0, .any, .now⟩,  -- DEV_EVENT (R463)
  ⟨0x5610, 1, 1, 0x8, 1, 1, .u64, 0, .ro, 0, false, false, 0, .any, .now⟩]  -- DEV_SETUP (R463)

/-- Rows of the objects at 0x6000 to 0x60FF, part 0. -/
def rows60_0 : List ObjRow := [
  ⟨0x6000, 256, 1, 0x1, 1, 1, .enum, 0, .rwp, 0, true, false, 0, (.range 0 7), .now⟩,  -- TUN_CLASS (R253)
  ⟨0x6000, 256, 1, 0x2, 1, 1, .u8, 0, .rwp, 0xFF, true, false, 0, (.rangeOr 0 13 0xFF), .now⟩,  -- TUN_END_A (R253)
  ⟨0x6000, 256, 1, 0x3, 1, 1, .bits32, 0, .rwp, 0, true, false, 0x7FFF, .any, .now⟩,  -- TUN_END_B (R253)
  ⟨0x6000, 256, 1, 0x4, 1, 1, .u8, 0, .rwp, 0, true, false, 0, .any, .now⟩,  -- TUN_NUM_TK0 (R253)
  ⟨0x6000, 256, 1, 0x5, 1, 1, .u8, 0, .rwp, 0, true, false, 0, .any, .now⟩,  -- TUN_NUM_TK1 (R253)
  ⟨0x6000, 256, 1, 0x6, 1, 1, .u16, 0, .rwp, 0, true, false, 0, .any, .now⟩,  -- TUN_LOCAL (R253)
  ⟨0x6000, 256, 1, 0x7, 1, 1, .bool, 0, .rwp, 0, true, false, 0, .any, .now⟩,  -- TUN_PINNED (R253)
  ⟨0x6000, 256, 1, 0x8, 1, 1, .u8, 0, .rwp, 0, true, false, 0, .any, .now⟩,  -- TUN_LINE_CELLS (R253)
  ⟨0x6000, 256, 1, 0x9, 1, 1, .u32, 0, .rw, 0, true, false, 0, .any, .now⟩,  -- TUN_FLOOR (R253)
  ⟨0x6000, 256, 1, 0xA, 1, 1, .u32, 0, .rw, 0, true, false, 0, .any, .now⟩,  -- TUN_CAP (R253)
  ⟨0x6000, 256, 1, 0xB, 1, 1, .u32, 0, .rw, 0, true, false, 0, .any, .now⟩,  -- TUN_MARK (R253)
  ⟨0x6000, 256, 1, 0xC, 1, 1, .u32, 0, .ro, 0, false, false, 0, .any, .now⟩,  -- TUN_OCC (R253)
  ⟨0x6000, 256, 1, 0xD, 1, 1, .u32, 0, .ro, 0, false, false, 0, .any, .now⟩,  -- TUN_SHARED (R253)
  ⟨0x6000, 256, 1, 0xE, 1, 1, .u32, 0, .rc, 0, false, false, 0, .any, .now⟩,  -- TUN_DROPS (R253)
  ⟨0x6000, 256, 1, 0xF, 1, 1, .u32, 0, .rc, 0, false, false, 0, .any, .now⟩,  -- TUN_MARKS (R253)
  ⟨0x6000, 256, 1, 0x10, 1, 1, .u32, 0, .ro, 0, false, false, 0, .any, .now⟩,  -- TUN_SPILLED (R253)
  ⟨0x6000, 256, 1, 0x20, 1, 1, .u32, 0, .rwp, 0, true, false, 0, (.range 0 300000000), .now⟩,  -- CIR (R307)
  ⟨0x6000, 256, 1, 0x21, 1, 1, .u32, 0, .rwp, 0x40, true, false, 0, (.range 1 131072), .now⟩,  -- CBS (R307)
  ⟨0x6000, 256, 1, 0x22, 1, 1, .bool, 0, .rwp, 1, true, false, 0, .any, .now⟩,  -- C_TOKRST (R307)
  ⟨0x6000, 256, 1, 0x23, 1, 1, .u32, 0, .rwp, 0, true, false, 0, (.range 0 300000000), .now⟩,  -- PIR (R307)
  ⟨0x6000, 256, 1, 0x24, 1, 1, .u32, 0, .rwp, 0x40, true, false, 0, (.range 1 131072), .now⟩,  -- PBS (R307)
  ⟨0x6000, 256, 1, 0x25, 1, 1, .bool, 0, .rwp, 1, true, false, 0, .any, .now⟩,  -- P_TOKRST (R307)
  ⟨0x6000, 256, 1, 0x26, 1, 1, .u8, 0, .rw, 1, true, false, 0, (.range 1 255), .now⟩,  -- TUN_WEIGHT (R307)
  ⟨0x6000, 256, 1, 0x27, 1, 1, .u32, 0, .rwp, 0, true, false, 0, (.range 0 300000000), .now⟩]  -- POL_RATE (R307)

/-- Rows of the objects at 0x6000 to 0x60FF, part 1. -/
def rows60_1 : List ObjRow := [
  ⟨0x6000, 256, 1, 0x28, 1, 1, .u32, 0, .rwp, 0x40, true, false, 0, (.range 1 131072), .now⟩,  -- POL_BURST (R307)
  ⟨0x6000, 256, 1, 0x29, 1, 1, .bool, 0, .rwp, 1, true, false, 0, .any, .now⟩,  -- POL_TOKRST (R307)
  ⟨0x6000, 256, 1, 0x30, 1, 1, .u32, 0, .rc, 0, false, false, 0, .any, .now⟩,  -- TX_COMMITTED (R307)
  ⟨0x6000, 256, 1, 0x31, 1, 1, .u32, 0, .rc, 0, false, false, 0, .any, .now⟩,  -- TX_EXCESS (R307)
  ⟨0x6000, 256, 1, 0x32, 1, 1, .u32, 0, .rc, 0, false, false, 0, .any, .now⟩,  -- SHAPER_WAITS (R307)
  ⟨0x6000, 256, 1, 0x33, 1, 1, .u32, 0, .rc, 0, false, false, 0, .any, .now⟩,  -- STR_DROPS (R307)
  ⟨0x6000, 256, 1, 0x34, 1, 1, .u32, 0, .rc, 0, false, false, 0, .any, .now⟩,  -- STR_PASSED (R307)
  ⟨0x6000, 256, 1, 0x35, 1, 1, .u32, 0, .rc, 0, false, false, 0, .any, .now⟩]  -- QUEUE_PEAK (R307)

/-- Rows of the objects at 0x7000 to 0x70FF, part 0. -/
def rows70_0 : List ObjRow := [
  ⟨0x7000, 1, 2, 0x1, 1, 1, .bool, 0, .rw, 1, true, false, 0, .any, .now⟩,  -- PD_ENABLE (R568)
  ⟨0x7000, 1, 2, 0x2, 1, 1, .enum, 0, .rw, 1, true, false, 0, (.range 0 2), .attach⟩,  -- PD_POWER_CAP (R568)
  ⟨0x7000, 1, 2, 0x4, 1, 1, .u8, 0, .rw, 0xFF, true, false, 0, (.rangeOr 0 28 0xFF), .attach⟩,  -- PD_VSEL_GPIO (R568)
  ⟨0x7000, 1, 2, 0x5, 1, 1, .u16, 0, .rw, 0x3A91, true, false, 0, .any, .discovery⟩,  -- PD_SVID (R568)
  ⟨0x7000, 1, 2, 0x6, 1, 1, .bool, 0, .rw, 1, true, false, 0, .any, .discovery⟩,  -- PD_JENSAR_ENTRY (R568)
  ⟨0x7000, 1, 2, 0x7, 1, 1, .u16, 0, .rw, 0xBB8, true, true, 0, (.oneOf [3000, 5000]), .caps⟩,  -- PD_CABLE_MAX_MA (R568)
  ⟨0x7000, 1, 2, 0x8, 1, 1, .bool, 0, .rw, 1, true, false, 0, .any, .caps⟩,  -- PD_EPR_ENABLE (R568)
  ⟨0x7000, 1, 2, 0x9, 1, 1, .u16, 0, .rw, 0x64, true, false, 0, (.range 10 1000), .now⟩,  -- PD_WAIT_RETRY (R568)
  ⟨0x7000, 1, 2, 0xA, 1, 1, .u8, 0, .rw, 0xA, true, false, 0, .any, .now⟩,  -- PD_WAIT_MAX (R568)
  ⟨0x7000, 1, 2, 0xB, 1, 1, .bool, 0, .rw, 0, true, false, 0, .any, .contract⟩,  -- PD_FRS_ENABLE (R568)
  ⟨0x7000, 1, 2, 0xC, 1, 1, .bool, 0, .rw, 0, true, false, 0, .any, .now⟩,  -- PD_PR_SWAP_ACCEPT (R568)
  ⟨0x7000, 1, 2, 0xD, 1, 1, .u8, 0, .wo, 0, false, true, 0, (.range 1 4), .now⟩,  -- PD_CMD (R568)
  ⟨0x7000, 1, 2, 0x10, 1, 1, .u32, 0, .rwp, 0x1912C, true, false, 0, .any, .now⟩,  -- SRC_PDO (R568)
  ⟨0x7000, 1, 2, 0x11, 1, 1, .u32, 0, .rwp, 0x2D12C, true, false, 0, .any, .now⟩,  -- SRC_PDO (R568)
  ⟨0x7000, 1, 2, 0x12, 1, 1, .u32, 0, .rwp, 0x4B12C, true, false, 0, .any, .now⟩,  -- SRC_PDO (R568)
  ⟨0x7000, 1, 2, 0x13, 1, 1, .u32, 0, .rwp, 0x641F4, true, false, 0, .any, .now⟩,  -- SRC_PDO (R568)
  ⟨0x7000, 1, 2, 0x14, 1, 1, .u32, 0, .rwp, 0, true, false, 0, .any, .now⟩,  -- SRC_PDO (R568)
  ⟨0x7000, 1, 2, 0x15, 1, 1, .u32, 0, .rwp, 0, true, false, 0, .any, .now⟩,  -- SRC_PDO (R568)
  ⟨0x7000, 1, 2, 0x16, 1, 1, .u32, 0, .rwp, 0, true, false, 0, .any, .now⟩,  -- SRC_PDO (R568)
  ⟨0x7000, 1, 2, 0x17, 1, 1, .u32, 0, .rwp, 0x8C1F4, true, false, 0, .any, .now⟩,  -- SRC_PDO (R568)
  ⟨0x7000, 1, 2, 0x18, 1, 1, .u32, 0, .rwp, 0xB41F4, true, false, 0, .any, .now⟩,  -- SRC_PDO (R568)
  ⟨0x7000, 1, 2, 0x19, 1, 1, .u32, 0, .rwp, 0xF01F4, true, false, 0, .any, .now⟩,  -- SRC_PDO (R568)
  ⟨0x7000, 1, 2, 0x1A, 1, 1, .u32, 0, .rwp, 0, true, false, 0, .any, .now⟩,  -- SRC_PDO (R568)
  ⟨0x7000, 1, 2, 0x20, 1, 1, .u16, 0, .rwp, 0x1388, true, false, 0, .any, .now⟩]  -- PD_REQ_MV (R568)

/-- Rows of the objects at 0x7000 to 0x70FF, part 1. -/
def rows70_1 : List ObjRow := [
  ⟨0x7000, 1, 2, 0x21, 1, 1, .u16, 0, .rwp, 0xBB8, true, false, 0, (.range 100 5000), .now⟩,  -- PD_REQ_MA (R568)
  ⟨0x7000, 1, 2, 0x22, 1, 1, .enum, 0, .rw, 0, true, false, 0, (.range 0 3), .now⟩,  -- PD_FRS_CURRENT (R568)
  ⟨0x7000, 1, 2, 0x30, 1, 1, .enum, 0, .ro, 0, false, false, 0, .any, .now⟩,  -- PD_STATE (R568)
  ⟨0x7000, 1, 2, 0x31, 1, 1, .enum, 0, .ro, 0, false, false, 0, .any, .now⟩,  -- PD_POWER_ROLE (R568)
  ⟨0x7000, 1, 2, 0x32, 1, 1, .enum, 0, .ro, 0, false, false, 0, .any, .now⟩,  -- PD_DATA_ROLE (R568)
  ⟨0x7000, 1, 2, 0x33, 1, 1, .u16, 0, .ro, 0, false, false, 0, .any, .now⟩,  -- PD_CONTRACT_MV (R568)
  ⟨0x7000, 1, 2, 0x34, 1, 1, .u16, 0, .ro, 0, false, false, 0, .any, .now⟩,  -- PD_CONTRACT_MA (R568)
  ⟨0x7000, 1, 2, 0x35, 1, 1, .u8, 0, .ro, 0, false, false, 0, .any, .now⟩,  -- PD_CONTRACT_POS (R568)
  ⟨0x7000, 1, 2, 0x36, 1, 1, .bool, 0, .ro, 0, false, false, 0, .any, .now⟩,  -- PD_EPR_ACTIVE (R568)
  ⟨0x7000, 1, 2, 0x37, 1, 1, .bool, 0, .ro, 0, false, false, 0, .any, .now⟩,  -- PD_CONTRACT_STABLE (R568)
  ⟨0x7000, 1, 2, 0x38, 1, 1, .enum, 0, .ro, 0, false, false, 0, .any, .now⟩,  -- PD_MODE (R568)
  ⟨0x7000, 1, 2, 0x39, 1, 1, .u16, 0, .ro, 0, false, false, 0, .any, .now⟩,  -- PD_VBUS_MV (R568)
  ⟨0x7000, 1, 2, 0x3A, 1, 1, .enum, 0, .ro, 0, false, false, 0, .any, .now⟩,  -- PD_LAST_RESULT (R568)
  ⟨0x7000, 1, 2, 0x3B, 1, 1, .bits32, 0, .rc, 0, false, false, 0, .any, .now⟩]  -- PD_ATTN (R568)

/-- Rows of the objects at 0x7100 to 0x71FF, part 0. -/
def rows71_0 : List ObjRow := [
  ⟨0x7000, 1, 2, 0x1, 1, 1, .bool, 0, .rw, 1, true, false, 0, .any, .now⟩,  -- PD_ENABLE (R568)
  ⟨0x7000, 1, 2, 0x2, 1, 1, .enum, 0, .rw, 1, true, false, 0, (.range 0 2), .attach⟩,  -- PD_POWER_CAP (R568)
  ⟨0x7000, 1, 2, 0x4, 1, 1, .u8, 0, .rw, 0xFF, true, false, 0, (.rangeOr 0 28 0xFF), .attach⟩,  -- PD_VSEL_GPIO (R568)
  ⟨0x7000, 1, 2, 0x5, 1, 1, .u16, 0, .rw, 0x3A91, true, false, 0, .any, .discovery⟩,  -- PD_SVID (R568)
  ⟨0x7000, 1, 2, 0x6, 1, 1, .bool, 0, .rw, 1, true, false, 0, .any, .discovery⟩,  -- PD_JENSAR_ENTRY (R568)
  ⟨0x7000, 1, 2, 0x7, 1, 1, .u16, 0, .rw, 0xBB8, true, true, 0, (.oneOf [3000, 5000]), .caps⟩,  -- PD_CABLE_MAX_MA (R568)
  ⟨0x7000, 1, 2, 0x8, 1, 1, .bool, 0, .rw, 1, true, false, 0, .any, .caps⟩,  -- PD_EPR_ENABLE (R568)
  ⟨0x7000, 1, 2, 0x9, 1, 1, .u16, 0, .rw, 0x64, true, false, 0, (.range 10 1000), .now⟩,  -- PD_WAIT_RETRY (R568)
  ⟨0x7000, 1, 2, 0xA, 1, 1, .u8, 0, .rw, 0xA, true, false, 0, .any, .now⟩,  -- PD_WAIT_MAX (R568)
  ⟨0x7000, 1, 2, 0xB, 1, 1, .bool, 0, .rw, 0, true, false, 0, .any, .contract⟩,  -- PD_FRS_ENABLE (R568)
  ⟨0x7000, 1, 2, 0xC, 1, 1, .bool, 0, .rw, 0, true, false, 0, .any, .now⟩,  -- PD_PR_SWAP_ACCEPT (R568)
  ⟨0x7000, 1, 2, 0xD, 1, 1, .u8, 0, .wo, 0, false, true, 0, (.range 1 4), .now⟩,  -- PD_CMD (R568)
  ⟨0x7000, 1, 2, 0x10, 1, 1, .u32, 0, .rwp, 0x1912C, true, false, 0, .any, .now⟩,  -- SRC_PDO (R568)
  ⟨0x7000, 1, 2, 0x11, 1, 1, .u32, 0, .rwp, 0x2D12C, true, false, 0, .any, .now⟩,  -- SRC_PDO (R568)
  ⟨0x7000, 1, 2, 0x12, 1, 1, .u32, 0, .rwp, 0x4B12C, true, false, 0, .any, .now⟩,  -- SRC_PDO (R568)
  ⟨0x7000, 1, 2, 0x13, 1, 1, .u32, 0, .rwp, 0x641F4, true, false, 0, .any, .now⟩,  -- SRC_PDO (R568)
  ⟨0x7000, 1, 2, 0x14, 1, 1, .u32, 0, .rwp, 0, true, false, 0, .any, .now⟩,  -- SRC_PDO (R568)
  ⟨0x7000, 1, 2, 0x15, 1, 1, .u32, 0, .rwp, 0, true, false, 0, .any, .now⟩,  -- SRC_PDO (R568)
  ⟨0x7000, 1, 2, 0x16, 1, 1, .u32, 0, .rwp, 0, true, false, 0, .any, .now⟩,  -- SRC_PDO (R568)
  ⟨0x7000, 1, 2, 0x17, 1, 1, .u32, 0, .rwp, 0x8C1F4, true, false, 0, .any, .now⟩,  -- SRC_PDO (R568)
  ⟨0x7000, 1, 2, 0x18, 1, 1, .u32, 0, .rwp, 0xB41F4, true, false, 0, .any, .now⟩,  -- SRC_PDO (R568)
  ⟨0x7000, 1, 2, 0x19, 1, 1, .u32, 0, .rwp, 0xF01F4, true, false, 0, .any, .now⟩,  -- SRC_PDO (R568)
  ⟨0x7000, 1, 2, 0x1A, 1, 1, .u32, 0, .rwp, 0, true, false, 0, .any, .now⟩,  -- SRC_PDO (R568)
  ⟨0x7000, 1, 2, 0x20, 1, 1, .u16, 0, .rwp, 0x1388, true, false, 0, .any, .now⟩]  -- PD_REQ_MV (R568)

/-- Rows of the objects at 0x7100 to 0x71FF, part 1. -/
def rows71_1 : List ObjRow := [
  ⟨0x7000, 1, 2, 0x21, 1, 1, .u16, 0, .rwp, 0xBB8, true, false, 0, (.range 100 5000), .now⟩,  -- PD_REQ_MA (R568)
  ⟨0x7000, 1, 2, 0x22, 1, 1, .enum, 0, .rw, 0, true, false, 0, (.range 0 3), .now⟩,  -- PD_FRS_CURRENT (R568)
  ⟨0x7000, 1, 2, 0x30, 1, 1, .enum, 0, .ro, 0, false, false, 0, .any, .now⟩,  -- PD_STATE (R568)
  ⟨0x7000, 1, 2, 0x31, 1, 1, .enum, 0, .ro, 0, false, false, 0, .any, .now⟩,  -- PD_POWER_ROLE (R568)
  ⟨0x7000, 1, 2, 0x32, 1, 1, .enum, 0, .ro, 0, false, false, 0, .any, .now⟩,  -- PD_DATA_ROLE (R568)
  ⟨0x7000, 1, 2, 0x33, 1, 1, .u16, 0, .ro, 0, false, false, 0, .any, .now⟩,  -- PD_CONTRACT_MV (R568)
  ⟨0x7000, 1, 2, 0x34, 1, 1, .u16, 0, .ro, 0, false, false, 0, .any, .now⟩,  -- PD_CONTRACT_MA (R568)
  ⟨0x7000, 1, 2, 0x35, 1, 1, .u8, 0, .ro, 0, false, false, 0, .any, .now⟩,  -- PD_CONTRACT_POS (R568)
  ⟨0x7000, 1, 2, 0x36, 1, 1, .bool, 0, .ro, 0, false, false, 0, .any, .now⟩,  -- PD_EPR_ACTIVE (R568)
  ⟨0x7000, 1, 2, 0x37, 1, 1, .bool, 0, .ro, 0, false, false, 0, .any, .now⟩,  -- PD_CONTRACT_STABLE (R568)
  ⟨0x7000, 1, 2, 0x38, 1, 1, .enum, 0, .ro, 0, false, false, 0, .any, .now⟩,  -- PD_MODE (R568)
  ⟨0x7000, 1, 2, 0x39, 1, 1, .u16, 0, .ro, 0, false, false, 0, .any, .now⟩,  -- PD_VBUS_MV (R568)
  ⟨0x7000, 1, 2, 0x3A, 1, 1, .enum, 0, .ro, 0, false, false, 0, .any, .now⟩,  -- PD_LAST_RESULT (R568)
  ⟨0x7000, 1, 2, 0x3B, 1, 1, .bits32, 0, .rc, 0, false, false, 0, .any, .now⟩]  -- PD_ATTN (R568)

/-- Rows of the objects at 0x7200 to 0x72FF, part 0. -/
def rows72_0 : List ObjRow := [
  ⟨0x7200, 8, 1, 0x1, 1, 1, .bool, 0, .rw, 0, true, false, 0, .any, .now⟩,  -- SLOT_ENABLE (R591)
  ⟨0x7200, 8, 1, 0x2, 1, 1, .enum, 0, .rwp, 2, true, false, 0, (.range 1 2), .slotRamp⟩,  -- SLOT_BUS (R591)
  ⟨0x7200, 8, 1, 0x3, 1, 1, .u32, 0, .rwp, 0x1388, true, false, 0, (.range 500 100000), .slotRamp⟩,  -- SLOT_SHUNT (R591)
  ⟨0x7200, 8, 1, 0x4, 1, 1, .u16, 0, .rwp, 0xFA0, true, false, 0, (.range 100 8000), .slotRamp⟩,  -- SLOT_ILIM (R591)
  ⟨0x7200, 8, 1, 0x5, 1, 1, .u16, 0, .rwp, 0xC8, true, false, 0, (.range 10 1000), .slotRamp⟩,  -- SLOT_PLIM (R591)
  ⟨0x7200, 8, 1, 0x6, 1, 1, .u16, 0, .rwp, 0x2EE0, true, false, 0, (.range 1000 20000), .slotRamp⟩,  -- SLOT_FAST_TRIP (R591)
  ⟨0x7200, 8, 1, 0x7, 1, 1, .u32, 0, .rwp, 0x3E8, true, false, 0, (.range 10 100000), .slotRamp⟩,  -- SLOT_TRIP_TIME (R591)
  ⟨0x7200, 8, 1, 0x8, 1, 1, .u16, 0, .rwp, 0x64, true, false, 0, (.range 1 1000), .slotRamp⟩,  -- SLOT_RAMP_MAX (R591)
  ⟨0x7200, 8, 1, 0x9, 1, 1, .u16, 0, .rw, 0x3E8, true, false, 0, (.range 100 60000), .now⟩,  -- SLOT_RETRY (R591)
  ⟨0x7200, 8, 1, 0xA, 1, 1, .enum, 0, .rw, 0, true, false, 0, (.range 0 2), .now⟩,  -- SLOT_PD_PORT (R591)
  ⟨0x7200, 8, 1, 0xB, 1, 1, .u32, 0, .rw, 0x2710, true, false, 0, (.range 100 600000), .now⟩,  -- SLOT_GOOD_TIME (R591)
  ⟨0x7200, 8, 1, 0x10, 1, 1, .enum, 0, .ro, 0, false, false, 0, .any, .now⟩,  -- SLOT_STATE (R591)
  ⟨0x7200, 8, 1, 0x11, 1, 1, .enum, 0, .ro, 0, false, false, 0, .any, .now⟩,  -- SLOT_FAULT_CAUSE (R591)
  ⟨0x7200, 8, 1, 0x12, 1, 1, .u8, 0, .ro, 0, false, false, 0, .any, .now⟩,  -- SLOT_FAULT_COUNT (R591)
  ⟨0x7200, 8, 1, 0x13, 1, 1, .u32, 0, .ro, 0, false, false, 0, .any, .now⟩,  -- SLOT_RETRY_LEFT (R591)
  ⟨0x7200, 8, 1, 0x14, 1, 1, .u16, 0, .ro, 0, false, false, 0, .any, .now⟩,  -- SLOT_BUS_MV (R591)
  ⟨0x7200, 8, 1, 0x15, 1, 1, .u16, 0, .ro, 0, false, false, 0, .any, .now⟩,  -- SLOT_VOUT_MV (R591)
  ⟨0x7200, 8, 1, 0x16, 1, 1, .u16, 0, .ro, 0, false, false, 0, .any, .now⟩,  -- SLOT_I_MA (R591)
  ⟨0x7200, 8, 1, 0x17, 1, 1, .u8, 0, .wo, 0, false, false, 0, (.range 1 1), .now⟩,  -- SLOT_CLEAR (R591)
  ⟨0x7200, 8, 1, 0x18, 1, 1, .bits32, 0, .rc, 0, false, false, 0, .any, .now⟩]  -- SLOT_ATTN (R591)

/-- Rows of the objects at 0x7300 to 0x73FF, part 0. -/
def rows73_0 : List ObjRow := [
  ⟨0x7300, 1, 1, 0x1, 1, 1, .enum, 0, .rw, 0, true, true, 0, (.range 0 3), .now⟩,  -- FEED_MODE (R592)
  ⟨0x7300, 1, 1, 0x2, 1, 1, .enum, 0, .rw, 0, true, false, 0, (.range 0 1), .now⟩,  -- FEED_PRIORITY (R592)
  ⟨0x7300, 1, 1, 0x3, 1, 1, .u16, 0, .rw, 0x3E8, true, false, 0, (.range 10 60000), .now⟩,  -- FEED_RETURN_HOLD (R592)
  ⟨0x7300, 1, 1, 0x4, 1, 1, .u16, 0, .rw, 0xA, true, false, 0, (.range 1 1000), .now⟩,  -- FEED_VALID_HOLD (R592)
  ⟨0x7300, 1, 1, 0x5, 1, 1, .bits32, 0, .rw, 0, true, false, 0x3, .any, .now⟩,  -- FEED_FRS_PORTS (R592)
  ⟨0x7300, 1, 1, 0x10, 1, 1, .u16, 0, .rwp, 0x8CA0, true, false, 0, .any, .now⟩,  -- FA_UV (R592)
  ⟨0x7300, 1, 1, 0x11, 1, 1, .u16, 0, .rwp, 0xEA60, true, false, 0, .any, .now⟩,  -- FA_OV (R592)
  ⟨0x7300, 1, 1, 0x12, 1, 1, .enum, 0, .rwp, 0, true, false, 0, (.range 0 2), .now⟩,  -- FA_PD_PORT (R592)
  ⟨0x7300, 1, 1, 0x20, 1, 1, .enum, 0, .ro, 0, false, false, 0, .any, .now⟩,  -- FEED_IN_USE (R592)
  ⟨0x7300, 1, 1, 0x21, 1, 1, .enum, 0, .ro, 0, false, false, 0, .any, .now⟩,  -- FA_STATE (R592)
  ⟨0x7300, 1, 1, 0x22, 1, 1, .enum, 0, .ro, 0, false, false, 0, .any, .now⟩,  -- FB_STATE (R592)
  ⟨0x7300, 1, 1, 0x26, 1, 1, .bits32, 0, .rc, 0, false, false, 0, .any, .now⟩,  -- FEED_ATTN (R592)
  ⟨0x7300, 1, 1, 0x27, 1, 1, .u8, 0, .wo, 0, false, true, 0, (.range 1 1), .now⟩,  -- FEED_CLEAR (R592)
  ⟨0x7300, 1, 1, 0x18, 1, 1, .u16, 0, .rwp, 0x8CA0, true, false, 0, .any, .now⟩,  -- FB_UV (R593)
  ⟨0x7300, 1, 1, 0x19, 1, 1, .u16, 0, .rwp, 0xEA60, true, false, 0, .any, .now⟩,  -- FB_OV (R593)
  ⟨0x7300, 1, 1, 0x1A, 1, 1, .enum, 0, .rwp, 0, true, false, 0, (.range 0 2), .now⟩,  -- FB_PD_PORT (R593)
  ⟨0x7300, 1, 1, 0x23, 1, 1, .u16, 0, .ro, 0, false, false, 0, .any, .now⟩,  -- FA_MV (R593)
  ⟨0x7300, 1, 1, 0x24, 1, 1, .u16, 0, .ro, 0, false, false, 0, .any, .now⟩,  -- FB_MV (R593)
  ⟨0x7300, 1, 1, 0x25, 1, 1, .u16, 0, .ro, 0, false, false, 0, .any, .now⟩]  -- FEED_VOUT_MV (R593)

/-- Rows of the objects at 0x7800 to 0x78FF, part 0. -/
def rows78_0 : List ObjRow := [
  ⟨0x7800, 64, 1, 0x1, 1, 1, .bits32, 0, .ro, 0, false, false, 0, .any, .now⟩,  -- KEY_ATTR (R618)
  ⟨0x7800, 64, 1, 0x2, 1, 1, .u64, 0, .ro, 0, false, false, 0, .any, .now⟩,  -- KEY_KCV (R618)
  ⟨0x7800, 64, 1, 0x4, 1, 1, .u32, 0, .rw, 0, false, false, 0x3FFF, .any, .now⟩,  -- KEY_STAGE_CFG (R618)
  ⟨0x7800, 64, 1, 0x5, 1, 1, .octets, 40, .wo, 0, false, false, 0, .any, .now⟩,  -- KEY_MATERIAL (R618)
  ⟨0x7800, 64, 1, 0x6, 1, 1, .octets, 68, .wo, 0, false, false, 0, .any, .now⟩,  -- KEY_DERIVE (R618)
  ⟨0x7800, 64, 1, 0x7, 1, 1, .u8, 0, .wo, 0, false, false, 0, (.range 1 3), .now⟩,  -- KEY_CONTROL (R618)
  ⟨0x7800, 64, 1, 0x8, 1, 1, .u64, 0, .ro, 0, false, false, 0, .any, .now⟩,  -- KEY_SHADOW_KCV (R618)
  ⟨0x7800, 64, 1, 0xA, 1, 1, .u64, 0, .wo, 0, false, false, 0, .any, .now⟩,  -- KEY_COMMIT (R618)
  ⟨0x7800, 64, 1, 0xC, 1, 1, .enum, 0, .ro, 0, false, false, 0, .any, .now⟩,  -- KEY_LAST_RESULT (R618)
  ⟨0x7800, 64, 1, 0xD, 1, 1, .u32, 0, .rc, 0, false, false, 0, .any, .now⟩,  -- KEY_USES (R618)
  ⟨0x7800, 64, 1, 0xE, 1, 1, .u32, 0, .rc, 0, false, false, 0, .any, .now⟩,  -- KEY_REFUSED (R618)
  ⟨0x7800, 64, 1, 0xF, 1, 1, .u32, 0, .ro, 0, false, false, 0, .any, .now⟩]  -- KEY_MRAM_WRITES (R618)

/-- Rows of the objects at 0x9000 to 0x90FF, part 0. -/
def rows90_0 : List ObjRow := [
  ⟨0x9010, 1, 1, 0x1, 1, 1, .u32, 0, .rc, 0, false, false, 0, .any, .now⟩,  -- HOP_RX_LOCAL (R103)
  ⟨0x9010, 1, 1, 0x2, 1, 1, .u32, 0, .rc, 0, false, false, 0, .any, .now⟩,  -- HOP_FORWARDED (R103)
  ⟨0x9010, 1, 1, 0x3, 1, 1, .u32, 0, .rc, 0, false, false, 0, .any, .now⟩,  -- HOP_DROP_TAG (R103)
  ⟨0x9010, 1, 1, 0x4, 1, 1, .u32, 0, .rc, 0, false, false, 0, .any, .now⟩,  -- HOP_DROP_REPLAY (R103)
  ⟨0x9010, 1, 1, 0x5, 1, 1, .u32, 0, .rc, 0, false, false, 0, .any, .now⟩,  -- HOP_DROP_FORMAT (R103)
  ⟨0x9010, 1, 1, 0x6, 1, 1, .u32, 0, .rc, 0, false, false, 0, .any, .now⟩,  -- HOP_DROP_SLOT (R103)
  ⟨0x9010, 1, 1, 0x7, 1, 1, .u32, 0, .rc, 0, false, false, 0, .any, .now⟩,  -- HOP_DROP_BUSY (R103)
  ⟨0x9010, 1, 1, 0x8, 1, 1, .u32, 0, .rc, 0, false, false, 0, .any, .now⟩,  -- HOP_LATE_RESPONSE (R103)
  ⟨0x9010, 1, 1, 0x9, 1, 1, .u32, 0, .rc, 0, false, false, 0, .any, .now⟩,  -- HOP_RESENT (R103)
  ⟨0x9021, 1, 1, 0x1, 32, 1, .u32, 0, .ro, 0, false, false, 0, .any, .now⟩,  -- ERRLOG (R118)
  ⟨0x9021, 1, 1, 0x21, 1, 1, .u32, 0, .rc, 0, false, false, 0, .any, .now⟩,  -- ERRLOG_COUNT (R118)
  ⟨0x9021, 1, 1, 0x22, 1, 1, .u8, 0, .ro, 0, false, false, 0, .any, .now⟩,  -- ERRLOG_NEXT (R118)
  ⟨0x9020, 1, 1, 0x1, 32, 1, .u32, 0, .ro, 0, false, false, 0, .any, .now⟩,  -- DISCARD_LOG (R122)
  ⟨0x9020, 1, 1, 0x21, 1, 1, .u32, 0, .rc, 0, false, false, 0, .any, .now⟩,  -- DISCARD_COUNT (R122)
  ⟨0x9030, 8, 1, 0x1, 1, 1, .u32, 0, .rc, 0, false, false, 0, .any, .now⟩,  -- TURNS (R167)
  ⟨0x9030, 8, 1, 0x2, 1, 1, .u32, 0, .rc, 0, false, false, 0, .any, .now⟩,  -- TURN_FAIL (R167)
  ⟨0x9030, 8, 1, 0x3, 1, 1, .u32, 0, .rc, 0, false, false, 0, .any, .now⟩,  -- QUIET_ENTRIES (R167)
  ⟨0x9030, 8, 1, 0x4, 1, 1, .u32, 0, .rc, 0, false, false, 0, .any, .now⟩,  -- ALIGN_SLIPS (R167)
  ⟨0x9040, 8, 1, 0x1, 1, 1, .domain, 0, .ro, 0, false, false, 0, .any, .now⟩,  -- EYE_DATA (R176)
  ⟨0x9050, 8, 1, 0x1, 1, 1, .u64, 0, .ro, 0, false, false, 0, .any, .now⟩,  -- CW_TOTAL (R214)
  ⟨0x9050, 8, 1, 0x3, 1, 1, .u32, 0, .rc, 0, false, false, 0, .any, .now⟩,  -- CW_CORRECTED (R214)
  ⟨0x9050, 8, 1, 0x4, 1, 1, .u32, 0, .rc, 0, false, false, 0, .any, .now⟩,  -- SYM_CORRECTED (R214)
  ⟨0x9050, 8, 1, 0x5, 1, 1, .u32, 0, .rc, 0, false, false, 0, .any, .now⟩,  -- CW_UNCORRECTABLE (R214)
  ⟨0x9050, 8, 1, 0x6, 1, 1, .u32, 0, .rc, 0, false, false, 0, .any, .now⟩]  -- CELL_HDR_CRC (R214)

/-- Rows of the objects at 0x9000 to 0x90FF, part 1. -/
def rows90_1 : List ObjRow := [
  ⟨0x9050, 8, 1, 0x10, 16, 1, .u32, 0, .rc, 0, false, false, 0, .any, .now⟩,  -- FEC_HIST (R214)
  ⟨0x9058, 2, 1, 0x1, 1, 1, .u64, 0, .ro, 0, false, false, 0, .any, .now⟩,  -- CELLS_RX (R214)
  ⟨0x9058, 2, 1, 0x3, 1, 1, .u32, 0, .rc, 0, false, false, 0, .any, .now⟩,  -- CELLS_DROP_CW (R214)
  ⟨0x9058, 2, 1, 0x4, 1, 1, .u32, 0, .rc, 0, false, false, 0, .any, .now⟩,  -- SEQ_GAPS (R214)
  ⟨0x9058, 2, 1, 0x5, 1, 1, .u32, 0, .rc, 0, false, false, 0, .any, .now⟩,  -- AUTH_FAIL (R214)
  ⟨0x9058, 2, 1, 0x6, 1, 1, .u32, 0, .rc, 0, false, false, 0, .any, .now⟩,  -- CELL_FORMAT (R214)
  ⟨0x9060, 2, 1, 0x1, 1, 1, .u32, 0, .rc, 0, false, false, 0, .any, .now⟩,  -- ALLOT_CHANGES (R250)
  ⟨0x9060, 2, 1, 0x2, 1, 1, .u32, 0, .rc, 0, false, false, 0, .any, .now⟩,  -- PLAN_LATE (R250)
  ⟨0x9060, 2, 1, 0x3, 1, 1, .u32, 0, .rc, 0, false, false, 0, .any, .now⟩,  -- REPORT_MISSING (R250)
  ⟨0x9060, 2, 1, 0x4, 1, 1, .u32, 0, .rc, 0, false, false, 0, .any, .now⟩,  -- ANNOUNCE_UNACKED (R250)
  ⟨0x9060, 2, 1, 0x5, 1, 1, .u32, 0, .rc, 0, false, false, 0, .any, .now⟩,  -- ALLOT_MISMATCHES (R250)
  ⟨0x9060, 2, 1, 0x6, 1, 1, .u32, 0, .rc, 0, false, false, 0, .any, .now⟩,  -- ALLOT_ROLE_SWAPS (R250)
  ⟨0x9060, 2, 1, 0x7, 1, 1, .u32, 0, .rc, 0, false, false, 0, .any, .now⟩,  -- SWAP_REFUSALS (R250)
  ⟨0x9060, 2, 1, 0x10, 16, 1, .u32, 0, .rc, 0, false, false, 0, .any, .now⟩,  -- EPOCHS_AT_CODE (R250)
  ⟨0x9070, 1, 1, 0x1, 1, 1, .u64, 0, .ro, 0, false, false, 0, .any, .now⟩,  -- CELLS_SWITCHED (R282)
  ⟨0x9070, 1, 1, 0x3, 1, 1, .u32, 0, .rc, 0, false, false, 0, .any, .now⟩,  -- CUT_THROUGH (R282)
  ⟨0x9070, 1, 1, 0x4, 1, 1, .u32, 0, .rc, 0, false, false, 0, .any, .now⟩,  -- STORED (R282)
  ⟨0x9070, 1, 1, 0x5, 1, 1, .u32, 0, .rc, 0, false, false, 0, .any, .now⟩,  -- NO_TUNNEL (R282)
  ⟨0x9070, 1, 1, 0x6, 1, 1, .u32, 0, .rc, 0, false, false, 0, .any, .now⟩,  -- HOP_LIMIT (R282)
  ⟨0x9070, 1, 1, 0x7, 1, 1, .u32, 0, .rc, 0, false, false, 0, .any, .now⟩,  -- ADMIT_DROP (R282)
  ⟨0x9070, 1, 1, 0x8, 1, 1, .u32, 0, .rc, 0, false, false, 0, .any, .now⟩,  -- ADMIT_HELD (R282)
  ⟨0x9070, 1, 1, 0x9, 1, 1, .u32, 0, .rc, 0, false, false, 0, .any, .now⟩,  -- CORE_ECC_CORRECTED (R282)
  ⟨0x9070, 1, 1, 0xA, 1, 1, .u32, 0, .rc, 0, false, false, 0, .any, .now⟩,  -- CORE_ECC_UNCORRECTABLE (R282)
  ⟨0x9070, 1, 1, 0xB, 1, 1, .u32, 0, .rc, 0, false, false, 0, .any, .now⟩]  -- CAM_LINES_DROPPED (R282)

/-- Rows of the objects at 0x9000 to 0x90FF, part 2. -/
def rows90_2 : List ObjRow := [
  ⟨0x9070, 1, 1, 0xC, 1, 1, .u32, 0, .rc, 0, false, false, 0, .any, .now⟩,  -- MARKED (R282)
  ⟨0x9070, 1, 1, 0xD, 1, 1, .u32, 0, .rc, 0, false, false, 0, .any, .now⟩,  -- PIN_MOVES (R282)
  ⟨0x9070, 1, 1, 0xE, 1, 1, .u32, 0, .rc, 0, false, false, 0, .any, .now⟩,  -- PIN_DISCARD (R282)
  ⟨0x9071, 1, 1, 0x1, 8, 1, .u32, 0, .rc, 0, false, false, 0, .any, .now⟩,  -- CLASS_DROPS (R282)
  ⟨0x9071, 1, 1, 0x11, 8, 1, .u32, 0, .rc, 0, false, false, 0, .any, .now⟩,  -- CLASS_PEAK (R282)
  ⟨0x9072, 1, 1, 0x1, 1, 1, .u32, 0, .rc, 0, false, false, 0, .any, .now⟩,  -- SPILL_WRITES (R282)
  ⟨0x9072, 1, 1, 0x2, 1, 1, .u32, 0, .rc, 0, false, false, 0, .any, .now⟩,  -- SPILL_READS (R282)
  ⟨0x9072, 1, 1, 0x3, 1, 1, .u32, 0, .rc, 0, false, false, 0, .any, .now⟩,  -- SPILL_BYPASS (R282)
  ⟨0x9080, 15, 1, 0x1, 8, 1, .u32, 0, .rc, 0, false, false, 0, .any, .now⟩,  -- CLASS_TX (R308)
  ⟨0x9080, 15, 1, 0x9, 1, 1, .u32, 0, .rc, 0, false, false, 0, .any, .now⟩,  -- IDLE_SLOTS (R308)
  ⟨0x9080, 15, 1, 0xA, 1, 1, .u32, 0, .rc, 0, false, false, 0, .any, .now⟩,  -- GATE_HELD (R308)
  ⟨0x9080, 15, 1, 0xB, 1, 1, .u32, 0, .rc, 0, false, false, 0, .any, .now⟩,  -- RESCALE_CHANGES (R308)
  ⟨0x9080, 15, 1, 0x11, 8, 1, .u32, 0, .rc, 0, false, false, 0, .any, .now⟩,  -- CLASS_QUEUE_PEAK (R308)
  ⟨0x90A0, 2, 1, 0x1, 1, 1, .u32, 0, .rc, 0, false, false, 0, .any, .now⟩,  -- TLP_RX (R339)
  ⟨0x90A0, 2, 1, 0x2, 1, 1, .u32, 0, .rc, 0, false, false, 0, .any, .now⟩,  -- TLP_TX (R339)
  ⟨0x90A0, 2, 1, 0x3, 1, 1, .u32, 0, .rc, 0, false, false, 0, .any, .now⟩,  -- UR_SENT (R339)
  ⟨0x90A0, 2, 1, 0x4, 1, 1, .u32, 0, .rc, 0, false, false, 0, .any, .now⟩,  -- CREDIT_STALLS (R339)
  ⟨0x90A0, 2, 1, 0x5, 1, 1, .u32, 0, .rc, 0, false, false, 0, .any, .now⟩,  -- FENCE_WAITS (R339)
  ⟨0x90A2, 1, 1, 0x1, 1, 1, .u32, 0, .rc, 0, false, false, 0, .any, .now⟩,  -- NP_FULL (R339)
  ⟨0x90A2, 1, 1, 0x2, 1, 1, .u32, 0, .rc, 0, false, false, 0, .any, .now⟩,  -- CPL_SYNTH_CA (R339)
  ⟨0x90A2, 1, 1, 0x3, 1, 1, .u32, 0, .rc, 0, false, false, 0, .any, .now⟩,  -- CPL_SYNTH_UR (R339)
  ⟨0x90A2, 1, 1, 0x4, 1, 1, .u32, 0, .rc, 0, false, false, 0, .any, .now⟩,  -- CPL_LATE (R339)
  ⟨0x90B0, 16, 1, 0x1, 1, 1, .u32, 0, .rc, 0, false, false, 0, .any, .now⟩,  -- FRAMES (R357)
  ⟨0x90B0, 16, 1, 0x2, 1, 1, .u32, 0, .rc, 0, false, false, 0, .any, .now⟩]  -- FRAMES_INCOMPLETE (R357)

/-- Rows of the objects at 0x9000 to 0x90FF, part 3. -/
def rows90_3 : List ObjRow := [
  ⟨0x90B0, 16, 1, 0x3, 1, 1, .u32, 0, .rc, 0, false, false, 0, .any, .now⟩,  -- LINES_SENT (R357)
  ⟨0x90B0, 16, 1, 0x4, 1, 1, .u32, 0, .rc, 0, false, false, 0, .any, .now⟩,  -- LINES_DROPPED (R357)
  ⟨0x90B0, 16, 1, 0x5, 1, 1, .u32, 0, .rc, 0, false, false, 0, .any, .now⟩,  -- LINES_TRUNCATED (R357)
  ⟨0x90B0, 16, 1, 0x6, 1, 1, .u32, 0, .rc, 0, false, false, 0, .any, .now⟩,  -- LINES_BAD_CRC (R357)
  ⟨0x90B0, 16, 1, 0x7, 1, 1, .u32, 0, .rc, 0, false, false, 0, .any, .now⟩,  -- FE_SYNTHESISED (R357)
  ⟨0x90B0, 16, 1, 0x8, 1, 1, .u32, 0, .rc, 0, false, false, 0, .any, .now⟩,  -- OUTSIDE_FRAME (R357)
  ⟨0x90C0, 4, 1, 0x1, 1, 1, .u32, 0, .rc, 0, false, false, 0, .any, .now⟩,  -- PH_CORRECTED (R357)
  ⟨0x90C0, 4, 1, 0x2, 1, 1, .u32, 0, .rc, 0, false, false, 0, .any, .now⟩,  -- PH_UNCORRECTABLE (R357)
  ⟨0x90C0, 4, 1, 0x3, 1, 1, .u32, 0, .rc, 0, false, false, 0, .any, .now⟩,  -- PAYLOAD_CRC (R357)
  ⟨0x90C0, 4, 1, 0x4, 1, 1, .u32, 0, .rc, 0, false, false, 0, .any, .now⟩,  -- SOT_ERRORS (R357)
  ⟨0x90C0, 4, 1, 0x5, 1, 1, .u32, 0, .rc, 0, false, false, 0, .any, .now⟩,  -- UNMAPPED (R357)
  ⟨0x90D0, 2, 1, 0x1, 1, 1, .u32, 0, .rc, 0, false, false, 0, .any, .now⟩,  -- UNDERRUN_LINES (R382)
  ⟨0x90D0, 2, 1, 0x2, 1, 1, .u32, 0, .rc, 0, false, false, 0, .any, .now⟩,  -- LATE_FLIPS (R382)
  ⟨0x90D0, 2, 1, 0x3, 1, 1, .u32, 0, .rc, 0, false, false, 0, .any, .now⟩,  -- RECORDS_WRITTEN (R382)
  ⟨0x90D0, 2, 1, 0x4, 1, 1, .u32, 0, .rc, 0, false, false, 0, .any, .now⟩,  -- RECORDS_DISCARDED (R382)
  ⟨0x90D0, 2, 1, 0x5, 1, 1, .u32, 0, .rc, 0, false, false, 0, .any, .now⟩,  -- FLIPS (R382)
  ⟨0x90D0, 2, 1, 0x6, 1, 1, .u32, 0, .rc, 0, false, false, 0, .any, .now⟩,  -- SR_ENTRIES (R382)
  ⟨0x90D0, 2, 1, 0x7, 1, 1, .u32, 0, .rc, 0, false, false, 0, .any, .now⟩,  -- SR_EXITS (R382)
  ⟨0x90D0, 2, 1, 0x8, 1, 1, .u32, 0, .rc, 0, false, false, 0, .any, .now⟩,  -- SU_FRAMES (R382)
  ⟨0x90D0, 2, 1, 0x9, 1, 1, .u32, 0, .rc, 0, false, false, 0, .any, .now⟩,  -- SR_ENTRY_FAILS (R382)
  ⟨0x90D0, 2, 1, 0xA, 1, 1, .u32, 0, .rc, 0, false, false, 0, .any, .now⟩,  -- LINK_TRAININGS (R382)
  ⟨0x90D0, 2, 1, 0xB, 1, 1, .u32, 0, .rc, 0, false, false, 0, .any, .now⟩,  -- HPD_IRQS (R382)
  ⟨0x90D0, 2, 1, 0xC, 1, 1, .u32, 0, .rc, 0, false, false, 0, .any, .now⟩,  -- CARRY_BYTES (R382)
  ⟨0x90E4, 2, 1, 0x1, 1, 1, .u32, 0, .rc, 0, false, false, 0, .any, .now⟩]  -- XCHG_SENT (R408)

/-- Rows of the objects at 0x9000 to 0x90FF, part 4. -/
def rows90_4 : List ObjRow := [
  ⟨0x90E4, 2, 1, 0x2, 1, 1, .u32, 0, .rc, 0, false, false, 0, .any, .now⟩,  -- XCHG_ACCEPTED (R408)
  ⟨0x90E4, 2, 1, 0x3, 1, 1, .u32, 0, .rc, 0, false, false, 0, .any, .now⟩,  -- XCHG_DISCARDED (R408)
  ⟨0x90E0, 2, 1, 0x1, 1, 1, .u32, 0, .rc, 0, false, false, 0, .any, .now⟩,  -- RX_FRAMES (R409)
  ⟨0x90E0, 2, 1, 0x2, 1, 1, .u32, 0, .rc, 0, false, false, 0, .any, .now⟩,  -- TX_FRAMES (R409)
  ⟨0x90E0, 2, 1, 0x3, 1, 1, .u32, 0, .rc, 0, false, false, 0, .any, .now⟩,  -- RX_ERRORS (R409)
  ⟨0x90E0, 2, 1, 0x4, 1, 1, .u32, 0, .rc, 0, false, false, 0, .any, .now⟩,  -- RX_UNMATCHED (R409)
  ⟨0x90E0, 2, 1, 0x5, 1, 1, .u32, 0, .rc, 0, false, false, 0, .any, .now⟩,  -- PTP_RX (R409)
  ⟨0x90E0, 2, 1, 0x6, 1, 1, .u32, 0, .rc, 0, false, false, 0, .any, .now⟩,  -- LOCAL_RX (R409)
  ⟨0x90E0, 2, 1, 0x7, 1, 1, .u32, 0, .rc, 0, false, false, 0, .any, .now⟩,  -- TX_REASSEMBLY_DROP (R409)
  ⟨0x90E0, 2, 1, 0x8, 1, 1, .u32, 0, .rc, 0, false, false, 0, .any, .now⟩,  -- GATE_OVERSIZE (R409)
  ⟨0x90E2, 1, 1, 0x1, 1, 1, .u32, 0, .rc, 0, false, false, 0, .any, .now⟩,  -- TIME_STEPS (R409)
  ⟨0x90E2, 1, 1, 0x2, 1, 1, .u32, 0, .rc, 0, false, false, 0, .any, .now⟩,  -- LOCK_LOSSES (R409)
  ⟨0x90E2, 1, 1, 0x3, 1, 1, .u32, 0, .rc, 0, false, false, 0, .any, .now⟩,  -- SERVO_CLAMPED (R409)
  ⟨0x90E2, 1, 1, 0x4, 1, 1, .u32, 0, .rc, 0, false, false, 0, .any, .now⟩,  -- HOLDOVERS (R409)
  ⟨0x90F0, 8, 1, 0x1, 1, 1, .u32, 0, .rc, 0, false, false, 0, .any, .now⟩,  -- LINK_CYCLES (R442)
  ⟨0x90F0, 8, 1, 0x2, 1, 1, .u32, 0, .rc, 0, false, false, 0, .any, .now⟩,  -- DROP_MISSING (R442)
  ⟨0x90F0, 8, 1, 0x3, 1, 1, .u32, 0, .rc, 0, false, false, 0, .any, .now⟩,  -- LINK_CRC (R442)
  ⟨0x90F0, 8, 1, 0x4, 1, 1, .u32, 0, .rc, 0, false, false, 0, .any, .now⟩,  -- CMD_MISSING (R442)
  ⟨0x90F0, 8, 1, 0x5, 1, 1, .u32, 0, .rc, 0, false, false, 0, .any, .now⟩,  -- SAFE_STOP_FRAMES (R442)
  ⟨0x90F8, 1, 1, 0x1, 1, 1, .u32, 0, .rc, 0, false, false, 0, .any, .now⟩,  -- CELLS_LATE (R442)
  ⟨0x90F8, 1, 1, 0x2, 1, 1, .u32, 0, .rc, 0, false, false, 0, .any, .now⟩,  -- CYCLE_MISMATCH (R442)
  ⟨0x90F8, 1, 1, 0x3, 1, 1, .u32, 0, .rc, 0, false, false, 0, .any, .now⟩,  -- SECTION_CRC (R442)
  ⟨0x90F8, 1, 1, 0x4, 1, 1, .u32, 0, .rc, 0, false, false, 0, .any, .now⟩,  -- CYCLES_SKIPPED (R442)
  ⟨0x90F8, 1, 1, 0x5, 1, 1, .u32, 0, .rc, 0, false, false, 0, .any, .now⟩]  -- MOT_INTEGRITY_FAULTS (R442)

/-- Rows of the objects at 0x9000 to 0x90FF, part 5. -/
def rows90_5 : List ObjRow := [
  ⟨0x9090, 1, 1, 0x1, 14, 1, .u32, 0, .rc, 0, false, false, 0, .any, .now⟩]  -- INGRESS_DROPS (R308)

/-- Rows of the objects at 0x9100 to 0x91FF, part 0. -/
def rows91_0 : List ObjRow := [
  ⟨0x9100, 1, 1, 0x1, 1, 1, .u32, 0, .rc, 0, false, false, 0, .any, .now⟩,  -- MSG_MALFORMED (R464)
  ⟨0x9100, 1, 1, 0x2, 1, 1, .u32, 0, .rc, 0, false, false, 0, .any, .now⟩,  -- GPIO_REPORTS (R464)
  ⟨0x9100, 1, 1, 0x3, 1, 1, .u32, 0, .rc, 0, false, false, 0, .any, .now⟩,  -- GPIO_LATE_CMDS (R464)
  ⟨0x9100, 1, 1, 0x4, 1, 1, .u32, 0, .rc, 0, false, false, 0, .any, .now⟩,  -- XFER_QUEUE_FULL (R464)
  ⟨0x9100, 1, 1, 0x5, 1, 1, .u32, 0, .rc, 0, false, false, 0, .any, .now⟩,  -- XFER_ERRORS (R464)
  ⟨0x9100, 1, 1, 0x6, 1, 1, .u32, 0, .rc, 0, false, false, 0, .any, .now⟩,  -- POLL_SKIPPED (R464)
  ⟨0x9100, 1, 1, 0x7, 1, 1, .u32, 0, .rc, 0, false, false, 0, .any, .now⟩,  -- GO_IGNORED (R464)
  ⟨0x9100, 1, 1, 0x8, 1, 1, .u32, 0, .rc, 0, false, false, 0, .any, .now⟩,  -- UART_OVERRUN (R464)
  ⟨0x9100, 1, 1, 0x9, 1, 1, .u32, 0, .rc, 0, false, false, 0, .any, .now⟩,  -- UART_FRAMING (R464)
  ⟨0x9100, 1, 1, 0xA, 1, 1, .u32, 0, .rc, 0, false, false, 0, .any, .now⟩,  -- UART_LOST_BYTES (R464)
  ⟨0x9100, 1, 1, 0xB, 1, 1, .u32, 0, .rc, 0, false, false, 0, .any, .now⟩,  -- UART_CREDIT_STALLS (R464)
  ⟨0x9100, 1, 1, 0xC, 1, 1, .u32, 0, .rc, 0, false, false, 0, .any, .now⟩,  -- REGION_REFUSED (R464)
  ⟨0x9110, 1, 1, 0x1, 1, 1, .u32, 0, .rc, 0, false, false, 0, .any, .now⟩,  -- OVERCURRENT (R464)
  ⟨0x9110, 1, 1, 0x2, 1, 1, .u32, 0, .rc, 0, false, false, 0, .any, .now⟩,  -- PROXY_ISO_DISCARDED (R464)
  ⟨0x9110, 1, 1, 0x3, 1, 1, .u32, 0, .rc, 0, false, false, 0, .any, .now⟩,  -- PROXY_NAKS (R464)
  ⟨0x9110, 1, 1, 0x4, 1, 1, .u32, 0, .rc, 0, false, false, 0, .any, .now⟩,  -- BUS_RESETS (R464)
  ⟨0x9110, 1, 1, 0x5, 1, 1, .u32, 0, .rc, 0, false, false, 0, .any, .now⟩,  -- ABORTED_CONTROL (R464)
  ⟨0x9110, 1, 1, 0x6, 1, 1, .u32, 0, .rc, 0, false, false, 0, .any, .now⟩,  -- STALE_REPLIES (R464)
  ⟨0x9110, 1, 1, 0x7, 1, 1, .u32, 0, .rc, 0, false, false, 0, .any, .now⟩,  -- WAKE_SUPERSEDED (R464)
  ⟨0x9110, 1, 1, 0x8, 1, 1, .u32, 0, .rc, 0, false, false, 0, .any, .now⟩,  -- SUSPENDS (R464)
  ⟨0x9120, 12, 1, 0x1, 1, 1, .u32, 0, .rc, 0, false, false, 0, .any, .now⟩,  -- WDOG_EXPIRIES (R497)
  ⟨0x9120, 12, 1, 0x2, 1, 1, .u32, 0, .rc, 0, false, false, 0, .any, .now⟩,  -- ENG_ECC_CORRECTED (R497)
  ⟨0x9120, 12, 1, 0x3, 1, 1, .u32, 0, .rc, 0, false, false, 0, .any, .now⟩,  -- ENG_ECC_UNCORRECTABLE (R497)
  ⟨0x9120, 12, 1, 0x4, 1, 1, .u32, 0, .rc, 0, false, false, 0, .any, .now⟩]  -- ACCESS_FAULTS (R497)

/-- Rows of the objects at 0x9100 to 0x91FF, part 1. -/
def rows91_1 : List ObjRow := [
  ⟨0x9120, 12, 1, 0x5, 1, 1, .u32, 0, .rc, 0, false, false, 0, .any, .now⟩,  -- ENG_WAKES (R497)
  ⟨0x9130, 1, 1, 0x1, 1, 1, .u32, 0, .rc, 0, false, false, 0, .any, .now⟩,  -- IC_SPURIOUS (R497)
  ⟨0x9130, 1, 1, 0x2, 1, 1, .u32, 0, .rc, 0, false, false, 0, .any, .now⟩,  -- IC_REFIRES (R497)
  ⟨0x9130, 1, 1, 0x3, 1, 1, .u32, 0, .rc, 0, false, false, 0, .any, .now⟩,  -- IC_OFF_TARGET (R497)
  ⟨0x9130, 1, 1, 0x4, 1, 1, .u32, 0, .rc, 0, false, false, 0, .any, .now⟩,  -- IC_BAD_COMPLETE (R497)
  ⟨0x9140, 11, 1, 0x1, 1, 1, .u32, 0, .rc, 0, false, false, 0, .any, .now⟩,  -- CD_SWITCHES (R517)
  ⟨0x9140, 11, 1, 0x2, 1, 1, .u32, 0, .rc, 0, false, false, 0, .any, .now⟩,  -- CD_HELD (R517)
  ⟨0x914F, 1, 1, 0x1, 1, 1, .u32, 0, .rc, 0, false, false, 0, .any, .now⟩,  -- MON_TRIPS (R517)
  ⟨0x914F, 1, 1, 0x2, 1, 1, .u32, 0, .rc, 0, false, false, 0, .any, .now⟩,  -- RC_QUAL_FAILS (R517)
  ⟨0x914F, 1, 1, 0x3, 1, 1, .u32, 0, .rc, 0, false, false, 0, .any, .now⟩,  -- RC_TRIM_STEPS (R517)
  ⟨0x9150, 25, 1, 0x1, 1, 1, .u32, 0, .rc, 0, false, false, 0, .any, .now⟩,  -- DOM_WAKES (R541)
  ⟨0x9150, 25, 1, 0x2, 1, 1, .u32, 0, .rc, 0, false, false, 0, .any, .now⟩,  -- DOM_RESTS (R541)
  ⟨0x9150, 25, 1, 0x3, 1, 1, .u32, 0, .rc, 0, false, false, 0, .any, .now⟩,  -- WAKE_LATE (R541)
  ⟨0x9150, 25, 1, 0x4, 1, 1, .u32, 0, .rc, 0, false, false, 0, .any, .now⟩,  -- ACCESS_WAKES (R541)
  ⟨0x9170, 1, 1, 0x1, 1, 1, .u32, 0, .rc, 0, false, false, 0, .any, .now⟩,  -- AVS_REQUESTS (R541)
  ⟨0x9170, 1, 1, 0x2, 1, 1, .u32, 0, .rc, 0, false, false, 0, .any, .now⟩,  -- AVS_NO_ACK (R541)
  ⟨0x9170, 1, 1, 0x3, 1, 1, .u32, 0, .rc, 0, false, false, 0, .any, .now⟩,  -- AVS_FALLBACKS (R541)
  ⟨0x9170, 1, 1, 0x4, 1, 1, .u32, 0, .rc, 0, false, false, 0, .any, .now⟩,  -- VCORE_CHANGES (R541)
  ⟨0x9170, 1, 1, 0x5, 1, 1, .u32, 0, .rc, 0, false, false, 0, .any, .now⟩,  -- PL_CHANGES (R541)
  ⟨0x9170, 1, 1, 0x6, 1, 1, .u32, 0, .rc, 0, false, false, 0, .any, .now⟩,  -- PL_DEFERRED (R541)
  ⟨0x9170, 1, 1, 0x7, 1, 1, .u32, 0, .rc, 0, false, false, 0, .any, .now⟩,  -- SENSOR_RAISES (R541)
  ⟨0x9180, 2, 1, 0x1, 1, 1, .u32, 0, .rc, 0, false, false, 0, .any, .now⟩,  -- ATTACHES (R570)
  ⟨0x9180, 2, 1, 0x2, 1, 1, .u32, 0, .rc, 0, false, false, 0, .any, .now⟩,  -- CONTRACTS (R570)
  ⟨0x9180, 2, 1, 0x3, 1, 1, .u32, 0, .rc, 0, false, false, 0, .any, .now⟩]  -- TRANSITIONS_ABORTED (R570)

/-- Rows of the objects at 0x9100 to 0x91FF, part 2. -/
def rows91_2 : List ObjRow := [
  ⟨0x9180, 2, 1, 0x4, 1, 1, .u32, 0, .rc, 0, false, false, 0, .any, .now⟩,  -- WAIT_RETRIES (R570)
  ⟨0x9180, 2, 1, 0x5, 1, 1, .u32, 0, .rc, 0, false, false, 0, .any, .now⟩,  -- HARD_RESETS (R570)
  ⟨0x9180, 2, 1, 0x6, 1, 1, .u32, 0, .rc, 0, false, false, 0, .any, .now⟩,  -- PD_ROLE_SWAPS (R570)
  ⟨0x9180, 2, 1, 0x7, 1, 1, .u32, 0, .rc, 0, false, false, 0, .any, .now⟩,  -- SWAPS_SUPERSEDED (R570)
  ⟨0x9180, 2, 1, 0x8, 1, 1, .u32, 0, .rc, 0, false, false, 0, .any, .now⟩,  -- MSG_RETRIES (R570)
  ⟨0x9190, 8, 1, 0x1, 1, 1, .u32, 0, .rc, 0, false, false, 0, .any, .now⟩,  -- STARTS (R594)
  ⟨0x9190, 8, 1, 0x2, 1, 1, .u32, 0, .rc, 0, false, false, 0, .any, .now⟩,  -- FAULTS (R594)
  ⟨0x9190, 8, 1, 0x3, 1, 1, .u32, 0, .rc, 0, false, false, 0, .any, .now⟩,  -- FAST_TRIPS (R594)
  ⟨0x9190, 8, 1, 0x4, 1, 1, .u32, 0, .rc, 0, false, false, 0, .any, .now⟩,  -- LATCHES (R594)
  ⟨0x9190, 8, 1, 0x5, 1, 1, .u32, 0, .rc, 0, false, false, 0, .any, .now⟩,  -- SEAT_CHANGES (R594)
  ⟨0x9190, 8, 1, 0x6, 1, 1, .u32, 0, .rc, 0, false, false, 0, .any, .now⟩,  -- HOLDS (R594)
  ⟨0x9198, 1, 1, 0x1, 1, 1, .u32, 0, .rc, 0, false, false, 0, .any, .now⟩,  -- FEED_SWITCHES (R594)
  ⟨0x9198, 1, 1, 0x2, 1, 1, .u32, 0, .rc, 0, false, false, 0, .any, .now⟩,  -- FEED_LOSSES (R594)
  ⟨0x9198, 1, 1, 0x3, 1, 1, .u32, 0, .rc, 0, false, false, 0, .any, .now⟩,  -- BBM_FAILS (R594)
  ⟨0x91A8, 1, 1, 0x1, 1, 1, .enum, 0, .ro, 0, false, false, 0, .any, .now⟩,  -- CADDY_PHASE (R619)
  ⟨0x91A8, 1, 1, 0x2, 1, 1, .bits32, 0, .rc, 0, false, false, 0, .any, .now⟩,  -- CADDY_ATTN (R619)
  ⟨0x91A8, 1, 1, 0x3, 1, 1, .enum, 0, .ro, 0, false, false, 0, .any, .now⟩,  -- ENTROPY_STATE (R619)
  ⟨0x91A0, 1, 1, 0x1, 1, 1, .u32, 0, .rc, 0, false, false, 0, .any, .now⟩,  -- REMASKS (R621)
  ⟨0x91A0, 1, 1, 0x2, 1, 1, .u32, 0, .rc, 0, false, false, 0, .any, .now⟩,  -- REPLACEMENTS (R621)
  ⟨0x91A0, 1, 1, 0x3, 1, 1, .u32, 0, .rc, 0, false, false, 0, .any, .now⟩,  -- KCV_MISMATCHES (R621)
  ⟨0x91A0, 1, 1, 0x4, 1, 1, .u32, 0, .rc, 0, false, false, 0, .any, .now⟩,  -- ORPHANED (R621)
  ⟨0x91A0, 1, 1, 0x5, 1, 1, .u32, 0, .rc, 0, false, false, 0, .any, .now⟩,  -- ZEROISED (R621)
  ⟨0x91A0, 1, 1, 0x6, 1, 1, .u32, 0, .rc, 0, false, false, 0, .any, .now⟩,  -- KEY_INTEGRITY_FAULTS (R621)
  ⟨0x91A0, 1, 1, 0x7, 1, 1, .u32, 0, .rc, 0, false, false, 0, .any, .now⟩]  -- MRAM_KEY_WRITES (R621)

/-- Rows of the objects at 0x9100 to 0x91FF, part 3. -/
def rows91_3 : List ObjRow := [
  ⟨0x91A0, 1, 1, 0x8, 1, 1, .u32, 0, .rc, 0, false, false, 0, .any, .now⟩,  -- ENTROPY_FAILS (R621)
  ⟨0x91A0, 1, 1, 0x9, 1, 1, .u32, 0, .rc, 0, false, false, 0, .any, .now⟩,  -- STAGE_EXPIRED (R621)
  ⟨0x91B0, 1, 1, 0x1, 1, 1, .u32, 0, .rc, 0, false, false, 0, .any, .now⟩,  -- SAFE_STOPS (R652)
  ⟨0x91B0, 1, 1, 0x2, 1, 1, .u32, 0, .rc, 0, false, false, 0, .any, .now⟩,  -- HW_PATH_TRIPS (R652)
  ⟨0x91B0, 1, 1, 0x3, 1, 1, .u32, 0, .rc, 0, false, false, 0, .any, .now⟩,  -- FREEZES (R652)
  ⟨0x91B0, 1, 1, 0x4, 1, 1, .u32, 0, .rc, 0, false, false, 0, .any, .now⟩,  -- RELEASES (R652)
  ⟨0x91B0, 1, 1, 0x5, 1, 1, .u32, 0, .rc, 0, false, false, 0, .any, .now⟩,  -- SS_OPENS (R652)
  ⟨0x91B0, 1, 1, 0x6, 1, 1, .u32, 0, .rc, 0, false, false, 0, .any, .now⟩,  -- SS_REFUSED (R652)
  ⟨0x91B0, 1, 1, 0x7, 1, 1, .u32, 0, .rc, 0, false, false, 0, .any, .now⟩,  -- SELFTEST_RUNS (R652)
  ⟨0x91B0, 1, 1, 0x8, 1, 1, .u32, 0, .rc, 0, false, false, 0, .any, .now⟩,  -- SELFTEST_FAILS (R652)
  ⟨0x91B0, 1, 1, 0x9, 1, 1, .u32, 0, .rc, 0, false, false, 0, .any, .now⟩,  -- STALLS (R652)
  ⟨0x91B0, 1, 1, 0xA, 1, 1, .u32, 0, .rc, 0, false, false, 0, .any, .now⟩,  -- RAIL_FAULTS (R652)
  ⟨0x91B0, 1, 1, 0xB, 1, 1, .u32, 0, .rc, 0, false, false, 0, .any, .now⟩,  -- NOTICES_SENT (R652)
  ⟨0x91B0, 1, 1, 0xC, 1, 1, .u32, 0, .rc, 0, false, false, 0, .any, .now⟩,  -- NOTICES_RECEIVED (R652)
  ⟨0x91B0, 1, 1, 0xD, 1, 1, .u32, 0, .rc, 0, false, false, 0, .any, .now⟩]  -- RESETS_REFUSED (R652)

/-- The rows whose index has high byte `g`. -/
def objRows (g : Nat) : List ObjRow :=
  match g with
  | 0x10 => rows10_0
  | 0x11 => rows11_0
  | 0x12 => rows12_0 ++ rows12_1
  | 0x1F => rows1F_0 ++ rows1F_1
  | 0x20 => rows20_0
  | 0x21 => rows21_0
  | 0x22 => rows22_0 ++ rows22_1
  | 0x23 => rows23_0
  | 0x24 => rows24_0 ++ rows24_1
  | 0x25 => rows25_0
  | 0x30 => rows30_0 ++ rows30_1 ++ rows30_2
  | 0x31 => rows31_0 ++ rows31_1 ++ rows31_2
  | 0x32 => rows32_0 ++ rows32_1
  | 0x33 => rows33_0
  | 0x40 => rows40_0 ++ rows40_1
  | 0x41 => rows41_0
  | 0x50 => rows50_0 ++ rows50_1
  | 0x51 => rows51_0
  | 0x52 => rows52_0 ++ rows52_1
  | 0x53 => rows53_0 ++ rows53_1 ++ rows53_2
  | 0x54 => rows54_0 ++ rows54_1
  | 0x55 => rows55_0
  | 0x56 => rows56_0
  | 0x60 => rows60_0 ++ rows60_1
  | 0x70 => rows70_0 ++ rows70_1
  | 0x71 => rows71_0 ++ rows71_1
  | 0x72 => rows72_0
  | 0x73 => rows73_0
  | 0x78 => rows78_0
  | 0x90 => rows90_0 ++ rows90_1 ++ rows90_2 ++ rows90_3 ++ rows90_4 ++ rows90_5
  | 0x91 => rows91_0 ++ rows91_1 ++ rows91_2 ++ rows91_3
  | _ => []

/-- The objects with both attributes S and P, in index and subindex order (R644). -/
def safetySignedKeys : List Nat := [
  0x1F0009, 0x1F000A, 0x1F000B, 0x1F0106, 0x1F0107, 0x240004, 0x240005, 0x241003, 0x241103, 0x241203,
  0x241303, 0x241403, 0x241503, 0x241603, 0x241703, 0x241803, 0x241903, 0x241A03, 0x241B03, 0x24A001,
  0x24A002, 0x24A003, 0x24A004, 0x24A005, 0x24A006, 0x24A007, 0x24A008, 0x24A009, 0x24A101, 0x24A102,
  0x24A103, 0x24A104, 0x24A105, 0x24A106, 0x24A107, 0x24A108, 0x24A109, 0x304101, 0x304102, 0x314101,
  0x314102, 0x540006, 0x700007, 0x710007, 0x730001]

end Sys2Proof.Machine
end

