-- ==== Sys2Proof/Machine/Ops.lean ====
section
/-! DEFINITION. The named operations over the hub's state that every family of commands shares: the object store and its
defaults, memory, timers, events, outputs, results, origins, deferred values and the frame in which a command runs. -/

namespace Sys2Proof.Machine

/-! ### Overlays -/

/-- The value listed for a key. -/
def findCell {α : Type} : List (Nat × α) → Nat → Option α
  | [], _ => none
  | (k', v) :: t, k => if k == k' then some v else findCell t k

/-- The canonical list with `k` set to `v`; the value an unlisted key reads as is not listed. -/
def insertCell {α : Type} [DecidableEq α] (d : Nat → α) (k : Nat) (v : α) : List (Nat × α) → List (Nat × α)
  | [] => if v = d k then [] else [(k, v)]
  | (k', v') :: t =>
    if k < k' then (if v = d k then (k', v') :: t else (k, v) :: (k', v') :: t)
    else if k = k' then (if v = d k then t else (k, v) :: t)
    else (k', v') :: insertCell d k v t

/-- The value an overlay gives a key. -/
def Overlay.read {α : Type} (d : Nat → α) (o : Overlay α) (k : Nat) : α :=
  match findCell o.dirty k with
  | some v => v
  | none => (findCell o.base k).getD (d k)

/-- The overlay with `k` set to `v`. -/
def Overlay.write {α : Type} (o : Overlay α) (k : Nat) (v : α) : Overlay α := { o with dirty := (k, v) :: o.dirty }

/-- The base list after the writes of a command, oldest first, each brought into its range by `fit`. -/
def commitCells {α : Type} [DecidableEq α] (d : Nat → α) (fit : Nat → α → α) (dirty base : List (Nat × α)) : List (Nat × α) :=
  dirty.foldr (fun c b => insertCell d c.1 (fit c.1 c.2) b) base

/-- The canonical form: addresses strictly rising, no entry equal to what an unlisted key reads as. -/
def canonical {α : Type} [DecidableEq α] (d : Nat → α) : List (Nat × α) → Bool
  | [] => true
  | [(k, v)] => decide (v ≠ d k)
  | (k, v) :: (k', v') :: t => decide (v ≠ d k) && decide (k < k') && canonical d ((k', v') :: t)

/-! ### Objects -/

/-- The row covers the object. -/
def ObjRow.covers (r : ObjRow) (idx sub : Nat) : Bool :=
  ((Nat.ble r.base idx && Nat.ble (idx + 1) (r.base + r.count)) ||
    (r.ports == 2 && Nat.ble (r.base + 0x100) idx && Nat.ble (idx + 1) (r.base + 0x100 + r.count))) &&
  Nat.ble r.sub sub && (sub - r.sub) % r.step == 0 && Nat.ble ((sub - r.sub) / r.step + 1) r.subs

/-- The row covers the index. -/
def ObjRow.coversIdx (r : ObjRow) (idx : Nat) : Bool := r.covers idx r.sub

/-- Offset of the keys under which values in effect of deferred objects are held. -/
def effOffset : Nat := 0x1000000

/-- The row of an object, from its key (R53). -/
def rowOf (k : Nat) : Option ObjRow :=
  let idx := k % effOffset / 256
  (objRows (idx / 256)).find? fun r => r.covers idx (k % 256)

/-- Bits of a type (R55). -/
def ObjType.width : ObjType → Nat
  | .bool => 1 | .u8 => 8 | .u16 => 16 | .u32 => 32 | .u64 => 64 | .i32 => 32 | .time32 => 32 | .enum => 8 | .bits32 => 32
  | .octets => 0 | .domain => 0

/-- Bytes of a scalar type in HOP data (R55). -/
def ObjType.hopBytes : ObjType → Nat
  | .bool => 1 | .u8 => 1 | .u16 => 2 | .u32 => 4 | .u64 => 8 | .i32 => 4 | .time32 => 4 | .enum => 1 | .bits32 => 4
  | .octets => 0 | .domain => 0

/-- The default of `SRC_CFG` for source `s`, from the table of R488 and the chapters it names. -/
def srcCfgDefault (s : Nat) : Nat :=
  if s ≤ 1 then 0x10
  else if s = 2 then 0
  else if s = 3 then 13
  else if s ≤ 6 then 0x1D
  else if s = 7 then 13
  else if s < 32 then 0
  else if s ≤ 35 then 0x1D
  else if s ≤ 47 then 0x10 + (s - 36)
  else if s ≤ 59 then 0x10 + (s - 48)
  else if s ≤ 71 then 0x10 + (s - 60)
  else if s ≤ 83 then 0x1C
  else if s ≤ 86 then 0x11
  else if s < 96 then 0
  else if s ≤ 115 then 0x1D
  else if s ≤ 124 then 0x1C
  else if s ≤ 127 then 0x1D
  else 13

/-- The default of an object (R61). -/
def objDefault (k : Nat) : Nat :=
  let idx := k % effOffset / 256
  let sub := k % 256
  if Nat.ble 0x2310 idx && Nat.ble idx 0x2312 && Nat.ble 1 sub && Nat.ble sub 0x40 then
    srcCfgDefault (64 * (idx - 0x2310) + sub - 1)
  else match rowOf k with
    | some r => r.dflt
    | none => 0

/-- A value brought into the width of its object. -/
def fitObj (k v : Nat) : Nat :=
  match rowOf k with
  | some r => v % 2 ^ r.ty.width
  | none => 0

/-- The current value of an object: the last accepted value, or the value in effect for a commit group. -/
def Hub.get (h : Hub) (k : Nat) : Nat := h.objs.read objDefault k

/-- The object set to a value of its width. -/
def Hub.put (h : Hub) (k v : Nat) : Hub := { h with objs := h.objs.write k (fitObj k v) }

/-- The object is 1. -/
def Hub.flag (h : Hub) (k : Nat) : Bool := h.get k == 1

/-- The unit at which a value of the object takes effect. -/
def unitOf (k : Nat) : EffUnit := match rowOf k with
  | some r => r.unit
  | none => .now

/-- Whether an object keeps a value in effect apart from its last accepted value. -/
def deferred (k : Nat) : Bool := match rowOf k with
  | some r => r.unit != .now && r.acc != .rwp
  | none => false

/-- The value in effect of an object, which its block uses (R57, R58). -/
def Hub.eff (h : Hub) (k : Nat) : Nat := if deferred k then h.get (effOffset + k) else h.get k

/-- The value of an OCTETS or DOMAIN object. -/
def Hub.oct (h : Hub) (k : Nat) : List Byte := (findCell h.octs k).getD []

/-- An OCTETS or DOMAIN object set. -/
def Hub.putOct (h : Hub) (k : Nat) (bs : List Byte) : Hub :=
  let rest := h.octs.filter (fun c => c.1 != k)
  { h with octs := if bs.isEmpty then rest else (k, bs) :: rest }

/-- The highest subindex defined at an index, both words of a 64-bit object counted (R54). -/
def highSub (idx : Nat) : Nat :=
  ((objRows (idx / 256)).filter (·.coversIdx idx)).foldl
    (fun m r => max m (r.sub + r.step * (r.subs - 1) + (if r.ty == .u64 then 1 else 0))) 0

/-- The index is defined. -/
def idxDefined (idx : Nat) : Bool := (objRows (idx / 256)).any (·.coversIdx idx)

/-! ### Memory -/

/-- LPDDR5X byte `a` (R105, R275, R361). -/
def dramAddr (a : Nat) : Nat := a
/-- Shared firmware SRAM byte `a` (R466). -/
def sramAddr (a : Nat) : Nat := 2 ^ 33 + a
/-- Byte `a` of the TCM of an engine (R466). -/
def tcmAddr (e : Engine) (a : Nat) : Nat := 2 ^ 34 + e.val * 2 ^ 16 + a % 2 ^ 16

/-- What a byte of memory that nothing has written reads as (log entry 4). -/
def memDefault (_ : Nat) : Byte := 0

/-- One byte of memory. -/
def Hub.memGet (h : Hub) (a : Nat) : Byte := h.mem.read memDefault a

/-- One byte of memory written. -/
def Hub.memPut (h : Hub) (a : Nat) (b : Byte) : Hub := { h with mem := h.mem.write a b }

/-- Bytes of memory from an address. -/
def Hub.memRead (h : Hub) (a n : Nat) : List Byte := (List.range n).map fun i => h.memGet (a + i)

/-- Bytes written from an address, the first at the lowest. -/
def Hub.memWrite (h : Hub) (a : Nat) : List Byte → Hub
  | [] => h
  | b :: bs => (h.memPut a b).memWrite (a + 1) bs

/-- The canonical form of the memory holds. -/
abbrev Memory.wf (h : Hub) : Prop := canonical memDefault h.mem.base = true

/-! ### Free values, outputs, timers -/

/-- The next free value of `w` bits (log entry 2). -/
def Hub.free (h : Hub) (w : Nat) : Nat := (Config.freeValue w h.freeCtr).toNat

/-- The hub with that free value used up. -/
def Hub.used (h : Hub) : Hub := { h with freeCtr := h.freeCtr + 1 }

/-- Something put on an output. -/
def Hub.emit (h : Hub) (x : Out) : Hub := { h with out := h.out ++ [x] }

/-- A timed event armed, `d` nanoseconds from now, in place of an earlier instant of the same event. -/
def Hub.arm (h : Hub) (t : Timer) (d : Nat) : Hub :=
  { h with timers := (t, h.now + d) :: h.timers.filter (fun x => x.1 != t) }

/-- A timed event that will not come. -/
def Hub.disarm (h : Hub) (t : Timer) : Hub := { h with timers := h.timers.filter (fun x => x.1 != t) }

/-- The timed event is armed. -/
def Hub.armed (h : Hub) (t : Timer) : Bool := h.timers.any (fun x => x.1 == t)

/-- The instant of the timed event has come. -/
def Hub.due (h : Hub) (t : Timer) : Bool := h.timers.any (fun x => x.1 == t && Nat.ble x.2 h.now)

/-- Microseconds. -/
def us (n : Nat) : Nat := 1000 * n
/-- Milliseconds. -/
def ms (n : Nat) : Nat := 1000000 * n

/-- Units of the network-time counter in one nanosecond. -/
def netUnit : Nat := 4000000000

/-- Network time in nanoseconds (R394, R693). -/
def Hub.netNs (h : Hub) : Nat := h.netTime / netUnit

/-- The low 32 bits of network time in nanoseconds, TIME32 (R394). -/
def Hub.time32 (h : Hub) : Nat := h.netNs % 2 ^ 32

/-! ### Counters and events -/

/-- One more in a counter. At the top of its width the spec states no next value: a free value (log entry 3). -/
def Hub.bump (h : Hub) (k : Nat) : Hub :=
  match rowOf k with
  | some r => if h.get k + 1 < 2 ^ r.ty.width then h.put k (h.get k + 1) else (h.put k (h.free r.ty.width)).used
  | none => h

/-- `n` more in a counter, as `bump`. -/
def Hub.bumpBy (h : Hub) (k n : Nat) : Hub :=
  match rowOf k with
  | some r =>
    if n = 0 then h
    else if h.get k + n < 2 ^ r.ty.width then h.put k (h.get k + n) else (h.put k (h.free r.ty.width)).used
  | none => h

/-- One more in a counter that stays at its highest value. -/
def Hub.bumpSat (h : Hub) (k : Nat) : Hub :=
  match rowOf k with
  | some r => if h.get k + 1 < 2 ^ r.ty.width then h.put k (h.get k + 1) else h
  | none => h

/-- A peak object raised to a value it has not reached. -/
def Hub.peak (h : Hub) (k v : Nat) : Hub := if h.get k < v then h.put k v else h

/-- An event raised: its code and the object it names in `EVENT_LAST`, counted in `EVENT_COUNT` (R68). -/
def Hub.event (h : Hub) (code key : Nat) : Hub :=
  (h.put Obj.EVENT_LAST (code * 2 ^ 24 + key % 2 ^ 24)).bump Obj.EVENT_COUNT

/-! ### Deferred values (R57, R58, R71) -/

/-- One waiting value put in effect. -/
def Hub.takeOne (h : Hub) (w : Waiting) : Hub :=
  match rowOf w.key with
  | some r => if r.acc == .rwp then h.put w.key w.val else h.put (effOffset + w.key) w.val
  | none => h

/-- The start of a unit of work: every waiting value of that unit that `scope` selects takes effect, oldest first. -/
def Hub.takeUnit (h : Hub) (u : EffUnit) (scope : Waiting → Bool) : Hub :=
  let go := h.waiting.filter fun w => w.unit == u && scope w
  let h := { h with waiting := h.waiting.filter fun w => !(w.unit == u && scope w) }
  go.foldl Hub.takeOne h

/-- The index part of a key. -/
def keyIdx (k : Nat) : Nat := k / 256

/-- A value accepted for an RW, RWE or RWF object: readable at once, in effect at its unit of work. -/
def Hub.accept (h : Hub) (k v : Nat) : Hub :=
  let h := h.put k v
  if deferred k then { h with waiting := h.waiting ++ [⟨k, v, h.now, if h.netRuns then some h.netNs else none, unitOf k⟩] } else h

/-! ### The host's port (R123) -/

/-- The upstream port of this hub, if one has the role. -/
def Hub.upPort (h : Hub) : Option Nat :=
  if h.pcie.role[0] = 1 then some 0 else if h.pcie.role[1] = 1 then some 1 else none

/-- The upstream port's link is in L0 or L1. -/
def Hub.upLinked (h : Hub) : Bool := match h.upPort with
  | some p => h.get (Obj.PCIE_LINK p) == 3 || h.get (Obj.PCIE_LINK p) == 5
  | none => false

/-- TLPs the hub originates at a port carry ECRC (R309). -/
def Hub.ecrc (h : Hub) (port : Nat) : Bool := h.flag (Obj.PCIE_ECRC port)

/-- The same at the upstream port. -/
def Hub.upEcrc (h : Hub) : Bool := match h.upPort with
  | some p => h.ecrc p
  | none => false

/-- A posted write sent to the host. -/
def Hub.postSend (h : Hub) : HostPosted → Hub
  | .mem a bs => h.emit (.hostWrite a bs h.upEcrc)
  | .msix v => h.emit (.msix v h.upEcrc)

/-- Bytes of a posted write in its buffer. -/
def HostPosted.bytes : HostPosted → Nat
  | .mem _ bs => bs.length
  | .msix _ => 4

/-- A posted write toward the host: it leaves at once while the link is up and nothing is before it, else it waits in the outbound buffer; a
vector that waits there already stands for the new one. -/
def Hub.post (h : Hub) (x : HostPosted) : Hub :=
  if h.upPort.isNone then h
  else if h.upLinked && h.bridge.postedOut.isEmpty then h.postSend x
  else match x with
    | .msix _ => if h.bridge.postedOut.contains x then h else { h with bridge := { h.bridge with postedOut := h.bridge.postedOut ++ [x] } }
    | .mem _ _ => { h with bridge := { h.bridge with postedOut := h.bridge.postedOut ++ [x] } }

/-- The outbound posted buffer has no room for the bytes of a cell and a write-back: it holds back what is posted behind it (R123). -/
def Hub.postFull (h : Hub) : Bool := Nat.ble (16384 - 136 + 1) ((h.bridge.postedOut.map HostPosted.bytes).sum)

/-- What waits in the outbound posted buffer goes out while the link is up. -/
def Hub.postGo (h : Hub) : Hub :=
  if h.upLinked then h.bridge.postedOut.foldl Hub.postSend { h with bridge := { h.bridge with postedOut := [] } } else h

/-! ### Origins -/

/-- The origin code of R645, for an origin of this hub. -/
def originCode : Origin → Nat
  | .bar0 => 0
  | .mp => 1
  | .se e => 2 + e.val
  | .sm => 14
  | .openHop => 15
  | .hop k => 16 + k.val
  | .remote _ _ => 0x80

/-- What the object server keeps for an origin. -/
def Hub.origin (h : Hub) (o : Origin) : OriginSt :=
  match h.origins.find? (fun x => x.1 == o) with
  | some x => x.2
  | none => {}

/-- The same, set. -/
def Hub.setOrigin (h : Hub) (o : Origin) (s : OriginSt) : Hub :=
  { h with origins := (o, s) :: h.origins.filter (fun x => x.1 != o) }

/-- The entry of `0x1F11` that names a remote origin. -/
def Hub.remoteEntry (h : Hub) (unit : W64) (mp : Bool) : Option Nat :=
  (List.range 8).find? fun e => h.get (Obj.REMOTE_UNIT_ID e) == unit.toNat && h.get (Obj.REMOTE_KIND e) == b2n mp

/-- The origin is frozen (R74, R646). -/
def Hub.frozen (h : Hub) (o : Origin) : Bool :=
  match o with
  | .bar0 => bitOf (h.get Obj.FREEZE_LOCAL) 0
  | .mp => bitOf (h.get Obj.FREEZE_LOCAL) 1
  | .se e => bitOf (h.get Obj.FREEZE_LOCAL) (2 + e.val)
  | .sm => false
  | .openHop => bitOf (h.get Obj.FREEZE_LOCAL) 15
  | .hop k => bitOf (h.get Obj.FREEZE_HOP) k.val
  | .remote u m => h.flag Obj.FREEZE_REMOTE_FULL || (h.remoteEntry u m).isSome

/-- The origin is the open safety session, or SM (R66). -/
def Hub.safetyOrigin (h : Hub) (o : Origin) : Bool :=
  match o with
  | .sm => true
  | .hop k => h.flag Obj.SS_STATE && h.get Obj.SS_SLOT == k.val
  | _ => false

/-! ### Results (R76) -/

def rcOk : Nat := 0
def rcNoObject : Nat := 1
def rcReadOnly : Nat := 2
def rcWriteOnly : Nat := 3
def rcTypeMismatch : Nat := 4
def rcOutOfRange : Nat := 5
def rcNotInSession : Nat := 6
def rcGroupBusy : Nat := 7
def rcGroupInvalid : Nat := 8
def rcNotStaged : Nat := 9
def rcStageFull : Nat := 0xA
def rcPartial64 : Nat := 0xB
def rcDomainOff : Nat := 0xC
def rcFrozen : Nat := 0xD
def rcBusy : Nat := 0xE
def rcAccessDenied : Nat := 0xF
def rcSubscribeFull : Nat := 0x10
def rcNotExecuted : Nat := 0x11

/-- The result of an access reported to its origin. -/
def Hub.ret (h : Hub) (o : Origin) (code : Nat) : Hub := h.emit (.result o code)

/-! ### The frame in which a command runs -/

/-- The hub at the end of a command: its writes in the canonical lists that stood before it. -/
def Hub.settle (h0 h : Hub) : Hub :=
  { h with
    objs := ⟨commitCells objDefault fitObj h.objs.dirty h0.objs.base, []⟩
    mem := ⟨commitCells memDefault (fun _ b => b) h.mem.dirty h0.mem.base, []⟩ }

/-- A command that acts whatever holds the hub in reset. -/
def State.always (s : State) (f : Hub → Hub) : Host.Outcome State Fault Refusal :=
  .next { s with hub := Hub.settle s.hub (f { s.hub with out := [] }) }

/-- A command of the blocks that RSTn does not reset: no effect while PORn, VDD_AON or factory test holds the hub. -/
def State.kept (s : State) (f : Hub → Hub) : Host.Outcome State Fault Refusal :=
  if s.hub.hold = .run ∨ s.hub.hold = .rstn then s.always f else s.always id

/-- A command of the hub proper: no effect while the hub is held in reset. -/
def State.run (s : State) (f : Hub → Hub) : Host.Outcome State Fault Refusal :=
  if s.hub.hold = .run then s.always f else s.always id

end Sys2Proof.Machine
end

