-- ==== Sys2Proof/Machine/ObjServer.lean ====
section
/-! DEFINITION. The object server (chapter 03): range checks, session rights, commit groups, domains that are off, and the guard
every write passes before its effect; the freezing of origins, the safety session's end and the reports to SM, which every
family uses. -/

namespace Sys2Proof.Machine

/-! ### Range checks (R10, R59) -/

/-- The bits [31:0] of an address mask are ones, then zeros. -/
def contiguousOnes (v : Nat) : Bool := (List.range 33).any fun n => v == 2 ^ 32 - 2 ^ n

/-- The value passes the object's own range. -/
def legalOk (l : Legal) (w v : Nat) : Bool :=
  match l with
  | .any => true
  | .range lo hi => Nat.ble lo v && Nat.ble v hi
  | .rangeOr lo hi x => (Nat.ble lo v && Nat.ble v hi) || v == x
  | .oneOf vs => vs.contains v
  | .subset m => v &&& m == v
  | .subsetNZ m => v &&& m == v && v != 0
  | .aligned n => v % n == 0
  | .signed lo hi => decide (-(lo : Int) ≤ signed w v) && decide (signed w v ≤ hi)
  | .contiguous => contiguousOnes v
  | .halves lo hi => Nat.ble lo (v % 65536) && Nat.ble (v % 65536) hi && Nat.ble lo (v / 65536) && Nat.ble (v / 65536) hi
  | .bytes hi => Nat.ble (v % 256) hi && Nat.ble (v / 256) hi
  | .lowNibble hi => Nat.ble (v % 16) hi

/-- The bits of a written value that are not reserved (R10). -/
def keepBits (r : ObjRow) (v : Nat) : Nat := if r.keep = 0 then v else v &&& r.keep

/-- A sandbox range covers an index that R482 excludes. -/
def sandboxRangeBad (v : Nat) : Bool :=
  let a := v % 65536
  let b := v / 65536
  let meets := fun lo hi => Nat.ble a hi && Nat.ble lo b
  Nat.ble a b && (meets 0x1F00 0x1FFF || meets 0x2300 0x24FF || meets 0x7800 0x783F)

/-- The logical lanes of a `CSI_LANES` code: 1, 2 or 4 (R341). -/
def csiLaneCount (code : Nat) : Nat := if code = 1 then 1 else if code = 2 then 2 else 4

/-- `CSI_LANE_MAP` sends the lanes in use to distinct lanes among them (R341). -/
def laneMapOk (lanes v : Nat) : Bool :=
  let m := fun k => field v (2 * k + 1) (2 * k)
  let n := csiLaneCount lanes
  (List.range n).all fun a => Nat.ble (m a + 1) n && (List.range n).all fun b => a == b || m a != m b

/-- The states a domain takes (R518): the code of `PD_REQ` is one of them. -/
def domainTakes (d v : Nat) : Bool :=
  if d ≤ 1 then v == 0
  else if d = 2 then Nat.ble v 1
  else if d = 16 ∨ d = 17 then v == 0 || v == 2
  else Nat.ble v 2

/-- Checks of a written value that need more than the object's row, each named by the rule of the object. -/
def Hub.extraLegal (h : Hub) (k v : Nat) : Bool :=
  let idx := k / 256
  let sub := k % 256
  -- R518, R520: a state the domain does not take
  if Nat.ble 0x2120 idx && Nat.ble idx 0x2138 && sub == 1 then domainTakes (idx - 0x2120) v
  -- R524: only AXL and ENGn accept a schedule
  else if Nat.ble 0x2120 idx && Nat.ble idx 0x2138 && sub == 4 then
    v == 0 || idx == 0x2138 || (Nat.ble 0x2124 idx && Nat.ble idx 0x212F)
  -- R631: sources 116 to 124 stay enabled and routed to SM
  else if idx == 0x2311 && Nat.ble 53 sub && Nat.ble sub 61 then v % 32 == 0x1C
  -- R481: sandbox mode only on SE10 and SE11
  else if Nat.ble 0x2410 idx && Nat.ble idx 0x2419 && sub == 3 then v == 0
  -- R482
  else if (idx == 0x24A0 || idx == 0x24A1) && Nat.ble 1 sub && Nat.ble sub 8 then !sandboxRangeBad v
  -- R472: no change while slots are held; slot count 2^2 to 2^8, slot 0 aligned to 16, the ring within the TCM
  else if Nat.ble 0x2440 idx && Nat.ble idx 0x244B && Nat.ble 0x10 sub && sub % 4 == 0 then
    h.get (k + 1) == h.get (k + 2) &&
    (v == 0 || (Nat.ble 2 (field v 19 16) && Nat.ble (field v 19 16) 8 && field v 3 0 == 0 &&
      Nat.ble (v % 65536 + 144 * 2 ^ field v 19 16) 65536))
  -- R530: SIM_VMAX not below SIM_VMIN
  else if k == Obj.SIM_VMAX then Nat.ble (h.get Obj.SIM_VMIN) v
  -- R310: never both ports upstream
  else if k == Obj.PCIE_ROLE 0 then !(v == 1 && h.get (Obj.PCIE_ROLE 1) == 1)
  else if k == Obj.PCIE_ROLE 1 then !(v == 1 && h.get (Obj.PCIE_ROLE 0) == 1)
  -- R341
  else if Nat.ble 0x5104 idx && Nat.ble idx 0x5107 && sub == 2 then laneMapOk (h.get (Obj.CSI_LANES (idx - 0x5104))) v
  -- R362: ARGB8888 on plane 1 only; planes at 0x5208 + 2 × port + plane
  else if Nat.ble 0x5208 idx && Nat.ble idx 0x520B && sub == 2 then v != 1 || idx % 2 == 1
  -- R380: eDP on D0 only; R377: PSR and PSR2 not in DP mode
  else if k == Obj.DISP_MODE 1 then v != 2
  else if (idx == 0x5202 || idx == 0x5203) && sub == 9 then !(h.get (Obj.DISP_MODE (idx - 0x5202)) == 1 && (v == 1 || v == 2))
  -- R380: the panel objects of D1
  else if idx == 0x5203 && Nat.ble 0xF sub && Nat.ble sub 0x11 then false
  -- R383: speeds of the mode
  else if (idx == 0x5302 || idx == 0x5303) && sub == 2 then
    !(h.get (Obj.ETH_MODE (idx - 0x5302)) == 2 && Nat.ble 1 v && Nat.ble v 3) &&
    !(h.get (Obj.ETH_MODE (idx - 0x5302)) == 1 && Nat.ble 5 v && Nat.ble v 6)
  -- R545: no overlap with the other port's pins
  else if k == Obj.PD_VSEL_GPIO 0 || k == Obj.PD_VSEL_GPIO 1 then
    let other := h.get (Obj.PD_VSEL_GPIO (if k == Obj.PD_VSEL_GPIO 0 then 1 else 0))
    v == 0xFF || other == 0xFF || Nat.ble (v + 4) other || Nat.ble (other + 4) v
  -- R667: AXL not while motion runs
  else if k == Obj.BLOCK_RESET then !(v == 24 && h.get Obj.MOT_STATE == 2)
  -- R645: a code that names an origin, or all
  else if k == Obj.FREEZE_RELEASE then Nat.ble v 13 || Nat.ble 15 v && Nat.ble v 79 || Nat.ble 0x80 v && Nat.ble v 0x87 || v == 0xFF
  -- R598: K0 is fixed
  else if k == Obj.KEY_CONTROL 0 then false
  else true

/-! ### Domains of objects (R60, R518, R523) -/

/-- The power domain of the block behind an object, as its index places it; the rest lie in AON (log entry 8). -/
def domainOfIdx (idx : Nat) : Nat :=
  if Nat.ble 0x3000 idx && Nat.ble idx 0x30FF then 16
  else if Nat.ble 0x3100 idx && Nat.ble idx 0x31FF then 17
  else if Nat.ble 0x4000 idx && Nat.ble idx 0x41FF then 2
  else if Nat.ble 0x5000 idx && Nat.ble idx 0x50FF then 18
  else if Nat.ble 0x5100 idx && Nat.ble idx 0x51FF then 20
  else if Nat.ble 0x5200 idx && Nat.ble idx 0x52FF then 19
  else if Nat.ble 0x5302 idx && Nat.ble idx 0x5305 then 21
  else if Nat.ble 0x5308 idx && Nat.ble idx 0x5309 then 21
  else if Nat.ble 0x5400 idx && Nat.ble idx 0x54FF then 24
  else if Nat.ble 0x5500 idx && Nat.ble idx 0x55FF then 2
  else if Nat.ble 0x5600 idx && Nat.ble idx 0x56FF then 22
  else if Nat.ble 0x6000 idx && Nat.ble idx 0x60FF then 2
  else if Nat.ble 0x90A0 idx && Nat.ble idx 0x90A2 then 18
  else if Nat.ble 0x90B0 idx && Nat.ble idx 0x90C3 then 20
  else if Nat.ble 0x90D0 idx && Nat.ble idx 0x90D1 then 19
  else if Nat.ble 0x90E0 idx && Nat.ble idx 0x90E1 then 21
  else if Nat.ble 0x90F0 idx && Nat.ble idx 0x90F8 then 24
  else if idx == 0x9110 then 22
  else 0

/-- The state of a domain: 0 on, 1 retained, 2 off, 3 waking, 4 entering rest. -/
def Hub.domState (h : Hub) (d : Nat) : Nat := h.get (Obj.DOM_STATE d)

/-- The domain serves. -/
def Hub.domOn (h : Hub) (d : Nat) : Bool := h.domState d == 0

/-- The origin as `PD_WAKE_LAST` [15:8] names it (R526). -/
def wakeDetail : Origin → Nat
  | .bar0 => 0
  | .mp => 1
  | .se e => 2 + e.val
  | .sm => 14
  | .hop _ => 15
  | .openHop => 15
  | .remote _ m => if m then 1 else 0

/-- The wake bound of a domain from retained or off, in nanoseconds (R518). A trunk wakes by training and an engine by its reload. -/
def wakeBound (d : Nat) (off : Bool) : Nat :=
  if d = 2 then us 20
  else if d = 3 then if off then us 50 else us 10
  else if 4 ≤ d ∧ d ≤ 15 then us 20
  else if d = 18 then if off then ms 1 else us 120
  else if d = 19 then us 40
  else if d = 20 then if off then us 100 else us 30
  else if d = 21 then if off then us 100 else us 30
  else if d = 22 then if off then us 100 else us 40
  else if d = 23 then if off then ms 2 else us 60
  else if d = 24 then if off then us 30 else us 8
  else 0

/-- The cause of the wake in progress recorded. -/
def Hub.setWake (h : Hub) (d : Domain) (cause detail : Nat) : Hub :=
  { h with doms := h.doms.set d { h.doms[d] with cause := cause, detail := detail, late := false } }

/-- A wake of a domain starts, or joins the one that runs (R521, R522). -/
def Hub.startWake (h : Hub) (d : Domain) (cause detail : Nat) : Hub :=
  match h.domState d.val with
  | 1 => ((h.put (Obj.DOM_STATE d.val) 3).arm (.wakeBound d) (wakeBound d.val false)).setWake d cause detail
  | 2 => ((h.put (Obj.DOM_STATE d.val) 3).arm (.wakeBound d) (wakeBound d.val true)).setWake d cause detail
  | 4 => ((h.put (Obj.DOM_STATE d.val) 3).arm (.wakeBound d) (wakeBound d.val false)).setWake d cause detail
  | _ => h

/-- An object access from an origin meets the domain behind it: a retained domain wakes for it (R523). -/
def Hub.accessWake (h : Hub) (o : Origin) (idx : Nat) : Hub :=
  let d := domainOfIdx idx
  if h.domState d == 1 && h.flag (Obj.PD_WAKE_ON_ACCESS d) then
    if hd : d < 25 then (h.startWake ⟨d, hd⟩ 2 (wakeDetail o)).bump (Obj.ACCESS_WAKES d) else h
  else h

/-! ### Reports to SM and the safe state (R625, R632, R633) -/

/-- A cause reported to SM with its detection time (R632 step 1). -/
def Hub.report (h : Hub) (code detail : Nat) : Hub :=
  { h with safety := { h.safety with reports := h.safety.reports ++ [⟨code, detail, h.time32⟩] } }

/-- The safety signature: CRC-32 over the HOP data of every object with attributes S and P, in effect (R644). -/
def Hub.signature (h : Hub) : Nat :=
  crc32 (safetySignedKeys.flatMap fun k => match rowOf k with
    | some r => toBE r.ty.hopBytes (h.eff k)
    | none => [])

/-- The time limit of a session starts anew, with the `SS_TIMEOUT` of its open (R643, R648). -/
def Hub.sessionRestart (h : Hub) : Hub := h.arm .sessionTimeout (1000 * ms h.safety.sessionLimit)

/-- A safety session ends: event, signature recorded and shown (R643, R644). -/
def Hub.endSession (h : Hub) : Hub :=
  if h.flag Obj.SS_STATE then
    let sig := h.signature
    let h := ((h.put Obj.SS_STATE 0).put Obj.SS_SLOT 0xFF).put Obj.SAFE_SIGNATURE sig
    let h := { h with mram := { h.mram with signature := some (BitVec.ofNat 32 sig) } }
    (h.event 0x67 Obj.SS_STATE).disarm .sessionTimeout
  else h

/-! ### Commit groups (R69 to R75) -/

/-- The leader of the group an RWP object belongs to: its member with the lowest index and subindex. -/
def leaderOf (k : Nat) : Nat :=
  let idx := k / 256
  let sub := k % 256
  let at_ := fun s => idx * 256 + s
  if idx == 0x1200 then Obj.HOP_IPV4_ADDR
  else if idx == 0x4003 then at_ 2
  else if idx == 0x5020 then k
  else if idx == 0x5021 then 0x502000 + 2 * sub
  else if idx == 0x5300 then at_ 8
  else if idx == 0x5400 then at_ 2
  else if Nat.ble 0x5448 idx && Nat.ble idx 0x545F then at_ 2
  else if Nat.ble 0x54C0 idx && Nat.ble idx 0x54FF then Obj.CMD_IMAGE 0 0
  else if Nat.ble 0x6000 idx && Nat.ble idx 0x60FF then
    if Nat.ble sub 8 then at_ 1 else if Nat.ble sub 0x22 then at_ 0x20 else if Nat.ble sub 0x25 then at_ 0x23 else at_ 0x27
  else if idx == 0x7000 || idx == 0x7100 then (if Nat.ble sub 0x1A then at_ 0x10 else at_ 0x20)
  else if Nat.ble 0x7200 idx && Nat.ble idx 0x7207 then at_ 2
  else if idx == 0x7300 then (if Nat.ble sub 0x12 then at_ 0x10 else at_ 0x18)
  else at_ 1

/-- A staged group that 100 ms have passed over (R72). -/
def Hub.stale (h : Hub) (g : Staged) : Bool := Nat.ble (ms 100) (h.now - g.since)

/-- The group with this leader, if it is staged and not past its time. -/
def Hub.stagedGroup (h : Hub) (leader : Nat) : Option Staged :=
  match h.staged.find? (fun g => g.leader == leader) with
  | some g => if h.stale g then none else some g
  | none => none

/-- A group no longer staged. -/
def Hub.unstage (h : Hub) (leader : Nat) : Hub :=
  ({ h with staged := h.staged.filter (fun g => g.leader != leader) }).disarm (.groupExpire leader)

/-- The group past its time is discarded with its event (R72). -/
def Hub.expireGroup (h : Hub) (leader : Nat) : Hub :=
  if (h.staged.find? (fun g => g.leader == leader)).any h.stale then (h.unstage leader).event 0x01 leader else h

/-- A value entered in a list of staged values. -/
def stageVal {α : Type} (k : Nat) (v : α) (l : List (Nat × α)) : List (Nat × α) := (k, v) :: l.filter (fun c => c.1 != k)

/-- A group staged or restaged with its group record. -/
def Hub.setStaged (h : Hub) (g : Staged) : Hub :=
  { h with staged := g :: h.staged.filter (fun x => x.leader != g.leader) }

/-- A write to an RWP member stages it (R69, R70, R73). -/
def Hub.stageWrite (h : Hub) (o : Origin) (k : Nat) (put : Staged → Staged) : Nat × Hub :=
  let l := leaderOf k
  let h := h.expireGroup l
  match h.stagedGroup l with
  | some g => if g.owner = o then (rcOk, h.setStaged (put g)) else (rcGroupBusy, h)
  | none =>
    if 32 ≤ (h.staged.filter fun g => !h.stale g).length then (rcStageFull, h)
    else (rcOk, (h.setStaged (put ⟨l, o, h.now, [], []⟩)).arm (.groupExpire l) (ms 100))

/-- The value the new group would give an object: staged, or the value in effect (R71). -/
def Hub.newVal (h : Hub) (g : Staged) (k : Nat) : Nat := (findCell g.vals k).getD (h.get k)

/-- An abort of the group of an object (R70, R75). -/
def Hub.abortGroup (h : Hub) (o : Origin) (k : Nat) : Nat × Hub :=
  match h.stagedGroup (leaderOf k) with
  | some g => if g.owner = o then (rcOk, h.unstage g.leader) else (rcGroupBusy, h)
  | none => (rcNotStaged, h)

/-- The object a `GROUP_COMMIT` or `GROUP_ABORT` value names is an RWP object (R75). -/
def namesGroup (v : Nat) : Bool := match rowOf (v % 2 ^ 24) with
  | some r => r.acc == .rwp
  | none => false

/-! ### The guard of a write -/

/-- The result of the checks every scalar write passes (R57, R59, R66, R74, R603), without effects. -/
def Hub.checkWrite (h : Hub) (o : Origin) (k v : Nat) : Nat :=
  if h.frozen o then rcFrozen
  else match rowOf k with
    | none => if k % 256 = 0 ∧ idxDefined (k / 256) then rcReadOnly else rcNoObject
    | some r =>
      if r.acc == .ro || r.acc == .rc then rcReadOnly
      else if r.safety && !h.safetyOrigin o then rcNotInSession
      else if r.ty == .octets || r.ty == .domain then rcTypeMismatch
      else if Nat.ble (2 ^ r.ty.width) v then (if Nat.ble r.ty.width 16 then rcOutOfRange else rcTypeMismatch)
      else if legalOk r.legal r.ty.width (keepBits r v) && h.extraLegal k (keepBits r v) then rcOk
      else rcOutOfRange

/-- An origin may write Caddy objects (R603). -/
def Hub.caddyRights (h : Hub) (o : Origin) : Bool :=
  match o with
  | .bar0 => true
  | .mp => true
  | .sm => true
  | .hop k => bitOf (h.get (Obj.KEY_ATTR k.val)) 17
  | _ => false

/-- A Caddy slot's object. -/
def isCaddyKey (k : Nat) : Bool := Nat.ble 0x7800 (k / 256) && Nat.ble (k / 256) 0x783F

/-! ### Freezing (R646, R74, R607, R121) -/

/-- A word of a prefetch buffer discarded into the log (R122). -/
def Hub.logDiscard (h : Hub) (w : Nat) (off : Nat) (data : W32) : Hub :=
  let e := h.bridge.discardNext.val
  let h := (((h.put (Obj.DISCARD_LOG (4 * e)) off).put (Obj.DISCARD_LOG (4 * e + 1)) (w + 16)).put
    (Obj.DISCARD_LOG (4 * e + 2)) data.toNat).put (Obj.DISCARD_LOG (4 * e + 3)) h.time32
  ({ h with bridge := { h.bridge with discardNext := h.bridge.discardNext + 1 } }).bump Obj.DISCARD_COUNT

/-- The event for the block of a fill has been raised: its words still under way raise none. -/
def Hub.fillTold (h : Hub) (serial : Nat) : Hub :=
  let mark := fun (x : RemoteAcc) => if x.fill = some serial then { x with told := true } else x
  { h with bridge := { h.bridge with remote := h.bridge.remote.map mark, held := h.bridge.held.map mark } }

/-- Words of a fill are under way. -/
def Hub.filling (h : Hub) (serial : Nat) : Bool := (h.bridge.remote ++ h.bridge.held).any fun x => x.fill == some serial

/-- The unconsumed words of a window's buffer discarded: the log, one event for the block (R121, R122). The event names the log's first
object (log entry 88). -/
def Hub.discardPrefetch (h : Hub) (w : Fin 16) : Hub :=
  match h.bridge.prefetch[w] with
  | none => h
  | some p =>
    let h := p.words.foldl (fun h c => h.logDiscard w.val c.1 c.2) h
    let h := { h with bridge := { h.bridge with prefetch := h.bridge.prefetch.set w none } }
    (if p.words.isEmpty then h else (h.fillTold p.serial).event 0x21 (Obj.DISCARD_LOG 0)).disarm (.prefetchIdle w)

/-- A write to a 16-byte block of a target space discards what this hub's prefetch buffers hold of it (R121). Buffers of another hub keep
their words (log entry 56). -/
def Hub.dropBlock (h : Hub) (target path off : Nat) : Hub :=
  (List.finRange 16).foldl (fun h w => match h.bridge.prefetch[w] with
    | some p => if p.block = off / 16 * 16 ∧ p.target = target ∧ p.path = path then h.discardPrefetch w else h
    | none => h) h

/-- A write to an object discards what prefetch buffers of this hub's object view hold of its block (R77, R121). -/
def Hub.written (h : Hub) (k : Nat) : Hub := h.dropBlock 1 0 (k / 256 * 1024 + k % 256 * 4)

/-- A Caddy slot's staging discarded as at its expiry (R607). -/
def Hub.expireShadow (h : Hub) (k : KeySlot) : Hub :=
  let s := h.caddy.slots[k]
  match s.shadow with
  | none => h
  | some _ =>
    let h := { h with caddy := { h.caddy with slots := h.caddy.slots.set k { s with shadow := none } } }
    let h := (h.put (Obj.KEY_ATTR k.val) (clrBit (h.get (Obj.KEY_ATTR k.val)) 1)).put (Obj.KEY_SHADOW_KCV k.val) 0
    (((h.put (Obj.KEY_LAST_RESULT k.val) 3).bump Obj.STAGE_EXPIRED).event 0x5D (Obj.KEY_ATTR k.val)).disarm (.keyStage k)

/-- The owner of a slot's staging is this origin. -/
def Hub.stagesKey (h : Hub) (o : Origin) (k : KeySlot) : Bool :=
  match h.caddy.slots[k].shadow with
  | some s => s.owner == o
  | none => false

/-- The freeze flag of an origin set; a remote origin takes the lowest free entry (R646). The code it is recorded under. -/
def Hub.markFrozen (h : Hub) (o : Origin) : Nat × Hub :=
  match o with
  | .hop k => ((originCode o), h.put Obj.FREEZE_HOP (setBit (h.get Obj.FREEZE_HOP) k.val))
  | .remote u m =>
    match firstBelow (fun e => h.get (Obj.REMOTE_UNIT_ID e) == 0) 8 with
    | some e => (0x80 + e, (h.put (Obj.REMOTE_UNIT_ID e) u.toNat).put (Obj.REMOTE_KIND e) (b2n m))
    | none => (0x80, h.put Obj.FREEZE_REMOTE_FULL 1)
  | .sm => ((originCode o), h)
  | _ => ((originCode o), h.put Obj.FREEZE_LOCAL (setBit (h.get Obj.FREEZE_LOCAL) (originCode o)))

/-- An origin is frozen for a rights violation (ORIGIN_FREEZE, R646; GROUP_DISCARDED_FREEZE, R74). -/
def Hub.freeze (h : Hub) (o : Origin) (violation : Nat) : Hub :=
  let (code, h) := h.markFrozen o
  let mine := h.staged.filter (fun g => g.owner == o)
  let h := mine.foldl (fun h g => if h.stale g then h.expireGroup g.leader else (h.unstage g.leader).event 0x02 g.leader) h
  let h := (List.finRange 64).foldl (fun h k => if h.stagesKey o k then h.expireShadow k else h) h
  let h := (List.finRange 16).foldl (fun h w => match h.bridge.prefetch[w] with
    | some p => if p.origin == o then h.discardPrefetch w else h
    | none => h) h
  let h := match o with
    | .se e => h.put (Obj.ENG_STATE e.val) 6
    | _ => h
  let h := match o with
    | .hop k => if h.flag Obj.SS_STATE && h.get Obj.SS_SLOT == k.val then h.endSession else h
    | _ => h
  let h := (h.put Obj.FREEZE_LAST (code + violation * 256)).put Obj.FREEZE_TIME h.time32
  (h.bump Obj.FREEZES).event 0x65 Obj.FREEZE_LAST

/-- A write that is a rights violation: the origin is frozen and the write refused, unless it breaks a 64-bit sequence first (R80, R645,
R646). -/
def Hub.violate (h : Hub) (o : Origin) (violation : Nat) : Hub :=
  if h.frozen o then h.ret o rcFrozen
  else if (h.origin o).held.isSome then (h.setOrigin o { h.origin o with held := none }).ret o rcPartial64
  else (h.freeze o violation).ret o rcFrozen

/-- The effect of a scalar write to an object without an action of its own (R57, R69). -/
def Hub.plainWrite (h : Hub) (o : Origin) (k v : Nat) : Nat × Hub :=
  match rowOf k with
  | none => (rcNoObject, h)
  | some r =>
    if r.acc == .rwp then h.stageWrite o k (fun g => { g with vals := stageVal k (keepBits r v) g.vals })
    else (rcOk, h.accept k (keepBits r v))

/-- What a held entry acts on: the object written, or the leader of the group. -/
def Held.key : Held → Nat
  | .write _ k _ _ => k
  | .group g => g.leader

/-- The value in effect of an object of which a write is held. -/
def Hub.heldWas (h : Hub) (k : Nat) : Option Nat := h.heldActs.findSome? fun x => match x with
  | .write _ j _ was => if j = k then was else none
  | .group _ => none

/-- A write to an object that keeps a value takes the place of one held before it (R58). -/
def Hub.holdLast (h : Hub) (x : Held) : Hub := { h with heldActs := h.heldActs.filter (fun y => y.key != x.key) ++ [x] }

/-- A write that passed its checks while its block's domain is off, retained or in transition: the value is accepted, and the
block's action is held until the domain is on (R60). -/
def Hub.holdWrite (h : Hub) (o : Origin) (k v : Nat) (act : Hub → Nat × Hub) : Nat × Hub :=
  match rowOf k with
  | none => (rcNoObject, h)
  | some r =>
    if r.acc == .rwp then h.plainWrite o k v
    else if r.acc == .wo then (rcOk, { h with heldActs := h.heldActs ++ [.write o k v none] })
    else if (act h).1 = rcOk then
      (rcOk, (h.plainWrite o k v).2.holdLast (.write o k v (some ((h.heldWas k).getD (h.get k)))))
    else ((act h).1, h)

/-- A write by an origin: the freeze, the held low word of R80, the Caddy's rights, the checks, the domain of R60 and R523, then the
effect. -/
def Hub.guardedR (h : Hub) (o : Origin) (k v : Nat) (act : Hub → Nat × Hub) : Nat × Hub :=
  if h.frozen o then (rcFrozen, h)
  else if (h.origin o).held.isSome then (rcPartial64, h.setOrigin o { h.origin o with held := none })
  else if isCaddyKey k && (rowOf k).isSome && !h.caddyRights o then (rcFrozen, h.freeze o 5)
  else if h.checkWrite o k v ≠ rcOk then (h.checkWrite o k v, h)
  else if (h.accessWake o (k / 256)).domOn (domainOfIdx (k / 256)) then act ((h.accessWake o (k / 256)).written k)
  else ((h.accessWake o (k / 256)).written k).holdWrite o k v act

/-- A guarded write with its result reported. -/
def Hub.guarded (h : Hub) (o : Origin) (k v : Nat) (act : Hub → Nat × Hub) : Hub :=
  let (c, h) := h.guardedR o k v act
  h.ret o c

end Sys2Proof.Machine
end

