-- ==== Sys2Proof/Machine/Flags.lean ====
section
/-! DEFINITION. Status flags the families share: interrupt sources becoming pending (R488, R491, R493) and the uncorrectable
memory errors that are counted together (R628). -/

namespace Sys2Proof.Machine

/-- The configuration of an interrupt source (R496). -/
def Hub.srcCfg (h : Hub) (s : Nat) : Nat := h.get (Obj.SRC_CFG (s / 64) (s % 64))

/-- The source is pending. -/
def Hub.icPend (h : Hub) (s : Nat) : Bool := bitOf (h.get (Obj.IC_PENDING (s / 32))) (s % 32)

/-- The source is active. -/
def Hub.icActive (h : Hub) (s : Nat) : Bool := bitOf (h.get (Obj.IC_ACTIVE (s / 32))) (s % 32)

/-- Reserved sources never become pending. -/
def reservedSource (s : Nat) : Bool := (Nat.ble 8 s && Nat.ble s 31) || (Nat.ble 87 s && Nat.ble s 95) || s == 103 || Nat.ble 192 s

/-- The source is enabled and routed to an engine that cannot take it: its domain is off or it is held, halted or faulted (R493). -/
def Hub.offTarget (h : Hub) (s : Nat) : Bool :=
  let c := h.srcCfg s
  let e := c % 16
  bitOf c 4 && Nat.ble e 11 &&
    (h.domState (4 + e) == 2 || h.get (Obj.ENG_STATE e) == 0 || h.get (Obj.ENG_STATE e) == 4 || h.get (Obj.ENG_STATE e) == 5)

/-- The pending bit of a source set (R488, R491, R493). -/
def Hub.icSet (h : Hub) (s : Nat) : Hub :=
  if reservedSource s || h.icPend s then h
  else
    let h := h.put (Obj.IC_PENDING (s / 32)) (setBit (h.get (Obj.IC_PENDING (s / 32))) (s % 32))
    if h.offTarget s then h.bump Obj.IC_OFF_TARGET else h

/-- An uncorrectable memory error counted with the others: `SAFE_ECC_LIMIT` of them within 1 s are cause 6, whose detail
is the memory of the error that reaches the limit (R628, R695). -/
def Hub.eccFault (h : Hub) (memory : Nat) : Hub :=
  let recent := (h.safety.eccTimes.filter fun t => Nat.ble (h.now - t) 1000000000) ++ [h.now]
  let n := h.get Obj.SAFE_ECC_LIMIT
  let h := { h with safety := { h.safety with eccTimes := recent } }
  if Nat.ble n recent.length then ({ h with safety := { h.safety with eccTimes := [] } }).report 6 memory else h

/-- VDD_CORE of a level in mV (R527). -/
def levelMv (l : Nat) : Nat := [580, 650, 720, 800].getD l 800

/-- The start-up has completed: the self-test has ended and the firmware loader has (R600, R661). -/
def Hub.startupStep (h : Hub) : Hub :=
  let loaded := h.get Obj.FW_STATE == 3 || h.get Obj.FW_STATE == 4
  let h := if loaded then { h with caddy := { h.caddy with started := true } } else h
  if h.get Obj.STARTUP_STEP = 3 ∧ h.boot.tested ∧ loaded then
    (h.put Obj.STARTUP_STEP 4).put Obj.READY_TIME ((h.now - h.boot.since) / 1000)
  else h

end Sys2Proof.Machine
end

