-- ==== Sys2Proof/Machine/Pot.lean ====
section
/-! DEFINITION. The switch core and the Pot (chapter 08) with the Strainer (chapter 09): tunnel lookup, path pinning, admission,
camera lines, spill, cut-through and the occupancy objects. -/

namespace Sys2Proof.Machine

/-- A change of the switch core's own state. -/
def Hub.setCore (h : Hub) (f : CoreSt → CoreSt) : Hub := { h with core := f h.core }

/-! ### Rates (R134, R233, R251, R263, R293, R696) -/

/-- Raw rate of a lane in Mbit/s by rate code; 0 while the port has none. -/
def rawRate (code : Nat) : Nat :=
  if code = 1 then 64000 else if code = 2 then 32000 else if code = 3 then 16000 else if code = 4 then 8000 else 0

/-- Rates are reckoned in units of 1/87057 Mbit/s, in which every lane payload of R696 is whole: 4 953 088 / 5 571 648 = 77392 / 87057. -/
def rateUnit : Nat := 87057

/-- A rate in Mbit/s in these units. -/
def mbps (r : Nat) : Nat := r * rateUnit

/-- A rate in whole Mbit/s, rounded down (R696). -/
def wholeMbps (r : Nat) : Nat := r / rateUnit

/-- Payload of `n` lanes, exact (R696). -/
def lanesPay (n code : Nat) : Nat := n * rawRate code * 77392

/-- The end a port has: 0 down, 1 root end, 2 leaf end, 3 refused. -/
def Hub.trunkEnd (h : Hub) (p : Nat) : Nat := field (h.get Obj.TRUNK_END) (2 * p + 1) (2 * p)

/-- The direction the port sends in: 0 away at a root end, 1 toward at a leaf end; until step 4 of training, the DFP end of the CC line
sends on L0 and the UFP end on L3 (R200). -/
def Hub.sendDir (h : Hub) (p : Nat) : Nat :=
  let s := h.get (Obj.LINK_STATE p)
  let e := h.trunkEnd p
  if (Nat.ble 2 s && Nat.ble s 4) || (e != 1 && e != 2) then (if h.get (Obj.PD_DATA_ROLE p) = 1 then 1 else 0)
  else if e = 2 then 1 else 0

/-- ACTIVE lanes of a direction. -/
def Hub.activeLanes (h : Hub) (p dir : Nat) : Nat :=
  ((List.range 4).filter fun l => h.get (Obj.LANE_STATE p l) == 2 && h.get (Obj.LANE_DIR p l) == dir).length

/-- Payload of a direction, exact (R233, R696). -/
def Hub.payload (h : Hub) (p dir : Nat) : Nat := lanesPay (h.activeLanes p dir) (h.get (Obj.TK_RATE p))

/-- The link of a trunk port is up. -/
def Hub.linkUp (h : Hub) (p : Nat) : Bool := h.get (Obj.LINK_STATE p) == 11

/-- Maximum rate of an attachment that is no trunk, Mbit/s (R251, R263). -/
def attachRate (k : Nat) : Nat :=
  if k = 2 ∨ k = 3 then 126000
  else if 4 ≤ k ∧ k ≤ 7 then 18000
  else if k = 8 ∨ k = 9 then 10000
  else if k = 10 then 1600
  else if k = 11 then 600
  else if k = 12 then 6400
  else if k = 13 then 25600
  else Config.displayWriterRate

/-- The rate of an attachment as R262 compares it. -/
def Hub.rateIn (h : Hub) (k : Nat) : Nat := if k < 2 then h.payload k (1 - h.sendDir k) else mbps (attachRate k)
/-- The rate of an attachment as an egress. -/
def Hub.rateOut (h : Hub) (k : Nat) : Nat := if k < 2 then h.payload k (h.sendDir k) else mbps (attachRate k)

/-- A rate of an egress under its limit (R293). -/
def Hub.underLimit (h : Hub) (k rate : Nat) : Nat :=
  let l := h.get (Obj.PORT_LIMIT k)
  if l = 0 then rate else min rate (mbps l)

/-- The rate of an egress in effect (R293). -/
def Hub.portRate (h : Hub) (k : Nat) : Nat := h.underLimit k (h.rateOut k)

/-- Nanoseconds of one cell slot at an egress (R187, R283). -/
def Hub.slotNs (h : Hub) (k : Nat) : Nat :=
  let r := if k < 2 then lanesPay 1 (h.get (Obj.TK_RATE k)) else h.rateOut k
  if r = 0 then 0 else ceilDiv (1024000 * rateUnit) r

/-! ### The power domain of an egress (R518) -/

/-- The domain of an attachment; none for those the core always serves. -/
def egressDomain (k : Nat) : Option Nat :=
  if k < 2 then some (16 + k)
  else if k < 4 then some 18
  else if k < 8 then some 20
  else if k < 10 then some 21
  else if k = 10 then some 24
  else if k = 14 then some 19
  else none

/-- The egress serves: its domain is on, and a trunk's link is up. -/
def Hub.egressUp (h : Hub) (k : Nat) : Bool :=
  (match egressDomain k with
  | some d => h.domOn d
  | none => true) && (!(Nat.ble k 1) || h.linkUp k)

/-! ### Token buckets (R290) -/

/-- One token in the units a bucket is held in. -/
def token : Nat := 65536 * 1024 * 1000000

/-- The rate a bucket fills at, in its units per nanosecond: kbit/s ÷ 1024 cells per ms, committed rates scaled by f/1024 (R294). -/
def Hub.fillRate (h : Hub) (k : BucketKind) (t p : Nat) : Nat :=
  match k with
  | .committed => h.get (Obj.CIR t) * h.get (Obj.RESCALE p) * 64
  | .peak => h.get (Obj.PIR t) * 65536
  | .policer => h.get (Obj.POL_RATE t) * 65536

/-- The burst a bucket fills to. -/
def Hub.burst (h : Hub) (k : BucketKind) (t : Nat) : Nat :=
  token * match k with
  | .committed => h.get (Obj.CBS t)
  | .peak => h.get (Obj.PBS t)
  | .policer => h.get (Obj.POL_BURST t)

/-- The same bucket. -/
def Bucket.is (b : Bucket) (k : BucketKind) (t p : Nat) : Bool := b.kind == k && b.tun == t && b.port == p

/-- The level of a bucket now; a bucket that is not listed is full. A committed rate of 0 leaves its bucket empty. -/
def Hub.level (h : Hub) (k : BucketKind) (t p : Nat) : Nat :=
  if k = .committed ∧ h.get (Obj.CIR t) = 0 then 0
  else match h.core.buckets.find? (·.is k t p) with
    | some b => min (h.burst k t) (b.level + h.fillRate k t p * (h.now - b.at_))
    | none => h.burst k t

/-- A bucket set to a level now. -/
def Hub.setLevel (h : Hub) (k : BucketKind) (t p v : Nat) : Hub :=
  h.setCore fun c => { c with buckets := ⟨k, t, p, v, h.now⟩ :: c.buckets.filter fun b => !b.is k t p }

/-- A bucket full, as it starts. -/
def Hub.fillBucket (h : Hub) (k : BucketKind) (t p : Nat) : Hub :=
  h.setCore fun c => { c with buckets := c.buckets.filter fun b => !b.is k t p }

/-- `n` tokens taken. -/
def Hub.takeTokens (h : Hub) (k : BucketKind) (t p n : Nat) : Hub := h.setLevel k t p (h.level k t p - n * token)

/-- A bucket holds `n` tokens. -/
def Hub.tokens (h : Hub) (k : BucketKind) (t p n : Nat) : Bool := Nat.ble (n * token) (h.level k t p)

/-! ### Occupancy (R270, R271) -/

/-- The entry is used. -/
def Hub.tunUsed (h : Hub) (t : Nat) : Bool := h.get (Obj.TUN_END_A t) != 0xFF

/-- Sum of the floors of used entries. -/
def Hub.floorSum (h : Hub) : Nat := ((List.range 256).map fun t => if h.tunUsed t then h.get (Obj.TUN_FLOOR t) else 0).sum

/-- S, the entries of the shared pool (R270). -/
def Hub.sharedSize (h : Hub) : Nat := 131072 - 1024 - h.floorSum

/-- The floor that cells other than a frame-end marker use (R271, R272). -/
def Hub.floorOf (h : Hub) (t : Nat) : Nat :=
  let f := if h.tunUsed t then h.get (Obj.TUN_FLOOR t) else 0
  if h.get (Obj.TUN_CLASS t) = 5 then f - 1 else f

/-- An egress goes down: multicast copies release their references (R265). -/
def Hub.egressLost (h : Hub) (p : Nat) : Hub :=
  h.setCore fun c => { c with cells := (c.cells.map fun x =>
    if x.multi then { x with copies := x.copies.filter fun y => y.egress != p } else x).filter fun x => !x.copies.isEmpty }

/-- A cell that counts against floor or shared pool: in the Pot, neither staged nor a marker in its kept entry. -/
def QCell.counts (c : QCell) : Bool := c.place == .pot && !c.marker

/-- Entries admitted for the lines of a tunnel and not used yet. -/
def Hub.lineLeft (h : Hub) (t : Nat) : Nat := ((h.core.lines.filter fun l => l.1.1 == t).map fun l => l.2.left).sum

/-- occ[t] of R271: cells of the tunnel that count, with the entries admitted for a line under way. -/
def Hub.occ (h : Hub) (t : Nat) : Nat := (h.core.cells.filter fun c => c.tun == t && c.counts).length + h.lineLeft t

/-- Cells of a tunnel held in the Pot, staging included. -/
def Hub.tunCells (h : Hub) (t : Nat) : Nat := (h.core.cells.filter fun c => c.tun == t && c.place != .spill).length

/-- Cells of a tunnel in the spill region. -/
def Hub.tunSpilled (h : Hub) (t : Nat) : Nat := (h.core.cells.filter fun c => c.tun == t && c.place == .spill).length

/-- Tunnels of a class. -/
def Hub.classTuns (h : Hub) (c : Nat) : List Nat := (List.range 256).filter fun t => h.tunUsed t && h.get (Obj.TUN_CLASS t) == c

/-- The floors of a class are lent. -/
def Hub.lent (h : Hub) (c : Nat) : Bool := bitOf (h.get Obj.LEND_CLASSES) c

/-- Tunnels that hold cells or admitted entries. -/
def Hub.occTuns (h : Hub) : List Nat :=
  (h.core.cells.map (·.tun) ++ h.core.lines.map (·.1.1)).eraseDups

/-- occ of a whole class. -/
def Hub.occClass (h : Hub) (c : Nat) : Nat :=
  ((h.occTuns.filter fun t => h.get (Obj.TUN_CLASS t) == c).map h.occ).sum

/-- R[c], the sum of the floors of a class (R271). -/
def Hub.poolOf (h : Hub) (c : Nat) : Nat := ((h.classTuns c).map fun t => h.get (Obj.TUN_FLOOR t)).sum

/-- Shared use of a tunnel. -/
def Hub.tunShared (h : Hub) (t : Nat) : Nat := h.occ t - h.floorOf t

/-- q[c], the shared use of a class (R271). -/
def Hub.classShared (h : Hub) (c : Nat) : Nat :=
  if h.lent c then h.occClass c - h.poolOf c
  else ((h.occTuns.filter fun t => h.get (Obj.TUN_CLASS t) == c).map h.tunShared).sum

/-- U, all shared use. -/
def Hub.sharedUsed (h : Hub) : Nat := ((List.range 8).map h.classShared).sum

/-- Entries holding cells, staging included. -/
def Hub.potOcc (h : Hub) : Nat := (h.core.cells.filter fun c => c.place != .spill).length

/-- Cells staged from spill. -/
def Hub.staged_ (h : Hub) : Nat := (h.core.cells.filter fun c => c.place == .staging).length

/-- Cells in the spill region. -/
def Hub.spillUsed (h : Hub) : Nat := (h.core.cells.filter fun c => c.place == .spill).length

/-- Spill is active (R277). -/
def Hub.spillActive (h : Hub) : Bool := Nat.ble 98304 h.potOcc

/-- The bits of `TUN_LOCAL` that are not reserved at an attachment (R319, R342, R367, R386, R427, R444, R471); at a PCIe port they depend on
its bit 15. -/
def localBits (k l : Nat) : Nat :=
  if k < 2 then 0
  else if k < 4 then (if bitOf l 15 then 0x803F else 0x011F)
  else if k < 8 then 3
  else if k < 10 then 0x1FFF
  else if k = 10 then 0x1F
  else if k = 11 then 0xF003
  else if k = 13 then 0x7F
  else if k = 14 then 3
  else 0xFFFF

/-- `TUN_LOCAL` as it reads: reserved bits of every end that has a local channel read 0 (R10). -/
def Hub.tunLocalRead (h : Hub) (t : Nat) : Nat :=
  let l := h.get (Obj.TUN_LOCAL t)
  let ends := (List.range 15).filter fun k => Nat.ble 2 k && (h.get (Obj.TUN_END_A t) == k || bitOf (h.get (Obj.TUN_END_B t)) k)
  if ends.isEmpty then l else l &&& ends.foldl (fun m k => m ||| localBits k l) 0

/-- Cells of a class in the Pot. -/
def Hub.classCells (h : Hub) (c : Nat) : Nat := (h.core.cells.filter fun x => x.cls == c && x.place != .spill).length

/-- A copy waits at the egress. -/
def QCell.waits (c : QCell) (p : Nat) : Bool := c.copies.any fun x => x.egress == p

/-- Cells queued at an egress. -/
def Hub.queueAt (h : Hub) (p : Nat) : List QCell := h.core.cells.filter fun c => c.waits p

/-- Cells of a tunnel queued at an egress, Pot and spill. -/
def Hub.depth (h : Hub) (t p : Nat) : Nat := (h.core.cells.filter fun c => c.tun == t && c.waits p).length

/-- Length of a gate cycle in ns. -/
def Hub.gatePeriod (h : Hub) (p : Nat) : Nat := 31250 * 2 ^ h.get (Obj.GATE_PERIOD p)

/-- The gate entry in effect at a network time. -/
def Hub.gateEntry (h : Hub) (p ns : Nat) : Nat :=
  let per := h.gatePeriod p
  let x := (ns + per - h.get (Obj.GATE_OFFSET p) % per) % per
  let n := h.get (Obj.GATE_ENTRIES p)
  let rec go : Nat → Nat → Nat → Nat
    | 0, e, _ => e
    | f + 1, e, acc => if n ≤ e + 1 then e else
      let acc := acc + h.get (Obj.GATE_TIME p e)
      if x < acc then e else go f (e + 1) acc
  go 8 0 0

/-- `GATE_CURRENT`: the entry in effect at the network time (R297, R299, R301). -/
def Hub.gateCurrent (h : Hub) (p : Nat) : Nat := if h.get (Obj.GATE_ENABLE p) = 1 then h.gateEntry p h.netNs else 0xFF

/-- Objects of chapters 08 and 09 that are read from the cells held. -/
def Hub.coreView (h : Hub) (k : Nat) : Option Nat :=
  let idx := k / 256
  let sub := k % 256
  if Nat.ble 0x6000 idx && Nat.ble idx 0x60FF then
    let t := idx - 0x6000
    if sub = 6 then some (h.tunLocalRead t) else if sub = 0xC then some (h.tunCells t) else if sub = 0xD then some (h.tunShared t)
    else if sub = 0x10 then some (h.tunSpilled t) else none
  else if k = Obj.POT_OCC then some h.potOcc
  else if k = Obj.SHARED_SIZE then some h.sharedSize
  else if k = Obj.SHARED_USED then some h.sharedUsed
  else if k = Obj.FLOOR_SUM then some h.floorSum
  else if k = Obj.SPILL_USED then some h.spillUsed
  else if k = Obj.SPILL_ACTIVE then some (b2n h.spillActive)
  else if k = Obj.GATE_CURRENT 0 then some (h.gateCurrent 0)
  else if k = Obj.GATE_CURRENT 1 then some (h.gateCurrent 1)
  else if idx = 0x4001 ∧ 0x11 ≤ sub ∧ sub ≤ 0x18 then some (h.classCells (sub - 0x11))
  else if idx = 0x4001 ∧ 0x19 ≤ sub ∧ sub ≤ 0x20 then some (h.classShared (sub - 0x19))
  else none

/-! ### Admission (R272, R274) -/

/-- The outcomes of R272. -/
inductive Admit where
  | refuse | floor | shared
  deriving DecidableEq, Repr

/-- Whether `x ≤ 2^(a − 4) × y`. -/
def alphaOk (a x y : Nat) : Bool := Nat.ble (16 * x) (2 ^ a * y)

/-- Admission of `n` cells of tunnel `t` into the Pot (R272). -/
def Hub.admission (h : Hub) (t n : Nat) : Admit :=
  let c := h.get (Obj.TUN_CLASS t)
  let cap := h.get (Obj.TUN_CAP t)
  let occ := h.occ t
  if cap != 0 && Nat.ble (cap + 1) (h.tunCells t + h.lineLeft t + h.tunSpilled t + n) then .refuse
  else if (if h.lent c then Nat.ble (h.occClass c + n) (h.poolOf c) else Nat.ble (occ + n) (h.floorOf t)) then .floor
  else if c = 7 ∨ c = 6 then .refuse
  else
    let s := if h.lent c then (h.occClass c + n - h.poolOf c) - (h.occClass c - h.poolOf c)
      else (occ + n - h.floorOf t) - (occ - h.floorOf t)
    let u := h.sharedUsed
    if Nat.ble (u + s) h.sharedSize && alphaOk (h.get (Obj.DT_ALPHA c)) (h.classShared c + s) (h.sharedSize - u) then .shared
    else .refuse

/-- The DMA channel that a local channel at a PCIe port names, if it names one, has lost cells: its buffer shows so when it closes
(R319, R333). -/
def Hub.dmaLost (h : Hub) (l : Nat) : Hub :=
  if bitOf l 15 then
    let ch : Fin 64 := ⟨l % 64, Nat.mod_lt _ (by decide)⟩
    { h with dma := h.dma.set ch { h.dma[ch] with drops := true } }
  else h

/-- Cells of a tunnel are lost before they are queued. -/
def Hub.dmaGap (h : Hub) (t : Nat) : Hub :=
  if h.get (Obj.TUN_END_A t) == 2 || h.get (Obj.TUN_END_A t) == 3 || bitOf (h.get (Obj.TUN_END_B t)) 2 ||
      bitOf (h.get (Obj.TUN_END_B t)) 3 then h.dmaLost (h.get (Obj.TUN_LOCAL t)) else h

/-- `n` cells of a tunnel refused or discarded in the core. -/
def Hub.dropCells (h : Hub) (t n : Nat) : Hub := (h.bumpBy (Obj.TUN_DROPS t) n).dmaGap t

/-- A queued cell discarded: the group it was queued under names its DMA channel (R253). -/
def Hub.dropQueued (h : Hub) (c : QCell) : Hub :=
  let h := h.bump (Obj.TUN_DROPS c.tun)
  if c.waits 2 || c.waits 3 then h.dmaLost c.chan else h

/-- A cell of a tunnel dropped by the Strainer at an ingress (R303). -/
def Hub.strainDrop (h : Hub) (t ing : Nat) : Hub := ((h.bump (Obj.STR_DROPS t)).bump (Obj.INGRESS_DROPS ing)).dmaGap t

/-- The attachment holds a refused cell rather than dropping it (R251). -/
def holds (ing : Nat) : Bool := ing == 2 || ing == 3 || ing == 11 || ing == 12 || ing == 13

/-- The Strainer acts at the ingress (R302). -/
def policed (ing : Nat) : Bool := !holds ing && Nat.ble ing 10

/-- A refusal counted; a cell of a camera line is dropped at every attachment (R272, R273, R282). -/
def Hub.countRefusal (h : Hub) (t cls ing : Nat) : Hub :=
  let held := holds ing && cls != 5
  let h := if held then h.bump (Obj.TUN_DROPS t) else h.dropCells t 1
  ((h.bump (Obj.CLASS_DROPS cls)).bump (if held then Obj.ADMIT_HELD else Obj.ADMIT_DROP)).setCore fun c =>
    { c with refused := true }

/-! ### Lookup, pinning, egresses (R254 to R256, R266 to R268) -/

/-- The trunk port is an end of the entry. -/
def Hub.hasEnd (h : Hub) (t k : Nat) : Bool := h.get (Obj.TUN_END_A t) == k || bitOf (h.get (Obj.TUN_END_B t)) k

/-- The link tunnel number of the entry on a trunk port. -/
def Hub.linkNum (h : Hub) (t p : Nat) : Nat := if p = 0 then h.get (Obj.TUN_NUM_TK0 t) else h.get (Obj.TUN_NUM_TK1 t)

/-- The entry a cell takes by its ingress (R255). -/
def Hub.lookup (h : Hub) (ing chan : Nat) (hdr : List Byte) : Option Nat :=
  firstBelow (fun t => h.tunUsed t && h.hasEnd t ing &&
    (if Nat.ble ing 1 then h.linkNum t ing == byteAt hdr 0
      else (h.get (Obj.TUN_LOCAL t) &&& localBits ing (h.get (Obj.TUN_LOCAL t))) == (chan &&& localBits ing chan))) 256

/-- CRC-8 of R191. -/
def crc8 (bs : List Byte) : Nat := crcMsb 8 0x07 0xFF bs

/-- The route tag of a cell that enters from a non-trunk attachment (R266). -/
def routeTag (ing t : Nat) : Nat :=
  let u := Config.unitId.toNat
  crc8 [BitVec.ofNat 8 u, BitVec.ofNat 8 (u / 256), BitVec.ofNat 8 ing, BitVec.ofNat 8 t] % 16

/-- End B as a list of attachments; a pinned pair gives the port of the route tag (R267, R268). -/
def Hub.endB (h : Hub) (t tag : Nat) : List Nat :=
  if h.flag (Obj.TUN_PINNED t) then
    if h.linkUp 0 || h.linkUp 1 then [if bitOf (h.get Obj.PIN_EFFECTIVE) tag then 1 else 0] else []
  else (List.range 15).filter fun k => bitOf (h.get (Obj.TUN_END_B t)) k

/-- The tunnel carries cells from A to B only (R254). -/
def Hub.multicast (h : Hub) (t : Nat) : Bool := !h.flag (Obj.TUN_PINNED t) && Nat.ble 2 (popCount 15 (h.get (Obj.TUN_END_B t)))

/-- Where a cell of entry `t` from `ing` goes: the other end, a trunk whose link is not up being no end (R254, R255, R212). -/
def Hub.dests (h : Hub) (t ing tag : Nat) : List Nat :=
  let b := h.endB t tag
  let out := if h.get (Obj.TUN_END_A t) = ing then b
    else if h.flag (Obj.TUN_PINNED t) || popCount 15 (h.get (Obj.TUN_END_B t)) == 1 then [h.get (Obj.TUN_END_A t)] else []
  out.filter fun k => !(Nat.ble k 1) || h.linkUp k

/-- The class is encrypted on the port's link (R206). -/
def Hub.encrypts (h : Hub) (p c : Nat) : Bool :=
  h.get (Obj.KEY_STATE p) != 0 && bitOf (h.links[if p = 0 then (0 : Fin 2) else 1].enc) c

/-- The class is closed on the port's link (R205, R210). -/
def Hub.closed (h : Hub) (p c : Nat) : Bool := h.get (Obj.KEY_STATE p) == 2 && h.encrypts p c

/-! ### Headers (R189) -/

/-- Payload length of a header, 0 meaning 128. -/
def hdrLen (hdr : List Byte) : Nat := if byteAt hdr 4 = 0 then 128 else byteAt hdr 4

def hdrFirst (hdr : List Byte) : Bool := bitOf (byteAt hdr 1) 3
def hdrLast (hdr : List Byte) : Bool := bitOf (byteAt hdr 1) 2
def hdrDeadline (hdr : List Byte) : Bool := bitOf (byteAt hdr 1) 1
def hdrHops (hdr : List Byte) : Nat := byteAt hdr 5 / 16
def hdrTag (hdr : List Byte) : Nat := byteAt hdr 5 % 16

/-- A header for a cell built inside the hub: class, first, last, deadline-bound and payload length. -/
def mkHdr (cls : Nat) (first last deadline : Bool) (len : Nat) : List Byte :=
  [0, BitVec.ofNat 8 (cls * 32 + b2n first * 8 + b2n last * 4 + b2n deadline * 2), 0, 0, BitVec.ofNat 8 len, 0, 0, 0]

/-- A deadline-bound cell is late (R431). -/
def Hub.late (h : Hub) (hdr body : List Byte) : Bool := hdrDeadline hdr && time32Reached h.time32 (ofBE (body.take 4))

/-! ### Open classes (R298) -/

/-- The class is open at the egress for the next slot: at its first bit and at its last (R298). -/
def Hub.open_ (h : Hub) (p c : Nat) : Bool :=
  if 1 < p ∨ h.get (Obj.GATE_ENABLE p) = 0 then true
  else bitOf (h.get (Obj.GATE_OPEN p (h.gateEntry p h.netNs))) c &&
    bitOf (h.get (Obj.GATE_OPEN p (h.gateEntry p (h.netNs + h.slotNs p)))) c

/-! ### Cut-through (R262, R286) -/

/-- The peak bucket of a tunnel allows a cell. -/
def Hub.peakOk (h : Hub) (t p : Nat) : Bool := h.get (Obj.PIR t) == 0 || h.tokens .peak t p 1

/-- The committed bucket of a tunnel allows a cell. -/
def Hub.committedOk (h : Hub) (t p : Nat) : Bool := h.get (Obj.CIR t) != 0 && h.tokens .committed t p 1

/-- The engine receive queue of a local channel at attachment 13: engine and queue (R471). -/
def chanQueue (chan : Nat) : Nat × Nat := (chan % 16, field chan 6 4)

/-- Slots of an engine queue (R472). -/
def Hub.queueSlots (h : Hub) (e q : Nat) : Nat := 2 ^ field (h.get (Obj.Q_RING e q)) 19 16

/-- A cell of the tunnel on local channel `l` may be served at the egress by its owner's rules: DMA (R123, R336), engine queues (R474), the
carry (R374); and the frame-store writer takes one record at a time (R369). -/
def Hub.served (h : Hub) (t l p : Nat) : Bool :=
  h.egressUp p && !h.core.stalls.contains (t, p) &&
  (if p = 2 ∨ p = 3 then
    !bitOf l 15 || ((if hl : l % 64 < 64 then (h.dma[l % 64]).buf.isSome else false) && !h.postFull)
  else if p = 13 then
    let (e, q) := chanQueue l
    e < 12 && h.domOn (4 + e) && field (h.get (Obj.Q_RING e q)) 19 16 != 0 && !bitOf (h.get (Obj.Q_RING e q)) 20 &&
      (h.get (Obj.Q_HW e q) + 65536 - h.get (Obj.Q_SW e q)) % 65536 != h.queueSlots e q
  else if p = 14 then !(h.core.inbox.any fun c => c.egress == 14 && c.tun == t && hdrLast c.hdr)
  else true)

/-- The egress is sending a cell. -/
def Hub.sending (h : Hub) (p : Nat) : Bool := h.core.busy.any fun b => b.1 == p && Nat.ble (h.now + 1) b.2

/-- The limit of the port leaves this slot open (R293). -/
def Hub.limitOpen (h : Hub) (p : Nat) : Bool :=
  h.get (Obj.PORT_LIMIT p) == 0 || Nat.ble (((h.core.limitAt.find? fun x => x.1 == p).map (·.2)).getD 0) h.now

/-- No HOP carriage cell, which is a cell of class SC0, is queued at a trunk egress (R193). -/
def Hub.linkIdle (h : Hub) (p : Nat) : Bool := if hp : p < 2 then (h.links[p].hopTx).isEmpty else true

/-- The conditions of R262 for one egress. -/
def Hub.cutsThrough (h : Hub) (ing t p cls : Nat) : Bool :=
  h.flag Obj.CUT_THROUGH_EN && !h.sending p && (h.queueAt p).isEmpty && h.open_ p cls && h.limitOpen p && h.peakOk t p &&
  h.served t (h.get (Obj.TUN_LOCAL t)) p && h.linkIdle p &&
  Nat.ble (h.rateOut p) (h.rateIn ing)

/-! ### Camera lines (R273, R304, R348, R351) -/

/-- The line state of a tunnel at an ingress. -/
def Hub.lineSt (h : Hub) (t ing : Nat) : LineSt :=
  match h.core.lines.find? (fun l => l.1 == (t, ing)) with
  | some l => l.2
  | none => {}

/-- The same, set. -/
def Hub.setLine (h : Hub) (t ing : Nat) (l : LineSt) : Hub :=
  h.setCore fun c => { c with lines := ((t, ing), l) :: c.lines.filter fun x => x.1 != (t, ing) }

/-- The trailer of a frame-end marker as it passes this hub (R351). -/
def markTrailer (l : LineSt) (body : List Byte) : List Byte :=
  let f := byteAt body 1
  let f := if l.refused = 0 then f else f ||| 3
  let f := if l.gap then f ||| 0x11 else f
  let n := min 0xFFFF (ofBE (slice body 18 2) + l.refused)
  overlay (setByte body 1 f) 18 (toBE 2 n)

/-- The camera stream whose receiver is attachment `ing` and whose virtual channel the tunnel names (R342). -/
def Hub.camStream (h : Hub) (t ing : Nat) : Nat := 4 * (ing - 4) + h.get (Obj.TUN_LOCAL t) % 4

/-- A line refused at the segmenting hub's own ingress (R357, R343). -/
def Hub.camRefused (h : Hub) (t ing : Nat) : Hub :=
  if 4 ≤ ing ∧ ing ≤ 7 then
    let s := h.camStream t ing
    let h := h.bump (Obj.LINES_DROPPED s)
    if h.get (Obj.STR_STATE s) = 2 then h.put (Obj.STR_STATE s) 3 else h
  else h

/-- A line refused: the rest of the frame is dropped; the event of R273 or R304. -/
def Hub.refuseLine (h : Hub) (t ing : Nat) (l : LineSt) (why : FrameDrop) : Hub :=
  let l := { l with left := 0, drop := why, refused := l.refused + 1 }
  let h := (h.setLine t ing l).camRefused t ing
  if why = .strainer then h.event 0x2F (Obj.STR_DROPS t)
  else (h.bump Obj.CAM_LINES_DROPPED).event 0x2F (Obj.TUN_DROPS t)

/-- The Strainer polices the tunnel at the ingress. -/
def Hub.strained (h : Hub) (t ing : Nat) : Bool := policed ing && h.get (Obj.POL_RATE t) != 0

/-- A line's first cell at the Pot: a line of a frame that has lost one is dropped, any other is admitted whole or refused; `long` says that
the link it would enter takes none of its cells (R210, R273). -/
def Hub.lineAdmit (h : Hub) (t ing : Nat) (long : Bool) : Bool × Hub :=
  let l := { h.lineSt t ing with left := 0 }
  let n := h.get (Obj.TUN_LINE_CELLS t)
  let h := h.setLine t ing l
  if l.drop = .pot then (false, ((h.setLine t ing { l with refused := l.refused + 1 }).camRefused t ing).bump Obj.CAM_LINES_DROPPED)
  else if long || h.admission t n == .refuse then (false, h.refuseLine t ing l .pot)
  else (true, h.setLine t ing { l with left := n })

/-- Whether a cell of an SC5 line goes on to storage: the Strainer acts on the line's first cell, then the Pot (R273, R303, R304). -/
def Hub.lineGate (h : Hub) (t ing : Nat) (first long : Bool) : Bool × Hub :=
  let l := { h.lineSt t ing with left := 0 }
  let n := h.get (Obj.TUN_LINE_CELLS t)
  if !first then
    (if long && (h.lineSt t ing).drop == .none then (false, h.refuseLine t ing l .pot) else ((h.lineSt t ing).drop == .none, h))
  else if l.drop = .strainer then (false, (h.setLine t ing { l with refused := l.refused + 1 }).camRefused t ing)
  else if h.strained t ing && !h.tokens .policer t ing n then (false, h.refuseLine t ing l .strainer)
  else (if h.strained t ing then h.takeTokens .policer t ing n else h).lineAdmit t ing long

/-- One admitted entry of the line used; a cell beyond them is admitted alone. -/
def Hub.useLine (h : Hub) (t ing : Nat) : Bool × Hub :=
  let l := h.lineSt t ing
  if l.left = 0 then (h.admission t 1 != .refuse, h) else (true, h.setLine t ing { l with left := l.left - 1 })

/-! ### Queueing (R264, R275, R277, R280) -/

/-- Bytes per pixel of a format. -/
def pixBytes (fmt : Nat) : Nat := if fmt = 2 then 2 else 4

/-- Width and height of plane `q` from object values read by `f` and timing values read by `t`. -/
def planeSize (f t : Nat → Nat) (q : Nat) : Nat × Nat :=
  if q % 2 = 0 then (t (Obj.H_ACTIVE (q / 2)), t (Obj.V_ACTIVE (q / 2))) else (f (Obj.SIZE q) % 65536, f (Obj.SIZE q) / 65536)

/-- Scan-out need of a plane in bytes per second (R365). -/
def planeNeed (f t : Nat → Nat) (q : Nat) : Nat :=
  if f (Obj.PLANE_ENABLE q) = 0 then 0
  else
    let (w, h) := planeSize f t q
    w * h * pixBytes (f (Obj.PLANE_FORMAT q)) * (t (Obj.PIX_CLK (q / 2)) * 1000) / max 1 (t (Obj.H_TOTAL (q / 2)) * t (Obj.V_TOTAL (q / 2)))

/-- `FS_NEED` in MB/s. -/
def fsNeed (f t : Nat → Nat) : Nat := ((List.range 4).map (planeNeed f t)).sum / 1000000

/-- `FS_NEED` as it reads. -/
def Hub.fsNeedNow (h : Hub) : Nat := fsNeed h.eff h.get

/-- Peak bandwidth of a level in MB/s. -/
def levelPeak (l : Nat) : Nat := [8532, 17064, 25600, 34132].getD l 34132

/-- Display scan-out, which takes precedence, leaves the spill engine bandwidth of the LPDDR5X (R280; log entry 97). -/
def Hub.spillRoom (h : Hub) : Bool := Nat.ble (h.fsNeedNow + 1) (levelPeak (h.get Obj.PL_CURRENT))

/-- A class of R277, written to spill while it is active. -/
def spillClass (c : Nat) : Bool := Nat.ble c 2

/-- Slots of the spill region. -/
def Hub.spillSlots (h : Hub) : Nat := h.get Obj.SPILL_SIZE * 1048576 / 144

/-- The cell goes to the spill region (R277); the second part says that the channel could not take it, as
while its domain is not on (R280, R519). -/
def Hub.spills (h : Hub) (t c : Nat) : Bool × Bool :=
  let cap := h.get (Obj.TUN_CAP t)
  let want := h.spillActive && spillClass c && h.flag Obj.SPILL_ENABLE && Nat.ble (h.spillUsed + 1) h.spillSlots &&
    Config.dramMiB != 0 && !(cap != 0 && Nat.ble (cap + 1) (h.tunCells t + h.lineLeft t + h.tunSpilled t + 1))
  let busy := h.core.spillBusy || !h.domOn 23 || !h.spillRoom
  (want && !busy, want && busy)

/-- HOP carriage cells that wait at a trunk egress, cells of class SC0 (R193). -/
def Hub.hopQueued (h : Hub) (p : Nat) : Nat := if hp : p < 2 then (h.links[p].hopTx).length else 0

/-- Cells of a class queued for an egress (R308). -/
def Hub.classQueue (h : Hub) (p cls : Nat) : Nat :=
  ((h.queueAt p).filter fun c => c.cls == cls).length + (if cls = 0 then h.hopQueued p else 0)

/-- Peaks of the queues a new cell has joined. -/
def Hub.peaks (h : Hub) (t cls : Nat) (outs : List Nat) : Hub :=
  let h := (h.peak Obj.POT_OCC_PEAK h.potOcc).peak (Obj.CLASS_PEAK cls) (h.classCells cls)
  outs.foldl (fun h p => (h.peak (Obj.QUEUE_PEAK t) (h.depth t p)).peak (Obj.CLASS_QUEUE_PEAK p cls) (h.classQueue p cls)) h

/-- A cell enqueued counts for the demand report of its trunk (R219). -/
def Hub.countEnq (h : Hub) (p c : Nat) : Hub :=
  if p < 2 then h.setCore fun s =>
    let n := ((s.enq.find? fun e => e.1 == (p, c)).map (·.2)).getD 0
    { s with enq := ((p, c), n + 1) :: s.enq.filter fun e => e.1 != (p, c) }
  else h

/-- A cell queued for its egresses, marked where its tunnel's queue is deep (R275). -/
def Hub.enqueue (h : Hub) (t cls : Nat) (place : Place) (marker : Bool) (a : Arrival) (hdr body : List Byte) (outs : List Nat) : Hub :=
  let deep := fun p => h.get (Obj.TUN_MARK t) != 0 && Nat.ble (h.get (Obj.TUN_MARK t)) (h.depth t p)
  let copies := outs.map fun p => (⟨p, deep p, h.linkNum t p, false⟩ : Copy)
  let cell : QCell := ⟨t, cls, h.get (Obj.TUN_LOCAL t), place, marker, if a.ing < 2 then hdrHops hdr else 0, a.gap, hdr, body, copies,
    h.flag (Obj.TUN_PINNED t), h.multicast t⟩
  let marks := (outs.filter deep).length
  let h := h.setCore fun c => { c with cells := c.cells ++ [cell] }
  let h := outs.foldl (fun h p => h.countEnq p cls) ((h.bumpBy (Obj.TUN_MARKS t) marks).bumpBy Obj.MARKED marks)
  let h := match place with
    | .spill => h.bump Obj.SPILL_WRITES
    | _ => h.bump Obj.STORED
  let h := h.peaks t cls outs
  outs.foldl (fun h p => match egressDomain p with
    | some d => if h.domState d == 1 && h.flag (Obj.PD_WAKE_ON_ACCESS d) then
        if hd : d < 25 then (h.startWake ⟨d, hd⟩ 2 16).bump (Obj.ACCESS_WAKES d) else h
      else h
    | none => h) h

/-! ### Cells lost at core ingress -/

/-- A deadline-bound cell that is late is discarded (R431). -/
def Hub.dropLate (h : Hub) : Hub := h.bump Obj.CELLS_LATE

/-- The cell cannot enter the link of a trunk egress: its class is closed, or it has more than 112 bytes on an encrypted class. -/
def Hub.linkRefuses (h : Hub) (p cls : Nat) (hdr : List Byte) : Bool :=
  Nat.ble p 1 && (h.closed p cls || (h.encrypts p cls && Nat.ble 113 (hdrLen hdr)))

/-! ### Egress service shared with Blend -/

/-- The egress is sending a cell from now for a slot. -/
def Hub.occupy (h : Hub) (p : Nat) : Hub :=
  let n := h.slotNs p
  h.setCore fun c => { c with busy := (p, h.now + n) :: c.busy.filter fun b => b.1 != p }

/-- The egress is busy with a cell of Blend's, which its limit spaces (R293). -/
def Hub.startSend (h : Hub) (p : Nat) : Hub :=
  let l := h.get (Obj.PORT_LIMIT p)
  (h.occupy p).setCore fun c => { c with
    limitAt := if l = 0 then c.limitAt else
      (p, max h.now (((c.limitAt.find? fun x => x.1 == p).map (·.2)).getD 0) + ceilDiv 1024000 l) :: c.limitAt.filter fun x => x.1 != p }

/-- Tokens and counters of a served cell (R284, R286): `k` says whether it is served with a committed token. -/
def Hub.charge (h : Hub) (t p cls : Nat) (k : Bool) : Hub :=
  let h := if h.get (Obj.PIR t) = 0 then h else h.takeTokens .peak t p 1
  let h := if k then (h.takeTokens .committed t p 1).bump (Obj.TX_COMMITTED t) else h.bump (Obj.TX_EXCESS t)
  (h.bump (Obj.CLASS_TX p cls)).bump Obj.CELLS_SWITCHED

end Sys2Proof.Machine
end

