-- ==== Sys2Proof/Machine/Dma.lean ====
section
/-! DEFINITION. DMA channels (R333 to R338): buffers opened, filled, closed and written back. -/

namespace Sys2Proof.Machine

/-- A change of a DMA channel. -/
def Hub.setDma (h : Hub) (ch : Fin 64) (d : DmaCh) : Hub := { h with dma := h.dma.set ch d }

/-- A 64-bit object's value. -/
def Hub.dmaRing (h : Hub) (ch : Nat) : Nat := h.get (Obj.DMA_RING ch)

/-- Bytes written to host memory as posted writes that cross no 4 KiB boundary (R334). -/
def Hub.hostWrite (h : Hub) (addr : Nat) (bs : List Byte) : Hub :=
  let room := 4096 - addr % 4096
  if bs.isEmpty then h
  else if Nat.ble bs.length room then h.post (.mem (BitVec.ofNat 64 addr) bs)
  else (h.post (.mem (BitVec.ofNat 64 addr) (bs.take room))).post (.mem (BitVec.ofNat 64 (addr + room)) (bs.drop room))

/-- The status of a channel with the descriptors it has: running with an open buffer, else no buffer. -/
def Hub.dmaStatus (h : Hub) (ch : Fin 64) : Hub :=
  if h.get (Obj.DMA_STATUS ch) = 3 then h
  else h.put (Obj.DMA_STATUS ch) (if h.get (Obj.DMA_ENABLE ch) = 0 then 0 else if (h.dma[ch]).buf.isSome then 1 else 2)

/-- The next fetched descriptor opened where no buffer is open. -/
def Hub.dmaOpen (h : Hub) (ch : Fin 64) : Hub :=
  let d := h.dma[ch]
  match d.buf, d.descs with
  | none, (a, n) :: rest => (h.setDma ch { d with buf := some (a, n, 0), descs := rest }).dmaStatus ch
  | _, _ => h.dmaStatus ch

/-- The open buffer closed: write-back of bytes 8 to 15, the completion interrupt, the next buffer (R333, R334, R337). -/
def Hub.dmaClose (h : Hub) (ch : Fin 64) (byLast byDisable : Bool) : Hub :=
  let d := h.dma[ch]
  match d.buf with
  | none => h
  | some (_, _, done) =>
    let slot := h.get (Obj.DMA_HEAD ch) % 2 ^ h.get (Obj.DMA_RING_LOG2 ch)
    let flags := 1 + 2 * b2n byLast + 4 * b2n d.drops + 8 * b2n byDisable
    let h := h.hostWrite (h.dmaRing ch + 16 * slot + 8) (toLE 4 done ++ toLE 4 flags)
    let h := h.put (Obj.DMA_HEAD ch) ((h.get (Obj.DMA_HEAD ch) + 1) % 2 ^ 32)
    let h := (h.setDma ch { d with buf := none, drops := false }).post (.msix (32 + ch.val))
    if byDisable then h.dmaStatus ch else h.dmaOpen ch

/-- Bytes of a cell put into a channel's buffers; `last` closes the buffer its final byte lies in (R334, R352). -/
def Hub.dmaPut (h : Hub) (ch : Fin 64) (last : Bool) : Nat → List Byte → Hub
  | 0, _ => h
  | fuel + 1, bs =>
    let d := h.dma[ch]
    match d.buf with
    | none => h.setDma ch { d with rest := d.rest ++ bs, restLast := last }
    | some (a, n, done) =>
      let now := bs.take (n - done)
      let left := bs.drop (n - done)
      let h := (h.hostWrite (a + done) now).bumpBy (Obj.DMA_BYTES ch) now.length
      let h := h.setDma ch { d with buf := some (a, n, done + now.length) }
      let ends := last && left.isEmpty
      let h := if ends || Nat.ble n (done + now.length) then h.dmaClose ch ends false else h
      if left.isEmpty then h else h.dmaPut ch last fuel left

/-- Descriptors fetched: they are queued, a buffer is opened, and bytes that waited for one go into it (R336). -/
def Hub.dmaFetched (h : Hub) (ch : Fin 64) (ds : List (Nat × Nat)) : Hub :=
  let d := h.dma[ch]
  let rest := d.rest
  let h := (h.setDma ch { d with descs := d.descs ++ ds, fetched := (d.fetched + ds.length) % 2 ^ 32, asked := false, rest := [] }).dmaOpen ch
  if rest.isEmpty then h else h.dmaPut ch d.restLast 130 rest

end Sys2Proof.Machine
end

