-- ==== Sys2Proof/Machine/Fec.lean ====
section
/-! DEFINITION. The lane stream of the Jensar link: line symbols (R135), the RS(544,514) code (R180), the scrambler (R181), alignment
markers (R183 to R185), the slot grid (R187), and the test patterns of R164. The field polynomial and the first root of the code, the
orders of bits the spec does not state, and the generators of the PRBSs are PRESUMED from IEEE 802.3 (log entry 78). -/

namespace Sys2Proof.Machine

/-! ### Line symbols (R134, R135, R136) -/

/-- A level at a lane's balls: the four levels of PAM4 from the lowest; NRZ uses the outer two. -/
abbrev Level := Fin 4

/-- The rate code is a PAM4 one (R134). -/
def pam4 (rate : Nat) : Bool := rate == 1 || rate == 2

/-- The Gray coded level of a pair of bits, the earlier one more significant (R135). -/
def grayLevel (a b : Bool) : Level := if a then (if b then 2 else 3) else (if b then 1 else 0)

/-- The pair of bits of a level. -/
def grayBits (l : Level) : List Bool := [Nat.ble 2 l.val, l.val == 1 || l.val == 2]

/-- Bits in pairs as PAM4 levels; a last odd bit is filled up with 0. -/
def grayLevels : List Bool → List Level
  | [] => []
  | [a] => [grayLevel a false]
  | a :: b :: t => grayLevel a b :: grayLevels t

/-- Bits as line symbols of a rate. -/
def toLine (rate : Nat) (bits : List Bool) : List Level := if pam4 rate then grayLevels bits else bits.map fun b => if b then 3 else 0

/-- Line symbols as bits. -/
def ofLine (rate : Nat) (ls : List Level) : List Bool := if pam4 rate then ls.flatMap grayBits else ls.map fun l => Nat.ble 2 l.val

/-- The symbols of a lane whose P and N conductors are swapped (R136). -/
def invertLine (ls : List Level) : List Level := ls.map fun l => 3 - l

/-- Bytes as bits, the most significant first. -/
def bytesBits (bs : List Byte) : List Bool := bs.flatMap byteBits

/-- The number that bits spell, the most significant first. -/
def ofBits (bs : List Bool) : Nat := bs.foldl (fun a b => 2 * a + b2n b) 0

/-- `w` bits of a number, the most significant first. -/
def toBits (w v : Nat) : List Bool := (List.range w).map fun i => bitOf v (w - 1 - i)

/-- Bits cut into bitPieces of `w`, at most `n` of them. -/
def bitPieces (w : Nat) : Nat → List Bool → List (List Bool)
  | 0, _ => []
  | n + 1, bs => if bs.isEmpty then [] else bs.take w :: bitPieces w n (bs.drop w)

/-- Bits as bytes. -/
def bitsBytes (bs : List Bool) : List Byte := (bitPieces 8 bs.length bs).map fun b => BitVec.ofNat 8 (ofBits b)

/-! ### GF(2^10) -/

/-- A symbol times x modulo x^10 + x^3 + 1. -/
def gfDouble (a : Nat) : Nat := let s := 2 * a; if bitOf s 10 then (s ^^^ 0x409) % 1024 else s

/-- Product of symbols, over `n` bits of the second. -/
def gfMulN (a b : Nat) : Nat → Nat
  | 0 => 0
  | n + 1 => (if b % 2 = 1 then a else 0) ^^^ gfMulN (gfDouble a) (b / 2) n

/-- Product of two symbols. -/
def gfMul (a b : Nat) : Nat := gfMulN a b 10

/-- A power, over `n` bits of the exponent. -/
def gfPowN (a e : Nat) : Nat → Nat
  | 0 => 1
  | n + 1 =>
    let r := gfPowN a (e / 2) n
    let r := gfMul r r
    if e % 2 = 1 then gfMul r a else r

/-- α to a power. -/
def gfExp (e : Nat) : Nat := gfPowN 2 (e % 1023) 10

/-- The inverse of a symbol. -/
def gfInv (a : Nat) : Nat := gfPowN a 1022 10

/-- The value of a polynomial, lowest coefficient first. -/
def gfEval (p : List Nat) (x : Nat) : Nat := p.foldr (fun c r => c ^^^ gfMul r x) 0

/-! ### RS(544,514) (R180) -/

/-- The generator polynomial, highest coefficient first without its leading 1: the product of x − α^i for i = 0 to 29. -/
def rsGen : List Nat :=
  ((List.range 30).foldl (fun g i => (g ++ [0]).zipWith (· ^^^ ·) (0 :: g.map (gfMul (gfExp i)))) [1]).drop 1

/-- One message symbol taken into the parity register. -/
def rsStep (r : List Nat) (m : Nat) : List Nat :=
  let fb := m ^^^ r.getD 0 0
  (r.drop 1 ++ [0]).zipWith (fun a g => a ^^^ gfMul fb g) rsGen

/-- The 30 parity symbols of a message. -/
def rsParity (msg : List Nat) : List Nat := msg.foldl rsStep (List.replicate 30 0)

/-- A codeword: the message symbols, then the parity symbols. -/
def rsEncode (msg : List Nat) : List Nat := msg ++ rsParity msg

/-- The 30 syndromes of a received word. -/
def rsSyndromes (w : List Nat) : List Nat := (List.range 30).map fun i => let a := gfExp i; w.foldl (fun r c => gfMul r a ^^^ c) 0

/-- The state of the Berlekamp–Massey iteration. -/
structure BmSt where
  c : List Nat := [1]
  b : List Nat := [1]
  len : Nat := 0
  m : Nat := 1
  d0 : Nat := 1
  deriving DecidableEq, Repr

/-- Two polynomials added. -/
def gfAdd (p q : List Nat) : List Nat := (List.range (max p.length q.length)).map fun i => p.getD i 0 ^^^ q.getD i 0

/-- One iteration, for syndrome `n`. -/
def bmStep (s : List Nat) (st : BmSt) (n : Nat) : BmSt :=
  let d := (List.range (st.len + 1)).foldl (fun a i => a ^^^ gfMul (st.c.getD i 0) (s.getD (n - i) 0)) 0
  if d = 0 then { st with m := st.m + 1 }
  else
    let f := gfMul d (gfInv st.d0)
    let c := gfAdd st.c (List.replicate st.m 0 ++ st.b.map (gfMul f))
    if 2 * st.len ≤ n then { c := c, b := st.c, len := n + 1 - st.len, m := 1, d0 := d }
    else { st with c := c, m := st.m + 1 }

/-- The polynomial of the error positions. -/
def rsLocator (s : List Nat) : BmSt := (List.range 30).foldl (bmStep s) {}

/-- The error at position `j` of a received word, 0 where there is none (Chien's search and Forney's formula). -/
def rsErrorAt (loc omega deriv : List Nat) (j : Nat) : Nat :=
  let x := gfExp (543 - j)
  let y := gfInv x
  if gfEval loc y = 0 then gfMul x (gfMul (gfEval omega y) (gfInv (gfEval deriv y))) else 0

/-- A received word decoded: the codeword and how many of its symbols were corrected, at most 15; none where it is uncorrectable. -/
@[irreducible] def rsDecode (w : List Nat) : Option (List Nat × Nat) :=
  let s := rsSyndromes w
  if s.all (· == 0) then some (w, 0)
  else
    let bm := rsLocator s
    let omega := (List.range 30).map fun i => (List.range (i + 1)).foldl (fun a k => a ^^^ gfMul (bm.c.getD k 0) (s.getD (i - k) 0)) 0
    let deriv := (List.range bm.len).map fun i => if i % 2 = 0 then bm.c.getD (i + 1) 0 else 0
    let errs := (List.range 544).map (rsErrorAt bm.c omega deriv)
    let n := (errs.filter (· != 0)).length
    let fixed := w.zipWith (· ^^^ ·) errs
    if Nat.ble bm.len 15 && n == bm.len && (rsSyndromes fixed).all (· == 0) then some (fixed, n) else none

/-! ### The scrambler (R181) -/

/-- The scrambler's register at the first message bit after an alignment marker of lane `m`. -/
def scrSeed (m : Nat) : Nat := 0x7FFFFFF0 + m

/-- One bit of x^31 + x^28 + 1 and the register after it. -/
def scrBit (r : Nat) : Bool × Nat :=
  let o := Bool.xor (bitOf r 30) (bitOf r 27)
  (o, (2 * r + b2n o) % 2 ^ 31)

/-- Bits scrambled, or descrambled, and the register after them. -/
def scramble31 : Nat → List Bool → List Bool × Nat
  | r, [] => ([], r)
  | r, b :: bs =>
    let (o, r) := scrBit r
    let (t, r) := scramble31 r bs
    (Bool.xor b o :: t, r)

/-- The 5440 bits of the codeword of 5140 message bits, with the scrambler's register after it (R180, R181). -/
@[irreducible] def encodeWord (scr : Nat) (msg : List Bool) : List Bool × Nat :=
  let (s, r) := scramble31 scr msg
  ((rsEncode ((bitPieces 10 514 s).map ofBits)).flatMap (toBits 10), r)

/-! ### The slot grid (R187) -/

/-- Whole slots between a marker and the next periodic one, where codeword `cw0` follows the first. -/
def gridSlots (cw0 : Nat) : Nat := (1024 - cw0) * 5140 / 1088

/-- Bits on the line from the last periodic marker to the start of a slot: the slot's first message bit lies in a codeword of 5440. -/
def slotPos (cw0 slot : Nat) : Nat := (cw0 + slot * 1088 / 5140) * 5440 + slot * 1088 % 5140

/-! ### Alignment markers (R183 to R185) -/

/-- The PRBS13 generator x^13 + x^12 + x^2 + x + 1: `n` bits from a register. -/
def prbs13 : Nat → Nat → List Bool
  | 0, _ => []
  | n + 1, r =>
    let o := Bool.xor (Bool.xor (bitOf r 12) (bitOf r 11)) (Bool.xor (bitOf r 1) (bitOf r 0))
    o :: prbs13 n ((2 * r + b2n o) % 2 ^ 13)

/-- The PRBS13 fill of a marker. -/
def markerFill : List Byte := bitsBytes (prbs13 944 (Config.prbs13Seed.val + 1))

/-- A marker's three times four bytes. -/
def markerWord (lane dir : Nat) (joining : Bool) (rate idx count : Nat) : List Byte :=
  let top := if joining then idx / 256 % 4 * 64 else rate % 16 * 16
  [BitVec.ofNat 8 (lane % 4 + 4 * (dir % 2) + 8 * b2n joining + top), BitVec.ofNat 8 (if joining then idx % 256 else 0)] ++ toBE 2 count

/-- The 136 bytes of a marker. -/
def markerBlock (lane dir : Nat) (joining : Bool) (rate idx count : Nat) : List Byte :=
  let w := markerWord lane dir joining rate idx count
  toBE 6 0xA3F05C96E41B ++ w ++ w ++ w ++ markerFill

/-- Bit by bit majority of three bytes. -/
def majority (a b c : Byte) : Byte := (a &&& b) ||| (a &&& c) ||| (b &&& c)

/-- The four bytes of a received marker by majority of the three copies (R184). -/
def markerTaken (block : List Byte) : List Byte :=
  (List.range 4).map fun i => majority (block.getD (6 + i) 0) (block.getD (10 + i) 0) (block.getD (14 + i) 0)

/-! ### Test patterns (R164) -/

/-- Width of the register of a PRBS of `TK_PATTERN`. -/
def patWidth (pattern : Nat) : Nat := if pattern = 0 then 7 else if pattern = 1 then 13 else 31

/-- The bit that a PRBS register gives next: x^7 + x^6 + 1, the PRBS13 of the markers, x^31 + x^28 + 1. -/
def patBit (pattern reg : Nat) : Bool :=
  if pattern = 0 then Bool.xor (bitOf reg 6) (bitOf reg 5)
  else if pattern = 1 then Bool.xor (Bool.xor (bitOf reg 12) (bitOf reg 11)) (Bool.xor (bitOf reg 1) (bitOf reg 0))
  else Bool.xor (bitOf reg 30) (bitOf reg 27)

/-- A bit moved into a PRBS register. -/
def patShift (pattern reg : Nat) (b : Bool) : Nat := (2 * reg + b2n b) % 2 ^ patWidth pattern

/-- The next `n` bits of a PRBS and the register after them. -/
def patBits (pattern : Nat) : Nat → Nat → List Bool × Nat
  | 0, reg => ([], reg)
  | n + 1, reg =>
    let o := patBit pattern reg
    let (t, r) := patBits pattern n (patShift pattern reg o)
    (o :: t, r)

/-- Bits of a symbol at a rate. -/
def symBits (rate : Nat) : Nat := if pam4 rate then 2 else 1

/-- A symbol with its first bit inverted. -/
def PatternGen.flipped (rate : Nat) (x : Level) : Level :=
  (toLine rate ((ofLine rate [x]).zipWith Bool.xor [true, false])).headD 0

/-- The next symbol of a generator, with its errors injected: PAM4 rates send the Gray-coded form of each PRBS; the square wave has a
period of 8 UI; SSPRQ is a table of IEEE 802.3. -/
def PatternGen.next (g : PatternGen) (rate : Nat) : Level × PatternGen :=
  let (sym, reg) : Level × Nat :=
    if g.pattern ≤ 2 then
      let (bs, r) := patBits g.pattern (symBits rate) g.reg
      ((toLine rate bs).headD 0, r)
    else if g.pattern = 3 then (Config.ssprq g.pos, g.reg)
    else (if g.pos / 4 % 2 = 0 then 3 else 0, g.reg)
  (if g.flip then PatternGen.flipped rate sym else sym, { g with reg := reg, pos := g.pos + 1, flip := false })

/-- The next `n` symbols of a generator. -/
def PatternGen.run (rate : Nat) : Nat → PatternGen → List Level × PatternGen
  | 0, g => ([], g)
  | n + 1, g =>
    let (x, g) := g.next rate
    let (t, g) := PatternGen.run rate n g
    (x :: t, g)

/-- The symbol a checker expects, from its register: of a PRBS the one the bits before it lead to; of the square wave the opposite of the
one 4 UI before, with the last four in the register; of SSPRQ the one of its place. -/
def PatternCheck.expect (c : PatternCheck) (rate : Nat) : Level :=
  if c.pattern ≤ 2 then (toLine rate (patBits c.pattern (symBits rate) c.reg).1).headD 0
  else if c.pattern = 3 then Config.ssprq c.pos
  else if c.reg / 64 % 4 = 3 then 0 else 3

/-- The register after a symbol. -/
def PatternCheck.shift (c : PatternCheck) (rate : Nat) (x : Level) : Nat :=
  if c.pattern ≤ 2 then (ofLine rate [x]).foldl (patShift c.pattern) c.reg else (4 * c.reg + x.val) % 256

/-- Symbols a checker needs before its register holds what it expects from. -/
def patFill (pattern rate : Nat) : Nat := if pattern ≤ 2 then ceilDiv (patWidth pattern) (symBits rate) else if pattern = 3 then 0 else 4

/-- A received symbol: its bits in error, and the checker after it (R170). A searching checker takes its register from what it receives and
locks after 64 symbols in a row without error; a locked one runs on by itself. A register of zeros is no place in a PRBS. -/
def PatternCheck.take (c : PatternCheck) (rate : Nat) (x : Level) : Nat × PatternCheck :=
  let y := c.expect rate
  let errs := (((ofLine rate [x]).zipWith Bool.xor (ofLine rate [y])).filter id).length
  if c.locked then (errs, { c with reg := c.shift rate y, pos := c.pos + 1 })
  else
    let ok := errs == 0 && Nat.ble (patFill c.pattern rate) c.pos && (Nat.ble 3 c.pattern || c.reg != 0)
    let good := if ok then c.good + 1 else 0
    (0, { c with reg := c.shift rate x, pos := c.pos + 1, good := good, locked := good == 64 })

/-- Received symbols: bits compared and bits in error since lock, and the checker after them. -/
def PatternCheck.run (rate : Nat) (c : PatternCheck) (xs : List Level) : Nat × Nat × PatternCheck :=
  xs.foldl (fun (n, e, c) x =>
    let (d, c') := c.take rate x
    (if c.locked then n + symBits rate else n, e + d, c')) (0, 0, c)

end Sys2Proof.Machine
end

