-- ==== Sys2Proof/Machine/Lanes.lean ====
section
/-! DEFINITION. The lanes of a trunk port (chapters 05 and 06): their states and pads (R146), coefficient sets (R150 to R156), and the
stream a lane sends: slots, codewords and alignment markers (R180 to R188). -/

namespace Sys2Proof.Machine

/-- A change of a trunk port's link layer. -/
def Hub.setLink (h : Hub) (p : Port) (f : LinkSt → LinkSt) : Hub := { h with links := h.links.set p (f h.links[p]) }

/-- A lane of a port. -/
def Hub.lane (h : Hub) (p : Port) (l : Lane) : LaneSt := (h.links[p]).lanes[l]

/-- A change of a lane. -/
def Hub.setLane (h : Hub) (p : Port) (l : Lane) (f : LaneSt → LaneSt) : Hub :=
  h.setLink p fun k => { k with lanes := k.lanes.set l (f k.lanes[l]) }

/-- A lane number. -/
def laneNo (l : Nat) : Lane := ⟨l % 4, Nat.mod_lt _ (by decide)⟩

/-- A direction: 0 away, 1 toward. -/
def dirNo (d : Nat) : Fin 2 := ⟨d % 2, Nat.mod_lt _ (by decide)⟩

/-- A port as a number is one of two. -/
def portNo (p : Nat) : Port := if p = 0 then 0 else 1

/-- Index of a lane in the diagnostic tables. -/
def laneIx (p l : Nat) : Nat := 4 * p + l

/-- A lane's state. -/
def Hub.laneState (h : Hub) (p l : Nat) : Nat := h.get (Obj.LANE_STATE p l)

/-- A lane is received at this end: its direction is not the one this end sends in. -/
def Hub.receives (h : Hub) (p l : Nat) : Bool := h.get (Obj.LANE_DIR p l) != h.sendDir p

/-! ### Pads (R146) -/

/-- The pads of a lane in a state, at the end that transmits on it or at the one that receives. A lane in DARK moves by the steps of R157
and one in LOOP by its test mode. -/
def padsOf (st : Nat) (tx : Bool) (old : Pads) : Pads :=
  if st = 0 then {}
  else if st = 1 then (if tx then { drive := .training } else { term := true })
  else if st = 2 then (if tx then { drive := .codewords } else { term := true })
  else if st = 3 then (if tx then { drive := .idle } else { term := true, detect := true })
  else if st = 6 then { term := true }
  else old

/-- The pads of a lane follow its state and direction. -/
def Hub.padsFollow (h : Hub) (p : Port) (l : Lane) : Hub :=
  h.setLane p l fun x => { x with pads := padsOf (h.laneState p l) (!h.receives p l) x.pads }

/-! ### The stream a lane sends -/

/-- Symbols put on a lane. -/
def Hub.sendLine (h : Hub) (p : Port) (l : Lane) (bits : List Bool) : Hub := h.emit (.line p l (toLine (h.links[p]).rate bits))

/-- A whole codeword of the message bits waiting, if there is one (R180, R181). -/
def Hub.sendWord (h : Hub) (p : Port) (l : Lane) : Hub :=
  let x := (h.lane p l).tx
  if x.bits.length < 5140 then h
  else
    let (w, scr) := encodeWord x.scr (x.bits.take 5140)
    (h.setLane p l fun s => { s with tx := { x with scr := scr, bits := x.bits.drop 5140, words := x.words + 1 } }).sendLine p l w

/-- A marker sent, and the slot grid that follows it (R183 to R185, R187). -/
def Hub.sendMarker (h : Hub) (p : Port) (l : Lane) (joining : Bool) (cw0 per : Nat) : Hub :=
  let m := markerBlock l.val (h.get (Obj.LANE_DIR p l)) joining (h.links[p]).rate cw0 (per % 65536)
  (h.sendLine p l (bytesBits m)).setLane p l fun s => { s with tx := { on := true, cw0 := cw0, scr := scrSeed l.val, per := per } }

/-- The lane fills its next slot with a cell. After the last whole slot the remaining bits carry 0, and the next periodic marker follows
(R184, R187). -/
def Hub.fillSlot (h : Hub) (p : Port) (l : Lane) (hdr body : List Byte) : Hub :=
  let x := (h.lane p l).tx
  if !x.on then h
  else
    let x := { x with bits := x.bits ++ bytesBits (hdr.take 8 ++ padTo 128 body), slots := x.slots + 1 }
    let h := (h.setLane p l fun s => { s with tx := x }).sendWord p l
    if x.slots < gridSlots x.cw0 then h
    else
      let pad := (1024 - x.cw0) * 5140 - x.slots * 1088
      let h := h.setLane p l fun s => { s with tx := { s.tx with bits := s.tx.bits ++ List.replicate pad false } }
      ((h.sendWord p l).sendWord p l).sendMarker p l false 0 (x.per + 1)

/-- A cell sent in a slot of a lane of a trunk port. -/
def Hub.putCell (h : Hub) (p : Port) (l : Lane) (hdr body : List Byte) : Hub := (h.emit (.trunkCell p l hdr body)).fillSlot p l hdr body

/-- The lane ends its stream with the codeword in progress, which holds every cell assigned to its slots (R232). -/
def Hub.endStream (h : Hub) (p : Port) (l : Lane) : Hub :=
  let x := (h.lane p l).tx
  let h := if x.on && !x.bits.isEmpty then
      (h.setLane p l fun s => { s with tx := { x with bits := x.bits ++ List.replicate (5140 - x.bits.length) false } }).sendWord p l
    else h
  h.setLane p l fun s => { s with tx := {} }

/-- Every lane this end sends on ends its stream: the port stops at a codeword boundary (R168, R214). -/
def Hub.endStreams (h : Hub) (p : Port) : Hub := (List.finRange 4).foldl (fun h l => h.endStream p l) h

/-- The position of a lane's next slot in its direction: marker period, bits into it. -/
def LaneStream.at_ (x : LaneStream) : Nat × Nat := (x.per, slotPos x.cw0 x.slots)

/-- A position comes before another; at equal positions the lower lane does (R188). -/
def slotBefore (a : Nat × Nat) (l : Nat) (b : Nat × Nat) (m : Nat) : Bool :=
  Nat.ble (a.1 + 1) b.1 || (a.1 == b.1 && (Nat.ble (a.2 + 1) b.2 || (a.2 == b.2 && Nat.ble l m)))

/-- The lane's next slot is the first of those of the lanes that send in the port's direction (R188). -/
def Hub.slotTurn (h : Hub) (p : Port) (l : Lane) : Bool :=
  let a := (h.lane p l).tx.at_
  (List.finRange 4).all fun m => m == l || !(h.lane p m).tx.on || slotBefore a l.val (h.lane p m).tx.at_ m.val

/-- The streams of the lanes that are ACTIVE in the sending direction start with their first periodic markers at one instant
(R182, R200 step 10). -/
def Hub.startStreams (h : Hub) (p : Port) : Hub :=
  (List.finRange 4).foldl (fun h l =>
    let h := h.setLane p l fun s => { s with tx := {}, rx := {} }
    if h.laneState p l == 2 && !h.receives p l then h.sendMarker p l false 0 0 else h) h

/-- The lane link control cells travel on: L0 away, L3 toward (R192). -/
def Hub.fixedLane (h : Hub) (p : Nat) : Nat := if h.sendDir p = 0 then 0 else 3

/-- The lane joins the streams of its direction: its joining marker ends on a codeword boundary of the fixed lane, whose count and next
index it carries (R182, R185). One that ends where the fixed lane's periodic marker does carries index 0 and that marker's count. -/
def Hub.joinStream (h : Hub) (p : Port) (l : Lane) : Hub :=
  let f := (h.lane p (laneNo (h.fixedLane p))).tx
  let next := f.cw0 + (f.slots * 1088 + 5139) / 5140
  if next < 1024 then h.sendMarker p l true next f.per else h.sendMarker p l true 0 (f.per + 1)

end Sys2Proof.Machine
end

