-- ==== Sys2Proof/Machine/Blend.lean ====
section
/-! DEFINITION. Blend (chapter 09): the service order, interleaved round robin, shapers, rescaling and gates; the delivery of a cell
to its egress; and the commands of the switch core. -/

namespace Sys2Proof.Machine

/-! ### Delivery to an egress -/

/-- The value a list gives a number, 0 where it lists none. -/
def assoc (l : List (Nat × Nat)) (k : Nat) : Nat := ((l.find? fun x => x.1 == k).map (·.2)).getD 0

/-- The same, set. -/
def assocSet (l : List (Nat × Nat)) (k v : Nat) : List (Nat × Nat) := (k, v) :: l.filter fun x => x.1 != k

/-- A header completed with its CRC-8 (R191). -/
def sealHdr (b0 b1 seq len b5 b6 : Nat) : List Byte :=
  let h7 := [BitVec.ofNat 8 b0, BitVec.ofNat 8 b1] ++ toBE 2 seq ++ [BitVec.ofNat 8 len, BitVec.ofNat 8 b5, BitVec.ofNat 8 b6]
  h7 ++ [BitVec.ofNat 8 (crc8 h7)]

/-- A cell sent on a lane of a trunk port: number, sequence, kind, epoch tag and CRC set; protected where its class is encrypted
(R189, R206, R256). -/
def Hub.sendTrunk (h : Hub) (p : Port) (l : Lane) (cls num hops : Nat) (cm : Bool) (hdr body : List Byte) : Hub :=
  let k := h.links[p]
  let seq := assoc k.txSeq num
  let enc := h.encrypts p.val cls
  let b1 := (byteAt hdr 1 ||| (16 * b2n cm)) / 2 * 2 + (if enc then k.txJ % 2 else 0)
  let ep := h.get (Obj.LINK_EPOCH_COUNT p)
  let out := sealHdr num b1 seq (byteAt hdr 4) (16 * (hops + 1) + hdrTag hdr) (ep % 256)
  let body := if enc then
      sealCell (phaseKey k.txS k.txJ) (cellIv k.txSalt ep (h.sendDir p) num seq) (out.take 7) body (hdrLen hdr)
    else body
  (h.setLink p fun k => { k with txSeq := assocSet k.txSeq num ((seq + 1) % 65536) }).putCell p l out body

/-- A cell written into the receive queue of an engine (R473, R474). -/
def Hub.engineReceive (h : Hub) (chan : Nat) (gap cm : Bool) (hdr body : List Byte) : Hub :=
  let (e, q) := chanQueue chan
  if he : e < 12 then
    let ring := h.get (Obj.Q_RING e q)
    let hw := h.get (Obj.Q_HW e q)
    let at_ := ring % 65536 + 144 * (hw % h.queueSlots e q)
    let bs := hdr.take 8 ++ padTo 128 body ++ toLE 4 h.time32 ++ toLE 4 (b2n cm + 2 * b2n gap)
    (h.memWrite (tcmAddr ⟨e, he⟩ at_) bs).put (Obj.Q_HW e q) ((hw + 1) % 65536)
  else h

/-- The DMA channel of a local channel at a PCIe port (R319). -/
def chanDma (l : Nat) : Option (Fin 64) :=
  if bitOf l 15 then some ⟨l % 64, Nat.mod_lt _ (by decide)⟩ else none

/-- The oldest cell that waits at an egress and satisfies `f`, taken by the attachment. -/
def Hub.inboxTake (h : Hub) (p : Nat) (f : InCell → Bool) : Option (InCell × Hub) :=
  (h.core.inbox.find? fun c => c.egress == p && f c).map fun c => (c, h.setCore fun s => { s with inbox := s.inbox.erase c })

/-- The cells of a tunnel that wait at an egress up to the oldest with last set, and what stays; none while that has not come. -/
def takeMessage (p t : Nat) : List InCell → Option (List InCell × List InCell)
  | [] => none
  | c :: cs =>
    if c.egress == p && c.tun == t then
      if hdrLast c.hdr then some ([c], cs) else (takeMessage p t cs).map fun x => (c :: x.1, x.2)
    else (takeMessage p t cs).map fun x => (x.1, c :: x.2)

/-- The same, taken by the attachment. -/
def Hub.messageTake (h : Hub) (p t : Nat) : Option (List InCell × Hub) :=
  (takeMessage p t h.core.inbox).map fun x => (x.1, h.setCore fun s => { s with inbox := x.2 })

/-- The payload bytes of a cell. -/
def InCell.bytes (c : InCell) : List Byte := c.body.take (hdrLen c.hdr)

/-- What waits at the egresses of a block whose state is lost, discarded. -/
def Hub.inboxClear (h : Hub) (ps : List Nat) : Hub :=
  h.setCore fun s => { s with inbox := s.inbox.filter fun c => !ps.contains c.egress }

/-- A cell handed to egress `p` under the local channel it was queued with (R253, R256, R334, R474). -/
def Hub.deliver (h : Hub) (p : Nat) (l : Lane) (t chan cls num hops : Nat) (cm gap : Bool) (hdr body : List Byte) : Hub :=
  let h := h.setCore fun c => { c with
    delivered := c.delivered + hdrLen hdr, transit := c.transit + (if p < 2 ∧ 1 ≤ hops then hdrLen hdr else 0) }
  if hp : p < 2 then h.sendTrunk ⟨p, hp⟩ l cls num hops cm hdr body
  else
    let hdr := if cm then setByte hdr 1 (byteAt hdr 1 ||| 16) else hdr
    if p = 13 then h.engineReceive chan gap cm hdr body
    else match (if p = 2 ∨ p = 3 then chanDma chan else none) with
      | some ch => (if gap then h.dmaLost chan else h).dmaPut ch (hdrLast hdr) 130 body
      | none =>
        let l := chan &&& localBits p chan
        (h.emit (.cell p t l hdr body)).setCore fun c => { c with inbox := c.inbox ++ [⟨p, t, l, gap, hdr, body⟩] }

/-! ### Interleaved weighted round robin (R288) -/

/-- The state of a round robin; it starts at pass 1. -/
def Hub.iwrr (h : Hub) (p which : Nat) (start : Nat) : Nat × Nat :=
  match h.core.iwrr.find? (fun x => x.egress == p && x.which == which) with
  | some x => (x.pass, x.pos)
  | none => (1, start)

/-- The same, set. -/
def Hub.setIwrr (h : Hub) (p which pass pos : Nat) : Hub :=
  h.setCore fun c => { c with iwrr := ⟨p, which, pass, pos⟩ :: c.iwrr.filter fun x => !(x.egress == p && x.which == which) }

/-- The next member to take a cell among the eligible ones, given in the order of visits with their ranks in it, and the new state:
the rest of this pass, else the next pass some eligible member's weight reaches. -/
def iwrrNext (es : List (Nat × Nat)) (pass pos : Nat) : Option (Nat × Nat) :=
  match es.find? (fun m => Nat.ble pos m.1 && Nat.ble pass m.2) with
  | some m => some (m.1, pass)
  | none =>
    let j := if es.any (fun m => Nat.ble (pass + 1) m.2) then pass + 1 else 1
    (es.find? fun m => Nat.ble j m.2).map fun m => (m.1, j)

/-- The pseudo-tunnel of the HOP carriage cells of a port, in class SC0 (R193, log entry 10). -/
def hopTun : Nat := 256

/-- The head cell of a tunnel at an egress. -/
def Hub.headOf (h : Hub) (t p : Nat) : Option QCell := h.core.cells.find? fun c => c.tun == t && c.waits p

/-- Tunnels with a head cell of class `c` at `p` that may be served, lowest number first, with their weights. -/
def Hub.candidates (h : Hub) (p c : Nat) : List (Nat × Nat) :=
  let ts := (List.range 256).filter fun t => match h.headOf t p with
    | some x => x.cls == c && x.place != .spill && h.served t x.chan p
    | none => false
  ts.map (fun t => (t, h.get (Obj.TUN_WEIGHT t))) ++
    (if hp : p < 2 then (if c == 0 && !(h.links[p].hopTx).isEmpty then [(hopTun, 1)] else []) else [])

/-- The class is strict (R287). -/
def Hub.strict (h : Hub) (c : Nat) : Bool := c == 7 || bitOf (h.get Obj.STRICT_CLASSES) c

/-- `peak_ok` of a candidate. -/
def Hub.canPeak (h : Hub) (p t : Nat) : Bool := t == hopTun || h.peakOk t p
/-- `committed_ok` of a candidate. -/
def Hub.canCommit (h : Hub) (p t : Nat) : Bool := t != hopTun && h.committedOk t p

/-- The tunnel of class `c` that is next among the eligible ones, and the state after its visit. -/
def Hub.iwrrTunnel (h : Hub) (p c : Nat) (ok : Nat → Bool) : Option (Nat × Hub) :=
  let (pass, pos) := h.iwrr p (2 + c) 0
  (iwrrNext ((h.candidates p c).filter fun m => ok m.1) pass pos).map fun (t, j) => (t, h.setIwrr p (2 + c) j (t + 1))

/-- The next weighted class of a tier and its tunnel; a class is ranked 7 − c, the highest visited first. -/
def Hub.iwrrClass (h : Hub) (p tier : Nat) (ok : Nat → Bool) : Option (Nat × Nat × Hub) :=
  let es := ((List.range 8).filter fun r => !h.strict (7 - r) && h.open_ p (7 - r) &&
    (h.candidates p (7 - r)).any fun m => ok m.1).map fun r => (r, h.get (Obj.CLASS_WEIGHT (7 - r)))
  let (pass, pos) := h.iwrr p tier 0
  match iwrrNext es pass pos with
  | some (r, j) => ((h.setIwrr p tier j (r + 1)).iwrrTunnel p (7 - r) ok).map fun (t, h) => (7 - r, t, h)
  | none => none

/-- The choice of R284: class, tunnel, whether it takes a committed token, and the hub with the round robins moved on. -/
def Hub.choose (h : Hub) (p : Nat) : Option (Nat × Nat × Bool × Hub) :=
  let strictPick := (List.range 8).findSome? fun r =>
    let c := 7 - r
    if h.strict c && h.open_ p c then (h.iwrrTunnel p c (h.canPeak p)).map fun (t, h') => (c, t, h.canCommit p t, h') else none
  match strictPick with
  | some x => some x
  | none => match h.iwrrClass p 0 (fun t => h.canCommit p t && h.canPeak p t) with
    | some (c, t, h') => some (c, t, true, h')
    | none => (h.iwrrClass p 1 (h.canPeak p)).map fun (c, t, h') => (c, t, false, h')

/-! ### Leaving a queue -/

/-- The first copy of tunnel `t` at `p` removed; the entry is freed with its last copy (R264). -/
def popCopy (t p : Nat) : List QCell → List QCell
  | [] => []
  | c :: cs =>
    if c.tun == t && c.waits p then
      let left := c.copies.filter fun x => x.egress != p
      if left.isEmpty then cs else { c with copies := left } :: cs
    else c :: popCopy t p cs

/-- The same on the hub. -/
def Hub.pop (h : Hub) (t p : Nat) : Hub := h.setCore fun c => { c with cells := popCopy t p c.cells }

/-- The head entry of tunnel `t` at `p` discarded with every copy (R276). -/
def dropEntry (t p : Nat) : List QCell → List QCell
  | [] => []
  | c :: cs => if c.tun == t && c.waits p then cs else c :: dropEntry t p cs

/-- Every copy at an egress that satisfies `f` discarded (R265). -/
def Hub.discardCopies (h : Hub) (p : Nat) (f : QCell → Bool) : Hub :=
  h.setCore fun c => { c with cells := (c.cells.map fun x =>
    if f x then { x with copies := x.copies.filter fun y => y.egress != p } else x).filter fun x => !x.copies.isEmpty }

/-- Head cells that may not be sent: late ones are freed without being served (R285, R431), cells of a class closed on the link are
dropped at its ingress (R210). -/
def Hub.purge (h : Hub) (p : Nat) : Nat → Hub
  | 0 => h
  | fuel + 1 =>
    let bad := (List.range 256).find? fun t => match h.headOf t p with
      | some c => h.late c.hdr c.body || (Nat.ble p 1 && h.closed p c.cls)
      | none => false
    match bad with
    | none => h
    | some t => match h.headOf t p with
      | some c =>
        let h' := if h.late c.hdr c.body then h.bump Obj.CELLS_LATE else h.dropQueued c
        (h'.pop t p).purge p fuel
      | none => h

/-- The head copy of tunnel `t` at `p` has waited for its peak bucket. -/
def waitHead (t p : Nat) : List QCell → List QCell
  | [] => []
  | c :: cs =>
    if c.tun == t && c.waits p then
      { c with copies := c.copies.map fun y => if y.egress == p then { y with waited := true } else y } :: cs
    else c :: waitHead t p cs

/-- Head cells that find their peak bucket empty, each counted once (R307). -/
def Hub.countWaits (h : Hub) (p : Nat) : Hub :=
  (List.range 256).foldl (fun h t => match h.headOf t p with
    | some c =>
      if !h.peakOk t p && c.copies.any (fun x => x.egress == p && !x.waited) then
        (h.setCore fun s => { s with cells := waitHead t p s.cells }).bump (Obj.SHAPER_WAITS t)
      else h
    | none => h) h

/-- One HOP carriage cell sent, protected as every cell of class SC0 is (R193, R206). -/
def Hub.sendHopCell (h : Hub) (p : Port) (l : Lane) : Hub :=
  let k := h.links[p]
  match k.hopTx with
  | [] => h
  | (hdr, body) :: rest =>
    let enc := h.encrypts p.val 0
    let ep := h.get (Obj.LINK_EPOCH_COUNT p)
    let seq := ofBE (slice hdr 2 2)
    let out := sealHdr (byteAt hdr 0) (byteAt hdr 1 / 2 * 2 + (if enc then k.txJ % 2 else 0)) seq (byteAt hdr 4) (byteAt hdr 5) (ep % 256)
    let body := if enc then
        sealCell (phaseKey k.txS k.txJ) (cellIv k.txSalt ep (h.sendDir p) (byteAt hdr 0) seq) (out.take 7) body (hdrLen hdr)
      else body
    ((h.setLink p fun k => { k with hopTx := rest }).bump (Obj.CLASS_TX p 0)).putCell p l out body

/-- Cells are queued at a trunk egress, HOP carriage cells among them, but only in closed classes (R299). -/
def Hub.heldByGate (h : Hub) (p : Nat) : Bool :=
  (!(h.queueAt p).isEmpty || h.hopQueued p != 0) && (h.queueAt p).all (fun c => !h.open_ p c.cls) &&
    (h.hopQueued p == 0 || !h.open_ p 0)

/-- A slot that carries nothing: an idle cell on a trunk, no offer elsewhere. -/
def Hub.idle (h : Hub) (p : Nat) (l : Lane) : Hub :=
  if hp : p < 2 then
    let h := if h.heldByGate p then h.bump (Obj.GATE_HELD p) else h
    (h.bump (Obj.IDLE_SLOTS p)).putCell ⟨p, hp⟩ l (sealHdr 0 0 0 0 0xF0 0) (List.replicate 128 0)
  else h

/-- The chosen cell served. `ecc`: 0 none, 1 corrected, 2 uncorrectable entry, 3 uncorrectable tag (R276). -/
def Hub.serve (h : Hub) (p : Nat) (l : Lane) (cls t : Nat) (k : Bool) (ecc : Fin 4) : Hub :=
  match h.headOf t p with
  | none => h
  | some c =>
    if Nat.ble ecc.val 1 then
      let cp := (c.copies.find? fun x => x.egress == p).getD ⟨p, false, 0, false⟩
      let h := if ecc.val = 1 then h.bump Obj.CORE_ECC_CORRECTED else h
      (((h.charge t p cls k).pop t p).startSend p).deliver p l t c.chan cls cp.num c.hops cp.cm c.gap c.hdr c.body
    else
      let h := h.setCore fun s => { s with cells := dropEntry t p s.cells }
      let mine := fun (x : QCell) => x.tun == t && x.waits p
      let lost := if ecc.val = 3 then h.core.cells.filter mine else []
      let h := if ecc.val = 3 then h.discardCopies p mine else h
      (((c :: lost).foldl Hub.dropQueued h).bump Obj.CORE_ECC_UNCORRECTABLE).event 0x2E Obj.CORE_ECC_UNCORRECTABLE |>.eccFault (ecc.val + 1)

/-- Direction a code gives a lane: 0 away, 1 toward. -/
def codeDir (code l : Nat) : Nat := if l = 0 then 0 else if l = 3 then 1 else field code (l - 1) (l - 1)

/-- Lanes a code gives away. -/
def codeAway (code : Nat) : Nat := ((List.range 4).filter fun l => codeDir code l == 0).length

/-- Network time in 1/8 192 000 ns. -/
def Hub.netU (h : Hub) : Nat := h.netTime * 32 / 15625

/-- Lanes the pattern in effect gives away. -/
def Hub.lanesAway (h : Hub) (p : Nat) : Nat := codeAway (h.get (Obj.ALLOT_CURRENT p))

/-- The exchange of a port set. -/
def Hub.setX (h : Hub) (p : Port) (f : XchgSt → XchgSt) : Hub := { h with xchg := h.xchg.set p (f h.xchg[p]) }

/-- A time exchange cell that passes the transmit timestamp point is stamped (R398, R400). -/
def Hub.stampSent (h : Hub) (p : Port) (c : List Byte) : Hub :=
  if byteAt c 0 = 2 then
    h.setX p fun x => { x with tx := (⟨ofBE (slice c 3 4), h.netU, h.net.steps, h.lanesAway p⟩ :: x.tx).take 4 }
  else h

/-- A link control cell sent on the fixed lane (R192). -/
def Hub.sendControl (h : Hub) (p : Port) (l : Lane) : Hub :=
  match h.links[p].control with
  | [] => h
  | c :: rest =>
    (((h.setLink p fun k => { k with control := rest }).stampSent p c).occupy p).putCell p l
      (sealHdr 0 0 0 c.length 0xE0 (h.get (Obj.LINK_EPOCH_COUNT p) % 256)) c

/-- A slot exists: on a trunk, the next in order of an ACTIVE lane of the sending direction of a link that is up (R188, R283). -/
def Hub.hasSlot (h : Hub) (p : Nat) (l : Lane) : Bool :=
  if hp : p < 2 then
    h.linkUp p && h.get (Obj.LANE_STATE p l) == 2 && h.get (Obj.LANE_DIR p l) == h.sendDir p && h.slotTurn ⟨p, hp⟩ l
  else h.egressUp p

/-- HOP carriage cells of a closed SC0 are dropped at the ingress to the link (R210). -/
def Hub.dropHop (h : Hub) (p : Nat) : Hub :=
  if hp : p < 2 then (if h.closed p 0 then h.setLink ⟨p, hp⟩ fun k => { k with hopTx := [] } else h) else h

/-- The offer of R284 below the control cells. -/
def Hub.offer (h : Hub) (p : Nat) (l : Lane) (ecc : Fin 4) : Hub :=
  if !h.limitOpen p then h.idle p l
  else
    let h := ((h.dropHop p).purge p h.core.cells.length).countWaits p
    match h.choose p with
    | none => h.idle p l
    | some (c, t, k, h) =>
      if t = hopTun then (if hp : p < 2 then (h.startSend p).sendHopCell ⟨p, hp⟩ l else h) else h.serve p l c t k ecc

/-- One slot at egress `p` (R284). -/
def Hub.blendSlot (h : Hub) (p : Nat) (l : Lane) (ecc : Fin 4) : Hub :=
  if !h.hasSlot p l then h
  else if hp : p < 2 then
    if l.val = h.fixedLane p ∧ !(h.links[p].control).isEmpty then h.sendControl ⟨p, hp⟩ l else h.offer p l ecc
  else h.offer p l ecc

/-! ### Rescaling (R293 to R295) -/

/-- The entry has an egress at `p`: any end of a two-way tunnel, end B only of a multicast one (R254, R290). -/
def Hub.egressAt (h : Hub) (t p : Nat) : Bool :=
  h.tunUsed t && (bitOf (h.get (Obj.TUN_END_B t)) p ||
    (h.get (Obj.TUN_END_A t) == p && (h.flag (Obj.TUN_PINNED t) || popCount 15 (h.get (Obj.TUN_END_B t)) == 1)))

/-- The entry has an ingress at `p`: end A, and the ends B of a tunnel that is not multicast (R254, R302). -/
def Hub.ingressAt (h : Hub) (t p : Nat) : Bool :=
  h.tunUsed t && (h.get (Obj.TUN_END_A t) == p || (bitOf (h.get (Obj.TUN_END_B t)) p && !h.multicast t))

/-- c_sum of an egress in kbit/s. -/
def Hub.commitSum (h : Hub) (p : Nat) : Nat :=
  ((List.range 256).map fun t => if h.egressAt t p then
    (if h.get (Obj.PIR t) = 0 then h.get (Obj.CIR t) else min (h.get (Obj.CIR t)) (h.get (Obj.PIR t))) else 0).sum

/-- The scale factor for a sum in kbit/s and an exact rate (R294, R696). -/
def scaleFor (sum rate : Nat) : Nat := if sum * rateUnit ≤ 1000 * rate then 1024 else 1024 * (1000 * rate) / (sum * rateUnit)

/-- Committed buckets of an egress reckoned up to now under the scale factor in effect. -/
def Hub.settleCommitted (h : Hub) (p : Nat) : Hub :=
  h.setCore fun c => { c with buckets := c.buckets.map fun b =>
    if b.kind == .committed && b.port == p then { b with level := h.level .committed b.tun p, at_ := h.now } else b }

/-- The scale factor of an egress computed anew (R294, R295). -/
def Hub.rescale (h : Hub) (p : Nat) : Hub :=
  let rate := h.portRate p
  let sum := h.commitSum p
  let f := scaleFor sum rate
  let old := h.get (Obj.RESCALE p)
  let h := (h.put (Obj.PORT_RATE p) (wholeMbps rate)).put (Obj.COMMIT_SUM p) (ceilDiv sum 1000)
  if f = old then h
  else
    let h := ((h.settleCommitted p).put (Obj.RESCALE p) f).bump (Obj.RESCALE_CHANGES p)
    if old = 1024 then h.event 0x31 (Obj.RESCALE p) else h

/-- Every egress rescaled. -/
def Hub.rescaleAll (h : Hub) : Hub := (List.range 15).foldl Hub.rescale h

/-- The payload announced for the next boundary (R235, R295). -/
def Hub.announceRate (h : Hub) (p rate : Nat) : Hub :=
  let h := h.put (Obj.PORT_NEXT_RATE p) (wholeMbps rate)
  if scaleFor (h.commitSum p) (h.underLimit p rate) < 1024 then h.event 0x31 (Obj.RESCALE p) else h

/-! ### Core ingress (R255 to R277) -/

/-- A link control cell takes the next slot of this lane (R192, R284). -/
def Hub.controlNext (h : Hub) (p : Nat) (l : Lane) : Bool :=
  if hp : p < 2 then l.val == h.fixedLane p && !(h.links[p].control).isEmpty else false

/-- The lane whose slot is next at a trunk egress (R188), past a slot that a link control cell takes; the fixed lane where there is none. -/
def Hub.nextLane (h : Hub) (p : Nat) : Lane :=
  (((List.finRange 4).find? fun l => h.hasSlot p l && !h.controlNext p l) <|> (List.finRange 4).find? fun l => h.hasSlot p l).getD
    (laneNo (h.fixedLane p))

/-- Copies that leave at once (R262, R264). -/
def Hub.cutTo (h : Hub) (t cls : Nat) (a : Arrival) (hdr body : List Byte) (outs : List Nat) : Hub :=
  outs.foldl (fun h p =>
    let hops := if a.ing < 2 then hdrHops hdr else 0
    ((((h.charge t p cls (h.committedOk t p)).startSend p).bump Obj.CUT_THROUGH)).deliver p
      (h.nextLane p) t (h.get (Obj.TUN_LOCAL t)) cls (h.linkNum t p) hops false a.gap hdr body) h

/-- What became of a cell at the Pot. -/
inductive Stored where
  | taken | dropped | held
  deriving DecidableEq, Repr

/-- A copy to store that the spill region does not take: admitted, or refused; an entry of a line is used up by a cell that is cut through
everywhere too. -/
def Hub.storePot (h : Hub) (t cls : Nat) (a : Arrival) (hdr body : List Byte) (outs : List Nat) (line : Bool) : Stored × Hub :=
  let (ok, h) := if line then h.useLine t a.ing else (outs.isEmpty || h.admission t 1 != .refuse, h)
  if outs.isEmpty then (.taken, h)
  else if ok then (.taken, h.enqueue t cls .pot false a hdr body outs)
  else (if holds a.ing && cls != 5 then .held else .dropped, if a.counted then h else h.countRefusal t cls a.ing)

/-- Storing copies for `outs`: spill, the Pot, or a refusal. -/
def Hub.store (h : Hub) (t cls : Nat) (a : Arrival) (hdr body : List Byte) (outs : List Nat) (line marker : Bool) : Stored × Hub :=
  if marker then (.taken, if outs.isEmpty then h else h.enqueue t cls .pot true a hdr body outs)
  else
    let (spill, busy) := if outs.isEmpty then (false, false) else h.spills t cls
    if spill then (.taken, h.enqueue t cls .spill false a hdr body outs)
    else (if busy && !a.counted then h.bump Obj.SPILL_BYPASS else h).storePot t cls a hdr body outs line

/-- The header of a cell at core ingress: class and route tag set where it enters from an attachment that is no trunk (R266). -/
def Hub.ingressHdr (_h : Hub) (a : Arrival) (t cls : Nat) : List Byte :=
  if a.ing < 2 then a.hdr
  else
    let b1 := cls * 32 + byteAt a.hdr 1 % 32 / 2 * 2
    setByte (setByte (padTo 8 a.hdr) 1 b1) 5 (routeTag a.ing t)

/-- A cell of an entry goes to its egresses. -/
def Hub.route (h : Hub) (a : Arrival) (t cls : Nat) (hdr body : List Byte) (line marker : Bool) : Bool × Hub :=
  let outs := h.dests t a.ing (hdrTag hdr)
  if outs.isEmpty then (true, (h.bump Obj.NO_TUNNEL).dropCells t 1)
  else
    let far := a.ing < 2 && Nat.ble 8 (hdrHops hdr)
    let stay := outs.filter fun p => !(far && Nat.ble p 1)
    let h := if stay.length < outs.length then (h.bump Obj.HOP_LIMIT).dropCells t 1 else h
    let open_ := stay.filter fun p => !h.linkRefuses p cls hdr
    let h := if open_.length < stay.length then h.dropCells t 1 else h
    let cut := open_.filter fun p => h.cutsThrough a.ing t p cls
    match h.store t cls a hdr body (open_.filter fun p => !cut.contains p) line marker with
    | (.taken, h) => (true, h.cutTo t cls a hdr body cut)
    | (.dropped, h) => (true, h)
    | (.held, h) => (false, h)

/-- A cell of a camera tunnel (R273, R304, R348, R351). -/
def Hub.ingressCamera (h : Hub) (a : Arrival) (t : Nat) (hdr : List Byte) : Bool × Hub :=
  let l := h.lineSt t a.ing
  let h := if a.gap then h.setLine t a.ing { l with gap := true } else h
  if hdrLast hdr && !hdrFirst hdr then
    let l := h.lineSt t a.ing
    let body := markTrailer l a.body
    let h := if 4 ≤ a.ing ∧ a.ing ≤ 7 ∧ bitOf (byteAt body 1) 0 then h.bump (Obj.FRAMES_INCOMPLETE (h.camStream t a.ing)) else h
    (h.setLine t a.ing {}).route a t 5 hdr body false true
  else
    let tooLong := (h.dests t a.ing (hdrTag hdr)).any fun p => Nat.ble p 1 && h.encrypts p 5 && Nat.ble 113 (hdrLen hdr)
    let (go, h) := h.lineGate t a.ing (hdrFirst hdr) tooLong
    if (h.lineSt t a.ing).drop == .strainer then (true, h.strainDrop t a.ing)
    else
      let h := if h.strained t a.ing then h.bump (Obj.STR_PASSED t) else h
      if go then h.route a t 5 hdr a.body true false else (true, h.countRefusal t 5 a.ing)

/-- A cell at core ingress; false = its attachment holds it (R251, R255, R303, R431). -/
def Hub.ingress (h : Hub) (a : Arrival) : Bool × Hub :=
  match h.lookup a.ing a.chan a.hdr with
  | none => (true, h.bump Obj.NO_TUNNEL)
  | some t =>
    let cls := h.get (Obj.TUN_CLASS t)
    let hdr := h.ingressHdr a t cls
    if cls = 5 then h.ingressCamera a t hdr
    else
      let pol := h.strained t a.ing
      if pol && !h.tokens .policer t a.ing 1 then
        (true, (h.strainDrop t a.ing).setCore fun c => { c with refused := true })
      else
        let h := if pol then (h.takeTokens .policer t a.ing 1).bump (Obj.STR_PASSED t) else h
        if h.late hdr a.body then (true, h.bump Obj.CELLS_LATE) else h.route a t cls hdr a.body false false

/-- A cell presented at an attachment waits behind those before it. -/
def Hub.present (h : Hub) (a : Arrival) : Hub := h.setCore fun c => { c with arrivals := c.arrivals ++ [a] }

/-- A cell of an Ethernet frame: after a refusal the rest of its frame is dropped at ingress (R387). -/
def Hub.ingressFrame (h : Hub) (a : Arrival) : Bool × Hub :=
  let mine := h.core.frameDrop.contains a.ing && !hdrFirst a.hdr
  let h := h.setCore fun c => { c with refused := false, frameDrop := if mine then c.frameDrop else c.frameDrop.filter fun x => x != a.ing }
  if mine then (true, h)
  else
    let (done, h) := h.ingress a
    (done, if h.core.refused then h.setCore fun c => { c with frameDrop := a.ing :: c.frameDrop } else h)

/-- The oldest cell presented at an attachment enters the core, or stays held with its refusal counted. -/
def Hub.ingressNext (h : Hub) (ing : Nat) : Hub :=
  match h.core.arrivals.find? (fun a => a.ing == ing) with
  | none => h
  | some a =>
    let (done, h') := if a.ing = 8 ∨ a.ing = 9 then h.ingressFrame a else h.ingress a
    if done then h'.setCore fun c => { c with arrivals := c.arrivals.erase a }
    else h'.setCore fun c => { c with arrivals := c.arrivals.map fun x => if x == a then { x with counted := true } else x }

/-! ### Spill read-back (R278, R280) -/

/-- A spilled cell lies within 64 cells of the head of one of its queues. -/
def Hub.nearHead (h : Hub) (i : Nat) : Bool :=
  match h.core.cells[i]? with
  | none => false
  | some c => c.place == .spill && c.copies.any fun x =>
    Nat.ble ((h.core.cells.take i).filter fun y => y.tun == c.tun && y.waits x.egress).length 63

/-- The oldest spilled cell near its head is read into the staging reserve, while the LPDDR5X channel has room for it (R278, R280). -/
def Hub.spillReadback (h : Hub) : Hub :=
  if Nat.ble 1024 h.staged_ || h.core.spillBusy || !h.domOn 23 || !h.spillRoom then h
  else match firstBelow h.nearHead h.core.cells.length with
    | none => h
    | some i =>
      let h := h.setCore fun c => { c with cells := c.cells.modify i fun x => { x with place := .staging } }
      let cls := ((h.core.cells[i]?).map (·.cls)).getD 0
      ((h.bump Obj.SPILL_READS).peak Obj.POT_OCC_PEAK h.potOcc).peak (Obj.CLASS_PEAK cls) (h.classCells cls)

/-! ### Commit checks and effects (R254, R279, R291, R300, R305) -/

/-- The number of the tunnel entry at an index. -/
def tunOf (k : Nat) : Nat := k / 256 - 0x6000

/-- The tunnel group would be legal (R254, R305). -/
def Hub.tunGroupOk (h : Hub) (g : Staged) : Bool :=
  let t := tunOf g.leader
  let v := h.newVal g
  let cls := v (Obj.TUN_CLASS t)
  let a := v (Obj.TUN_END_A t)
  let b := v (Obj.TUN_END_B t)
  let lc := v (Obj.TUN_LINE_CELLS t)
  let clash := fun p num => (a == p || bitOf b p) &&
    (List.range 256).any fun u => u != t && h.tunUsed u && h.hasEnd u p && h.linkNum u p == num
  !(a != 0xFF && bitOf b a) && !(v (Obj.TUN_PINNED t) == 1 && b != 3) &&
  !(a != 0xFF && (clash 0 (v (Obj.TUN_NUM_TK0 t)) || clash 1 (v (Obj.TUN_NUM_TK1 t)))) &&
  (if cls = 5 then lc != 0 && Nat.ble (lc + 1) (h.get (Obj.TUN_FLOOR t)) &&
      (h.get (Obj.POL_BURST t) == 0 || Nat.ble lc (h.get (Obj.POL_BURST t)))
    else lc == 0)

/-- A tunnel group in effect: buckets of egresses and ingresses it adds start full; every factor anew (R290, R294, R302). -/
def Hub.tunGroupDone (old h : Hub) (t : Nat) : Hub :=
  let h := (List.range 15).foldl (fun h p =>
    let h := if h.egressAt t p && !old.egressAt t p then (h.fillBucket .committed t p).fillBucket .peak t p else h
    if h.ingressAt t p && !old.ingressAt t p then h.fillBucket .policer t p else h) h
  h.rescaleAll

/-- A committed- or peak-shaper group in effect (R291, R294). -/
def Hub.shaperDone (h : Hub) (t : Nat) (k : BucketKind) : Hub :=
  let rst := h.flag (if k = .committed then Obj.C_TOKRST t else Obj.P_TOKRST t)
  let h := (List.range 15).foldl (fun h p => if rst then h.fillBucket k t p else h.setLevel k t p 0) h
  h.rescaleAll

/-- A policer group would be legal (R305). -/
def Hub.policerOk (h : Hub) (g : Staged) : Bool :=
  let t := tunOf g.leader
  !(h.get (Obj.TUN_CLASS t) == 5 && h.newVal g (Obj.POL_RATE t) != 0 &&
    Nat.ble (h.newVal g (Obj.POL_BURST t) + 1) (h.get (Obj.TUN_LINE_CELLS t)))

/-- A policer group in effect (R305). -/
def Hub.policerDone (h : Hub) (t : Nat) : Hub :=
  (List.range 15).foldl (fun h p => if h.flag (Obj.POL_TOKRST t) then h.fillBucket .policer t p else h.setLevel .policer t p 0) h

/-- Two ranges of bytes have a byte in common. -/
def rangesMeet (a n b m : Nat) : Bool := n != 0 && m != 0 && Nat.ble (a + 1) (b + m) && Nat.ble (b + 1) (a + n)

/-- The spill group would be legal (R279). -/
def Hub.spillOk (h : Hub) (g : Staged) : Bool :=
  let base := h.newVal g Obj.SPILL_BASE
  let size := h.newVal g Obj.SPILL_SIZE * 1048576
  h.spillUsed == 0 && !rangesMeet base size (h.get Obj.FS_BASE) (h.get Obj.FS_SIZE * 1048576) &&
  Nat.ble (base + size) (Config.dramMiB * 1048576)

/-- A gate group would be legal (R300). -/
def Hub.gateOk (h : Hub) (g : Staged) : Bool :=
  let p := g.leader / 256 - 0x4120
  let v := h.newVal g
  let n := v (Obj.GATE_ENTRIES p)
  let per := 31250 * 2 ^ v (Obj.GATE_PERIOD p)
  let times := (List.range (n - 1)).map fun e => v (Obj.GATE_TIME p e)
  Nat.ble (v (Obj.GATE_OFFSET p) + 1) per && times.all (Nat.ble 64) && Nat.ble (times.sum + 1) per &&
  !(v (Obj.GATE_ENABLE p) == 1 && (List.range n).all fun e => !bitOf (v (Obj.GATE_OPEN p e)) 7)

/-- `GATE_CURRENT` brought up to the network time (R297, R299). -/
def Hub.gateNow (h : Hub) (p : Nat) : Hub :=
  h.put (Obj.GATE_CURRENT p) (h.gateCurrent p)

/-! ### The commands -/

/-- CELL_INGRESS: a cell is presented at an attachment (R251), or, with none given, the attachment presents the one that waits. -/
def execCellIngress (ing : Fin 14) (cell : Option CellIn) (s : State) : Host.Outcome State Fault Refusal :=
  s.run fun h =>
    let h := match cell with
      | some c => h.present ⟨ing.val, c.chan.toNat, c.hdr, c.body, c.gap, false⟩
      | none => h
    h.ingressNext ing.val

/-- SPILL_READBACK (R278). -/
def execSpillReadback (s : State) : Host.Outcome State Fault Refusal := s.run Hub.spillReadback

/-- BLEND_SLOT (R284). -/
def execBlendSlot (p : Egress) (l : Lane) (ecc : Fin 4) (s : State) : Host.Outcome State Fault Refusal :=
  s.run fun h => h.blendSlot p.val l ecc

/-- The result of a floor write (R274). -/
def Hub.floorOk (h : Hub) (t v : Nat) : Bool :=
  let old := h.get (Obj.TUN_FLOOR t)
  let sum := if h.tunUsed t then h.floorSum - old + v else h.floorSum
  !(h.get (Obj.TUN_CLASS t) == 5 && Nat.ble v (h.get (Obj.TUN_LINE_CELLS t))) &&
  (Nat.ble v old || (Nat.ble sum 130048 && Nat.ble h.sharedUsed (131072 - 1024 - sum)))

/-- A floor write that has passed the guard (R274). -/
def Hub.floorWrite (h : Hub) (t v : Nat) : Nat × Hub :=
  if h.floorOk t v then (rcOk, h.put (Obj.TUN_FLOOR t) v) else (rcOutOfRange, h)

/-- TUN_FLOOR_WRITE (R274). -/
def execTunFloorWrite (o : Origin) (t : Tunnel) (v : W32) (s : State) : Host.Outcome State Fault Refusal :=
  s.run fun h => h.guarded o (Obj.TUN_FLOOR t) v.toNat fun h => h.floorWrite t v.toNat

/-- GATE_CYCLE_START: the cycle starts, and a list committed at least 5 µs before it applies (R297, R300). -/
def Hub.gateCycle (h : Hub) (p : Port) : Hub :=
  let mine := fun (w : Waiting) => w.key / 256 == 0x4120 + p.val && Nat.ble (us 5) (h.now - w.acc)
  let any := h.waiting.any fun w => w.unit == .gateCycle && mine w
  let h := h.takeUnit .gateCycle mine
  let h := if any then h.event 0x32 (Obj.GATE_ENABLE p) else h
  h.gateNow p

def execGateCycleStart (p : Port) (s : State) : Host.Outcome State Fault Refusal := s.run fun h => h.gateCycle p

/-- GATE_ENTRY_CHANGE: the next entry is in effect (R297). -/
def execGateEntryChange (p : Port) (s : State) : Host.Outcome State Fault Refusal := s.run fun h => h.gateNow p.val

end Sys2Proof.Machine
end

