-- ==== Sys2Proof/Machine/Keys.lean ====
section
/-! DEFINITION. Operations with a Caddy slot (R596, R597) and the keying of links from one (R205, R610, R613). -/

namespace Sys2Proof.Machine

/-- USE bits of `KEY_ATTR` (R596). -/
def useEncrypt : Nat := 3
def useDecrypt : Nat := 4
def useMac : Nat := 5
def useDerive : Nat := 6

/-- A slot of the Caddy. -/
def slotNo (k : Nat) : KeySlot := ⟨k % 64, Nat.mod_lt _ (by decide)⟩

/-- The attributes of a slot. -/
def Hub.keyAttr (h : Hub) (k : Nat) : Nat := h.get (Obj.KEY_ATTR k)

/-- The slot is VALID, not ORPHAN, and holds the USE bit. -/
def Hub.keyOk (h : Hub) (k use : Nat) : Bool :=
  bitOf (h.keyAttr k) 0 && !bitOf (h.keyAttr k) 2 && bitOf (h.keyAttr k) use

/-- The live value of a slot; K0 holds the digest fixed in the part (R598). -/
def Hub.keyLive (h : Hub) (k : Nat) : List Byte := if k % 64 = 0 then Config.firmwareKeyHash else h.caddy.slots[slotNo k].live

/-- An operation with a slot performed or refused, and counted (R597, R618). -/
def Hub.keyUse (h : Hub) (k use : Nat) : Option (List Byte) × Hub :=
  if h.keyOk k use then (some (h.keyLive k), h.bump (Obj.KEY_USES k)) else (none, h.bump (Obj.KEY_REFUSED k))

/-- The context of R205. -/
def linkContext (root leaf rootNonce leafNonce dir : Nat) : List Byte :=
  toBE 8 root ++ toBE 8 leaf ++ toBE 8 rootNonce ++ toBE 8 leafNonce ++ [BitVec.ofNat 8 dir]

/-- An encrypted-class closure of a link: the announcement of R615 is sent in each of three epochs (R210). -/
def Hub.closeLink (h : Hub) (p : Port) : Hub :=
  (h.put (Obj.KEY_STATE p) 2).setLink p fun k => { k with
    closing := 2
    control := k.control ++ [[4, 14, 2, 0, 0, 0, 0, 0] ++ List.replicate 8 0] }

/-- An SC7 tunnel has an end on the trunk port (R625 cause 8). -/
def Hub.sc7On (h : Hub) (p : Nat) : Bool :=
  (List.range 256).any fun t => h.tunUsed t && h.get (Obj.TUN_CLASS t) == 7 && h.hasEnd t p

/-- The link's SC7 is encrypted, so that a closure closes it (R625 cause 9). -/
def Hub.reportClosed (h : Hub) (p : Nat) : Hub := if h.encrypts p 7 then h.report 9 p else h

end Sys2Proof.Machine
end

