-- ==== Sys2Proof/Machine/Remote.lean ====
section
/-! DEFINITION. How the host bridge ends an access (R116 to R118): the error log, the answer to the origin, and the end of a remote
access. -/

namespace Sys2Proof.Machine

/-- Bridge causes (R117). -/
def causeRemoteTimeout : Nat := 0x80
def causeNoRoute : Nat := 0x81
def causeWriteDisabled : Nat := 0x82
def causeNoWindow : Nat := 0x83
def causeRemoteDenied : Nat := 0x84

/-- The origin is the management port, of this hub or of another. -/
def originMp : Origin → Bool
  | .mp => true
  | .remote _ m => m
  | _ => false

/-- The origin is another hub's. -/
def originRemote : Origin → Bool
  | .remote _ _ => true
  | _ => false

/-- An entry of the error log, with its event (R118). ADDR of an access from another hub is the target offset, and of an engine's its own
address (log entry 87). -/
def Hub.errorLog (h : Hub) (o : Origin) (addr cause win : Nat) (write : Bool) (data : Nat) : Hub :=
  let e := h.get Obj.ERRLOG_NEXT
  let info := cause + 256 * win + 4096 * b2n write + 8192 * b2n (originMp o) + 16384 * b2n (originRemote o) + 32768
  let h := (((h.put (Obj.ERRLOG (4 * e)) addr).put (Obj.ERRLOG (4 * e + 1)) info).put (Obj.ERRLOG (4 * e + 2)) data).put
    (Obj.ERRLOG (4 * e + 3)) h.time32
  ((h.put Obj.ERRLOG_NEXT ((e + 1) % 8)).bump Obj.ERRLOG_COUNT).event 0x20 (Obj.ERRLOG (4 * e))

/-- The state of an engine changed. -/
def Hub.engAnswer (h : Hub) (e : Engine) (f : EngSt → EngSt) : Hub := { h with engs := h.engs.set e (f h.engs[e]) }

/-- The read-error mode of a window answers all ones; a local access has none (R106, R117). -/
def onesMode (dec : Option WinDec) : Bool := match dec with
  | some d => bitOf d.flags 3
  | none => false

/-- The window of an error-log entry; 0 for an access that has none (log entry 87). -/
def decWin (dec : Option WinDec) : Nat := match dec with
  | some d => d.win.val
  | none => 0

/-- The answer of an access on the management port, if its master still awaits it: in SPI mode the ready byte, the status and, for a read,
four data bytes; in I2C mode SCL is released and a read returns its status and data (R128, R129). Data that follow a status other than OK
are free (log entry 87). -/
def Hub.mpAnswer (h : Hub) (code : Nat) (data : W32) : Hub :=
  match h.bridge.mp, (if h.bridge.mpBusy = some h.bridge.cur then h.bridge.mpBusy else none) with
  | some t, some _ =>
    let h := { h with bridge := { h.bridge with mpBusy := none } }
    let (bs, h) := if t.write then ([], h) else if code = rcOk then (toLE 4 data.toNat, h) else (toLE 4 (h.free 32), h.used)
    if t.i2c then (if t.write then h.emit (.mpStretch false) else (h.emit (.mpStretch false)).emit (.mpReturn (BitVec.ofNat 8 code :: bs)))
    else h.emit (.mpReturn (0xA5 :: BitVec.ofNat 8 code :: bs))
  | _, _ => h

/-- A read that ends is logged and answered as R117 lays down. An engine takes the result at its next instruction. -/
def Hub.answerRead (h : Hub) (o : Origin) (addr : Nat) (dec : Option WinDec) (code : Nat) (data : W32) : Hub :=
  let h := if code = rcOk ∨ code = rcFrozen then h else h.errorLog o addr code (decWin dec) false 0
  match o with
  | .bar0 =>
    if code = rcOk then h.emit (.pcieCpl 0 data)
    else if code = causeNoWindow then h.emit (.pcieCpl 1 0)
    else if code ≠ rcFrozen ∧ onesMode dec then h.emit (.pcieCpl 0 0xFFFFFFFF)
    else h.emit (.pcieCpl 2 0)
  | .mp => h.mpAnswer code data
  | .se e => h.engAnswer e fun s => { s with stall := s.stall.map fun l => { l with answer := some (code, data) } }
  | _ => h

/-- A write that ends otherwise than OK is logged, and an engine faults for it (R117, R469). -/
def Hub.writeEnd (h : Hub) (o : Origin) (addr : Nat) (dec : Option WinDec) (code : Nat) (data : W32) : Hub :=
  if code = rcOk then h
  else
    let h := h.errorLog o addr code (decWin dec) true data.toNat
    match o with
    | .se e => h.engAnswer e fun s => { s with late := some (code, BitVec.ofNat 32 addr) }
    | _ => h

/-- The window is posted; an access that has none is not (R106, R107). -/
def isPosted (dec : Option WinDec) : Bool := match dec with
  | some d => !bitOf d.flags 0
  | none => false

/-- A write that ends is logged and answered as R117 lays down: on the management port 0 in a posted window, else its result. -/
def Hub.answerWrite (h : Hub) (o : Origin) (addr : Nat) (dec : Option WinDec) (code : Nat) (data : W32) : Hub :=
  let h := h.writeEnd o addr dec code data
  match o with
  | .mp => h.mpAnswer (if isPosted dec then 0 else code) 0
  | _ => h

/-- A word fetched ahead: held while its window's buffer is the one it was fetched for, else discarded with the block's one event
(R119, R121, R122). -/
def Hub.fillPrefetch (h : Hub) (x : RemoteAcc) (serial : Nat) (data : W32) : Hub :=
  match (h.bridge.prefetch[x.dec.win]).filter fun p => p.serial == serial with
  | some p => { h with bridge := { h.bridge with
      prefetch := h.bridge.prefetch.set x.dec.win (some { p with words := p.words ++ [(x.dec.off, data)] }) } }.arm
        (.prefetchIdle x.dec.win) (us 20)
  | none =>
    let h := h.logDiscard x.dec.win.val x.dec.off data
    if x.told then h else (h.fillTold serial).event 0x21 (Obj.DISCARD_LOG 0)

/-- A remote access ends with a result (R112, R116). A write of a posted window has been answered already. -/
def Hub.remoteEnd (h : Hub) (id code : Nat) (data : W32) : Hub :=
  match h.bridge.remote.find? fun x => x.id == id with
  | none => h
  | some x =>
    let h := { h with bridge := { h.bridge with remote := h.bridge.remote.filter fun y => y.id != id, cur := x.num } }
    let h := h.disarm (.remoteAcc id)
    match x.fill with
    | some serial => if code = rcOk then h.fillPrefetch x serial data else h
    | none =>
      if !x.write then h.answerRead x.origin x.addr (some x.dec) code data
      else if x.posted then h.writeEnd x.origin x.addr (some x.dec) code x.data
      else h.answerWrite x.origin x.addr (some x.dec) code x.data

end Sys2Proof.Machine
end

