-- ==== Sys2Proof/Machine/PcieFn.lean ====
section
/-! DEFINITION. The functions of the PCIe switch (R309, R311): what their configuration registers hold, how their bus numbers and windows
route a transaction-layer packet, and the fields of its header. The layouts of registers and headers are those of the PCI Express Base
Specification, which the spec names and does not repeat (log entry 98). -/

namespace Sys2Proof

open Machine

/-! ### The header of a TLP -/

/-- Format and type. -/
def Tlp.fmt (t : Tlp) : Nat := byteAt t.bytes 0 / 32
def Tlp.type (t : Tlp) : Nat := byteAt t.bytes 0 % 32

/-- An I/O request (R309). -/
def Tlp.io (t : Tlp) : Bool := t.type == 2

/-- A memory request. -/
def Tlp.mem (t : Tlp) : Bool := Nat.ble t.type 1

/-- A configuration request: type 0 or 1. -/
def Tlp.cfg (t : Tlp) : Option Nat := if t.type = 4 ∨ t.type = 5 then some (t.type - 4) else none

/-- The kind (R321). -/
def Tlp.kind (t : Tlp) : TlpKind :=
  if t.type = 10 ∨ t.type = 11 then .completion
  else if 16 ≤ t.type ∧ t.type ≤ 23 then .posted
  else if t.type = 0 ∧ 2 ≤ t.fmt then .posted
  else .nonPosted

/-- The digest is there: ECRC. -/
def Tlp.ecrc (t : Tlp) : Bool := bitOf (byteAt t.bytes 2) 7

/-- Traffic class. -/
def Tlp.tc (t : Tlp) : Fin 8 := Fin.ofNat 8 (byteAt t.bytes 1 / 16)

/-- Requester ID and 10-bit tag; a completion repeats those of its request. -/
def Tlp.req (t : Tlp) : W16 := BitVec.ofNat 16 (ofBE (slice t.bytes (if t.kind = .completion then 8 else 4) 2))
def Tlp.tag (t : Tlp) : W16 :=
  let b1 := byteAt t.bytes 1
  BitVec.ofNat 16 (512 * b2n (bitOf b1 7) + 256 * b2n (bitOf b1 3) + byteAt t.bytes (if t.kind = .completion then 10 else 6))

/-- Length in words. -/
def Tlp.words (t : Tlp) : Nat :=
  let n := ofBE (slice t.bytes 2 2) % 1024
  if n = 0 then 1024 else n

/-- The address of a memory request. -/
def Tlp.addr (t : Tlp) : Nat := ofBE (slice t.bytes 8 (if t.fmt % 2 = 1 then 8 else 4)) / 4 * 4

/-- Bytes of the header, and the data behind it. -/
def Tlp.headLen (t : Tlp) : Nat := if t.fmt % 2 = 1 then 16 else 12
def Tlp.data (t : Tlp) : List Byte := slice t.bytes t.headLen (4 * t.words)

/-- The final completion of its request: the bytes it brings are those that were left, or it brings none. -/
def Tlp.final (t : Tlp) : Bool :=
  t.fmt < 2 || Nat.ble (ofBE (slice t.bytes 6 2) % 4096) (4 * t.words - byteAt t.bytes 11 % 4) && ofBE (slice t.bytes 6 2) % 4096 != 0

/-- The status of a completion: 0 SC, 1 UR, else CA. -/
def Tlp.status (t : Tlp) : Nat :=
  let s := byteAt t.bytes 6 / 32
  if s = 0 ∨ s = 1 then s else 2

/-- The ECRC a TLP must carry: the CRC-32 with the fields that may change on the way, bit 0 of the type and EP, taken as 1. -/
def Tlp.ecrcOk (t : Tlp) : Bool :=
  let n := t.bytes.length - 4
  let b := t.bytes.take n
  let b := setByte (setByte b 0 (setBit (byteAt b 0) 0)) 2 (setBit (byteAt b 2) 6)
  t.bytes.drop n == toLE 4 (crc32 b)

/-- A completion without data, from the function of a device of the internal bus. -/
def cplTlp (completer : Nat) (t : Tlp) (status : Nat) : Tlp :=
  ⟨[0x0A, BitVec.ofNat 8 (byteAt t.bytes 1), 0, 0] ++ toBE 2 completer ++ [BitVec.ofNat 8 ((if status = 2 then 4 else status) * 32), 4] ++
    toBE 2 t.req.toNat ++ [BitVec.ofNat 8 (byteAt t.bytes 6), 0]⟩

end Sys2Proof

namespace Sys2Proof.Machine

/-- A change of the PCIe state. -/
def Hub.setPcie (h : Hub) (f : PcieSt → PcieSt) : Hub := { h with pcie := f h.pcie }

/-! ### Configuration registers (R309, R311) -/

/-- Functions: 0 the management function, 1 to 31 the downstream bridges, 32 the upstream bridge. -/
def fnUp : Nat := 32

/-- The functions a register row is for. -/
inductive FnKind where
  | management | bridges | downstream | upstream | all
  deriving DecidableEq, Repr

/-- A register of 32 bits: its value after a reset, the bits that a write sets, and the bits that a write of 1 clears. -/
structure CfgRow where
  who   : FnKind
  reg   : Nat
  value : Nat
  rw    : Nat := 0
  w1c   : Nat := 0
  deriving DecidableEq, Repr

/-- The registers that are not 0: header, power management, MSI and MSI-X, the PCI Express capability with its link and slot registers, AER,
and the access control services. -/
def cfgRows : List CfgRow := [
  ⟨.all, 0x04, 0x00100000, 0x546, 0⟩,                  -- command, status
  ⟨.management, 0x0C, 0, 0xFF, 0⟩, ⟨.bridges, 0x0C, 0x10000, 0xFF, 0⟩,
  ⟨.management, 0x10, 0, 0xFC000000, 0⟩, ⟨.management, 0x18, 0, 0xF0000000, 0⟩,  -- BAR0 and BAR2 (R104)
  ⟨.bridges, 0x18, 0, 0xFFFFFF, 0⟩,                    -- bus numbers
  ⟨.bridges, 0x20, 0, 0xFFF0FFF0, 0⟩,                  -- memory window
  ⟨.bridges, 0x24, 0x00010001, 0xFFF0FFF0, 0⟩,         -- prefetchable window
  ⟨.bridges, 0x28, 0, 0xFFFFFFFF, 0⟩, ⟨.bridges, 0x2C, 0, 0xFFFFFFFF, 0⟩,
  ⟨.all, 0x34, 0x40, 0, 0⟩,
  ⟨.management, 0x3C, 0, 0xFF, 0⟩, ⟨.bridges, 0x3C, 0x100, 0x4700FF, 0⟩,
  ⟨.management, 0x40, 0x00036001, 0, 0⟩, ⟨.bridges, 0x40, 0x00035001, 0, 0⟩,
  ⟨.management, 0x44, 0, 3, 0⟩,                        -- D0 and D3hot
  ⟨.bridges, 0x50, 0x00807005, 0x10000, 0⟩, ⟨.bridges, 0x54, 0, 0xFFFFFFFC, 0⟩, ⟨.bridges, 0x58, 0, 0xFFFFFFFF, 0⟩,
  ⟨.bridges, 0x5C, 0, 0xFFFF, 0⟩,                      -- MSI
  ⟨.management, 0x60, 0x005F7011, 0xC0000000, 0⟩,      -- MSI-X, 96 vectors
  ⟨.management, 0x70, 0x00020010, 0, 0⟩, ⟨.upstream, 0x70, 0x00520010, 0, 0⟩, ⟨.downstream, 0x70, 0x01620010, 0, 0⟩,
  ⟨.management, 0x74, 0x10008022, 0, 0⟩, ⟨.bridges, 0x74, 0x8022, 0, 0⟩,         -- 512-byte payload, extended tags, FLR
  ⟨.all, 0x78, 0x2810, 0x7FFF, 0xF0000⟩,               -- MPS [7:5], MRRS [14:12]
  ⟨.upstream, 0x7C, 0x845, 0, 0⟩, ⟨.downstream, 0x7C, 0x180845, 0, 0⟩,
  ⟨.bridges, 0x80, 0, 0x1D3, 0⟩,
  ⟨.downstream, 0x84, 0x60, 0, 0⟩,                     -- Hot-Plug Capable and Surprise
  ⟨.downstream, 0x88, 0, 0x1028, 0x1080000⟩,           -- slot control and status
  ⟨.all, 0x94, 0x30000, 0, 0⟩, ⟨.all, 0x98, 0, 0x1000, 0⟩,  -- 10-bit tags
  ⟨.management, 0x100, 0x00020001, 0, 0⟩, ⟨.downstream, 0x100, 0x14820001, 0, 0⟩, ⟨.upstream, 0x100, 0x15820001, 0, 0⟩,
  ⟨.all, 0x104, 0, 0, 0x3FFF030⟩, ⟨.all, 0x108, 0, 0x3FFF030, 0⟩, ⟨.all, 0x10C, 0x462030, 0x3FFF030, 0⟩,
  ⟨.all, 0x110, 0, 0, 0xF1C1⟩, ⟨.all, 0x114, 0x2000, 0xF1C1, 0⟩, ⟨.all, 0x118, 0xA0, 0x140, 0⟩,  -- AER, ECRC
  ⟨.downstream, 0x148, 0x0001000D, 0, 0⟩, ⟨.downstream, 0x14C, 0x1F, 0x1F0000, 0⟩,  -- ACS
  ⟨.upstream, 0x158, 0x0001000E, 0, 0⟩]                -- ARI

/-- A row is for a function. -/
def FnKind.covers (k : FnKind) (fn : Nat) : Bool := match k with
  | .management => fn == 0
  | .bridges => fn != 0
  | .downstream => fn != 0 && fn != fnUp
  | .upstream => fn == fnUp
  | .all => true

/-- The row of a register of a function. -/
def cfgRow (fn reg : Nat) : Option CfgRow := cfgRows.find? fun r => r.reg == reg && r.who.covers fn

/-- What a register holds, the bits that follow the link or the slot aside. -/
def Hub.cfg (h : Hub) (fn reg : Nat) : Nat :=
  match h.pcie.cfg.find? fun x => x.1 == 4096 * fn + reg with
  | some x => x.2
  | none => match cfgRow fn reg with
    | some r => r.value
    | none => (Config.pcieId fn reg).toNat * b2n (reg == 0 || reg == 8 || reg == 0x64 || reg == 0x68 || (fn == 0 && reg == 0x2C))

/-- The same, set. -/
def Hub.setCfg (h : Hub) (fn reg v : Nat) : Hub := h.setPcie fun p => { p with cfg := assocSet p.cfg (4096 * fn + reg) (v % 2 ^ 32) }

/-- A reset of every function of the switch (R314). -/
def Hub.cfgReset (h : Hub) : Hub := h.setPcie fun p => { p with cfg := [] }

/-- A function-level reset: the function's own registers (R309). -/
def Hub.flr (h : Hub) (fn : Nat) : Hub := h.setPcie fun p => { p with cfg := p.cfg.filter fun x => x.1 / 4096 != fn }

/-- A register written, in the bytes `be` of its word. -/
def Hub.cfgStore (h : Hub) (fn reg be v : Nat) : Hub :=
  match cfgRow fn reg with
  | none => h
  | some r =>
    let en := (List.range 4).foldl (fun a i => a + (if bitOf be i then 255 * 256 ^ i else 0)) 0
    let old := h.cfg fn reg
    let set := r.rw &&& en
    let v' := ((old &&& (2 ^ 32 - 1 - set)) ||| (v &&& set)) &&& (2 ^ 32 - 1 - (r.w1c &&& en &&& v))
    if v' = old then h else h.setCfg fn reg v'

/-- An error a function has found, by its bit of the uncorrectable status. -/
def Hub.fnError (h : Hub) (fn bit : Nat) : Hub :=
  let h := h.setCfg fn 0x104 (setBit (h.cfg fn 0x104) bit)
  if bit = 20 then h.setCfg fn 0x78 (setBit (h.cfg fn 0x78) 19) else h

/-- The management function is in D0: in D3hot it takes no memory request. -/
def Hub.inD0 (h : Hub) : Bool := h.cfg 0 0x44 % 4 != 3

/-- Max Read Request Size of the management function (R335). -/
def Hub.maxReadRequest (h : Hub) : Nat := min 4096 (128 * 2 ^ field (h.cfg 0 0x78) 14 12)

/-! ### Routing by bus numbers and windows (R318) -/

/-- Secondary bus of a bridge, and the buses at and below it. -/
def Hub.secondary (h : Hub) (fn : Nat) : Nat := h.cfg fn 0x18 / 256 % 256
def Hub.busBelow (h : Hub) (fn bus : Nat) : Bool :=
  h.secondary fn != 0 && Nat.ble (h.secondary fn) bus && Nat.ble bus (h.cfg fn 0x18 / 65536 % 256)

/-- Memory space is enabled at a function. -/
def Hub.memOn (h : Hub) (fn : Nat) : Bool := bitOf (h.cfg fn 4) 1

/-- An address lies in a window of a bridge. -/
def Hub.inWindow (h : Hub) (fn a : Nat) : Bool :=
  let m := h.cfg fn 0x20
  let p := h.cfg fn 0x24
  let base := fun (v up : Nat) => up * 4096 + v % 65536 / 16
  let last := fun (v up : Nat) => up * 4096 + v / 1048576
  let mb := a / 1048576
  h.memOn fn && (Nat.ble (base m 0) mb && Nat.ble mb (last m 0) ||
    Nat.ble (base p (h.cfg fn 0x28)) mb && Nat.ble mb (last p (h.cfg fn 0x2C)))

/-- Where a TLP of the host goes. -/
inductive TlpTo where
  /-- configuration registers of a function -/
  | fn (n : Nat)
  /-- BAR0 or BAR2 of the management function, and the offset -/
  | bar (bar2 : Bool) (off : Nat)
  /-- a downstream port -/
  | dev (d : Nat)
  /-- every downstream port: a message that the root complex broadcasts -/
  | all
  | nowhere
  deriving DecidableEq, Repr

/-- The bridge, of those the switch has, that a test picks. -/
def bridgeBy (has f : Nat → Bool) : TlpTo :=
  match firstBelow (fun i => has (i + 1) && f (i + 1)) 31 with
  | some i => .dev (i + 1)
  | none => .nowhere

/-- Where the bus numbers, BARs and windows send a TLP of the host; `has` tells which bridges there are. BAR0 is always enabled, and BAR2
beside it (R104). -/
def Hub.tlpRoute (h : Hub) (has : Nat → Bool) (t : Tlp) : TlpTo :=
  let a := t.addr
  let byId := fun bus => if h.busBelow fnUp bus then bridgeBy has fun d => h.busBelow d bus else .nowhere
  match t.cfg with
  | some 0 => if byteAt t.bytes 9 = 0 then .fn fnUp else .nowhere
  | some _ =>
    let bus := byteAt t.bytes 8
    let dev := byteAt t.bytes 9 / 8
    if bus = h.secondary fnUp ∧ bus ≠ 0 then
      (if byteAt t.bytes 9 % 8 = 0 ∧ (dev = 0 ∨ has dev) then .fn dev else .nowhere)
    else byId bus
  | none =>
    if t.mem then
      let bar := fun reg size => h.cfg 0 reg / size * size
      if bar 0x10 0x4000000 ≠ 0 ∧ bar 0x10 0x4000000 ≤ a ∧ a < bar 0x10 0x4000000 + 0x4000000 then .bar false (a - bar 0x10 0x4000000)
      else if bar 0x18 0x10000000 ≠ 0 ∧ bar 0x18 0x10000000 ≤ a ∧ a < bar 0x18 0x10000000 + 0x10000000 then
        .bar true (a - bar 0x18 0x10000000)
      else if h.inWindow fnUp a then bridgeBy has fun d => h.inWindow d a
      else .nowhere
    else if t.kind = .completion ∨ t.type = 18 then byId (byteAt t.bytes 8)
    else if t.type = 19 then .all
    else .nowhere

/-- What a request from a downstream port meets: it goes up (none), or ends with UR (1), or with CA for an access control violation (2). A
request to the range of another port goes up only with P2P Request Redirect (R318). Source Validation and Translation Blocking are R309's. -/
def Hub.fromBelow (h : Hub) (has : Nat → Bool) (d : Nat) (t : Tlp) : Option Nat :=
  let acs := h.cfg d 0x14C
  if t.kind = .completion then none
  else if bitOf acs 16 && !h.busBelow d (byteAt t.bytes 4) || bitOf acs 17 && t.mem && field (byteAt t.bytes 2) 3 2 != 0 then some 2
  else if t.cfg.isSome then some 1
  else if t.mem && (List.range 31).any (fun i => i + 1 != d && has (i + 1) && h.inWindow (i + 1) t.addr) && !bitOf acs 18 then some 1
  else none

/-! ### The composite unit (R23, R313) -/

/-- The far end is a cabinet root or has a path to one, as its training frames tell. -/
def FarInfo.rooted (f : FarInfo) : Bool := f.role == 0 || f.path

/-- What the far end of a link has now: a path to a cabinet root outside this link, its depth, and the top of its tree. Its epoch control
cells (R219) replace what its training frames told. Where they tell of no path and training told of one, the far end is taken as the top
of its tree (log entry 79). -/
def Hub.farNow (h : Hub) (p : Port) : Bool × Nat × Nat :=
  let k := h.links[p]
  match k.farOut with
  | some (d, u) => if d ≠ 15 then (true, d, u) else if k.far.rooted then (false, 0, k.far.unit) else (false, k.far.depth, k.far.root)
  | none => (k.far.rooted, k.far.depth, k.far.root)

/-- Uplinks that are up, the one that came up first at the head (R16). -/
def Hub.uplinks (h : Hub) : List Port :=
  let us := (List.finRange 2).filter fun (q : Port) => h.trunkEnd q.val == 2 && h.linkUp q.val
  match us with
  | [a, b] => if (h.links[b]).upAt < (h.links[a]).upAt then [b, a] else [a, b]
  | l => l

/-- This hub heads a composite unit. -/
def Hub.headsUnit (h : Hub) : Bool := h.get Obj.ROLE_ACTIVE == 0 && h.eff Obj.COMPOSITE_ENABLE == 1

/-- The hub belongs to a composite unit: it heads one, or its tree has a cabinet root above it that does (R20, R23, log entry 38). -/
def Hub.inUnit (h : Hub) : Bool :=
  h.headsUnit || h.uplinks.any fun q => (h.farNow q).1 && Config.rootComposite (h.farNow q).2.2

/-- Port `port` is a downstream port of the composite switch (R313). -/
def Hub.composite (h : Hub) (port : Fin 2) : Bool := h.pcie.role[port] == 2 && h.pcie.owner[port] == 1 && h.inUnit

/-- Port `port` is a downstream port of the switch of this hub alone (R313). -/
def Hub.localPort (h : Hub) (port : Fin 2) : Bool := h.pcie.role[port] == 2 && !h.composite port && h.pcie.role[1 - port] == 1

/-- The hub's engines are the root complex of the port (R313). -/
def Hub.engineOwned (h : Hub) (port : Fin 2) : Bool := h.pcie.role[port] == 2 && !h.composite port && h.pcie.role[1 - port] != 1

/-- The state object of device `d`. -/
def slotKey (d : Nat) : Nat := Obj.PCIE_SLOT_STATE (d - 1)

/-- The slot table gives the device a bridge: its entry is past states 0 and 4 (R317, R331). -/
def Hub.slotShown (h : Hub) (d : Nat) : Bool := h.get (slotKey d) != 0 && h.get (slotKey d) != 4

/-- The port of this hub that the local switch places at a device: P0 at 1, P1 at 2, unless the slot table of the unit this hub heads has
an entry there (R315; log entry 98). -/
def Hub.localAt (h : Hub) (d : Nat) : Option (Fin 2) :=
  if h.headsUnit && h.get (Obj.SLOT_UNIT_ID (d - 1)) != 0 then none
  else (List.finRange 2).find? fun p => p.val + 1 == d && h.localPort p

/-- The switch has a bridge at the device. -/
def Hub.hasBridge (h : Hub) (d : Nat) : Bool := d != 0 && ((h.headsUnit && h.slotShown d) || (h.localAt d).isSome)

/-- The port of this hub that the slot table places at a device. -/
def Hub.ownSlot (h : Hub) (d : Nat) : Option (Fin 2) :=
  if h.headsUnit && h.slotShown d && h.get (Obj.SLOT_UNIT_ID (d - 1)) == Config.unitId.toNat then
    (List.finRange 2).find? fun p => h.get (Obj.SLOT_PORT (d - 1)) == p.val && h.composite p
  else none

/-- The device at which the switch of this hub presents its own root port, 0 for none. -/
def Hub.ownDevice (h : Hub) (port : Fin 2) : Nat :=
  ((firstBelow (fun i => h.ownSlot (i + 1) == some port || h.localAt (i + 1) == some port) 31).map (· + 1)).getD 0

/-- The switch device at which a root port of this hub is presented (R311, R313, R339). What a member of a composite unit reads of another
hub's slot table is a free value: the spec states no message that tells it (log entry 2). -/
def Hub.pcieDevice (h : Hub) (p : Fin 2) : Nat × Hub :=
  if h.composite p && !h.headsUnit then (h.free 5, h.used) else (h.ownDevice p, h)

end Sys2Proof.Machine
end

