-- ==== Sys2Proof/Machine/Pcie.lean ====
section
/-! DEFINITION. PCIe ports and storage tunnels (chapter 10): TLP carriage, fences, window credit, non-posted tracking, slot states,
resets and the DMA commands; and the composite member table of chapter 03, which the slot table follows. -/

namespace Sys2Proof.Machine

/-! ### Tracked transactions (R325 to R329) -/

/-- Every entry is taken. -/
def Hub.npFull (h : Hub) : Bool := Nat.ble 256 h.pcie.np.length

/-- An entry taken, with its timeout. -/
def Hub.npTake (h : Hub) (key : NpKey) (tc : Nat) (trunk : Option Nat) (dev : Nat) : Hub :=
  let id := h.pcie.nextNp
  let h := h.setPcie fun p => { p with np := p.np ++ [⟨id, key, tc, trunk, dev⟩], nextNp := id + 1 }
  let h := (h.put Obj.NP_INFLIGHT h.pcie.np.length).peak Obj.NP_PEAK h.pcie.np.length
  h.arm (.npTimeout id) (us (h.get Obj.NP_TIMEOUT))

/-- An entry freed. -/
def Hub.npFree (h : Hub) (id : Nat) : Hub :=
  let h := h.setPcie fun p => { p with np := p.np.filter fun e => e.id != id }
  (h.put Obj.NP_INFLIGHT h.pcie.np.length).disarm (.npTimeout id)

/-- A DMA channel stopped by an error (R337). -/
def Hub.dmaStop (h : Hub) (ch : Fin 64) : Hub :=
  let d := h.dma[ch]
  ((h.setDma ch { fetched := d.fetched, drops := d.drops }).put (Obj.DMA_STATUS ch) 3).event 0x36 (Obj.DMA_STATUS ch)

/-- The bridge's request ends with the status of a tracked entry that ends: its path is lost, or no completion came (R327, R328). The
spec names no cause of R117 for them: NO_ROUTE and REMOTE_TIMEOUT are the model's choice (log entry 87). -/
def Hub.bridgeEnd (h : Hub) (id status : Nat) : Hub :=
  (h.setPcie fun p => { p with gone := id :: p.gone }).remoteEnd id (if status = 1 then causeNoRoute else causeRemoteTimeout) 0

/-- The request of an entry ended by the hub itself with a status: 1 UR, 2 CA. -/
def Hub.npEnd (h : Hub) (e : NpEntry) (status : Nat) : Hub :=
  let h := match e.key with
    | .tlp port req tag =>
      (if e.dev = 0 ∨ status = 1 then h else h.fnError e.dev 15).emit (.cpl port req tag (Fin.ofNat 8 e.tc) status (h.ecrc port))
    | .dma ch _ => h.dmaStop ch
    | .bridge id => h.bridgeEnd id status
  h.npFree e.id

/-- Paths are lost: UR for every entry concerned (R328). -/
def Hub.npLost (h : Hub) (f : NpEntry → Bool) : Hub :=
  (h.pcie.np.filter f).foldl (fun h e => (h.npEnd e 1).bump Obj.CPL_SYNTH_UR) h

/-! ### Slot states (R331, R332) -/

/-- A hot-plug event of a bridge that its slot control lets interrupt the host. -/
def Hub.hotPending (h : Hub) (d : Nat) : Bool :=
  let v := h.cfg d 0x88
  bitOf v 5 && (bitOf v 3 && bitOf v 19 || bitOf v 12 && bitOf v 24)

/-- Slot status or control changes: an event that begins to interrupt is signalled by MSI or INTx, and INTx falls when it ends. -/
def Hub.setSlotReg (h : Hub) (d : Nat) (f : Hub → Hub) : Hub :=
  let was := h.hotPending d
  let h := f h
  let now := h.hotPending d
  if was == now then h
  else if bitOf (h.cfg d 0x50) 16 then
    (if now then h.post (.mem (BitVec.ofNat 64 (h.cfg d 0x58 * 2 ^ 32 + h.cfg d 0x54)) (toLE 4 (h.cfg d 0x5C))) else h)
  else if now && bitOf (h.cfg d 4) 10 then h
  else h.emit (.intx d now)

/-- Presence or link of a downstream port changes: Presence Detect Changed, Data Link Layer State Changed, and their signal (R332). -/
def Hub.hotPlug (h : Hub) (d : Nat) (wasPresent wasUp present up : Bool) : Hub :=
  if wasPresent == present && wasUp == up then h
  else
    let v := h.cfg d 0x88
    let v := if wasPresent == present then v else setBit v 19
    let v := if wasUp == up then v else setBit v 24
    (h.emit (.hotPlug d present up)).setSlotReg d fun h => h.setCfg d 0x88 v

/-- The root port of an entry: the hub it names is a member, or this hub, and the port is a root port with a composite owner. -/
def Hub.rpOf (h : Hub) (d : Nat) : Option (Nat × Nat × Bool) :=
  h.pcie.rps.find? fun r => r.1 == h.get (Obj.SLOT_UNIT_ID (d - 1)) && r.2.1 == h.get (Obj.SLOT_PORT (d - 1))

/-- A slot state set, with the hot-plug signal of R332; where it leaves 3, the path of the requests for the port is lost (R328). -/
def Hub.setSlot (h : Hub) (d s : Nat) : Hub :=
  let old := h.get (slotKey d)
  let pres := fun x => x == 2 || x == 3
  let h := (h.put (slotKey d) s).hotPlug d (pres old) (old == 3) (pres s) (s == 3)
  if old = 3 ∧ s ≠ 3 then h.npLost fun e => e.dev == d else h

/-- The entry follows its root port: absent, present or up. -/
def Hub.slotFollow (h : Hub) (d : Nat) : Hub :=
  let s := h.get (slotKey d)
  if s = 0 ∨ s = 4 then h
  else match h.rpOf d with
    | none => if s = 1 then h else h.setSlot d 1
    | some (_, _, a) => if s = (if a then 3 else 2) then h else h.setSlot d (if a then 3 else 2)

/-- Every entry follows its root port. -/
def Hub.slotsFollow (h : Hub) : Hub := (List.range 31).foldl (fun h i => h.slotFollow (i + 1)) h

/-- An entry committed or written (R317, R331): a pending one stays so until the upstream link-up, whatever it then names. -/
def Hub.slotWritten (h : Hub) (d : Nat) : Hub :=
  let s := h.get (slotKey d)
  if s = 4 then h
  else if h.get (Obj.SLOT_UNIT_ID (d - 1)) = 0 then (if s = 0 then h else h.setSlot d 0)
  else if s ≠ 0 then h.slotFollow d
  else if h.upLinked then (h.setSlot d 4).event 0x34 (slotKey d)
  else (h.setSlot d 1).slotFollow d

/-- A root port's DL state or presence changes, and with it the slot and the tracked requests for it (R328, R331). -/
def Hub.rpChange (h : Hub) (unit port : Nat) (st : Option Bool) : Hub :=
  (h.setPcie fun p =>
    let rest := p.rps.filter fun r => !(r.1 == unit && r.2.1 == port)
    { p with rps := match st with
      | some a => (unit, port, a) :: rest
      | none => rest }).slotsFollow

/-! ### Composite members (R24, R88, R89, R316) -/

/-- The member number of a unit. -/
def Hub.memberOf (h : Hub) (unit : Nat) : Option Nat :=
  if unit = 0 then none else firstBelow (fun m => h.get (Obj.MEMBER_UNIT_ID m) == unit) 32

/-- A joining root port takes the lowest empty slot entry (R316). -/
def Hub.slotAuto (h : Hub) (unit port : Nat) : Hub :=
  let named := (List.range 31).any fun i => h.get (Obj.SLOT_UNIT_ID i) == unit && h.get (Obj.SLOT_PORT i) == port
  if named then h
  else match firstBelow (fun i => h.get (Obj.SLOT_UNIT_ID i) == 0) 31 with
    | some i => if h.flag Obj.SLOT_AUTO then ((h.put (Obj.SLOT_UNIT_ID i) unit).put (Obj.SLOT_PORT i) port).slotWritten (i + 1) else h
    | none => h.event 0x35 Obj.SLOT_AUTO

/-- A root port of a member is known: it takes an entry, and the entries that name it follow. -/
def Hub.rpJoin (h : Hub) (unit port : Nat) : Hub :=
  let known := h.pcie.rps.any fun r => r.1 == unit && r.2.1 == port
  ((if known then h else h.setPcie fun p => { p with rps := (unit, port, false) :: p.rps }).slotAuto unit port).slotsFollow

/-- The slot table at start-up, before any upstream link-up: stored entries are absent until their ports are known, and the root's own root
ports are (R316, R331). -/
def Hub.slotStart (h : Hub) : Hub :=
  if !h.headsUnit then h
  else
    let h := (List.range 31).foldl (fun h i => h.slotWritten (i + 1)) h
    (List.finRange 2).foldl (fun h p => if h.composite p then h.rpJoin Config.unitId.toNat p.val else h) h

/-- A hub joins the composite unit this hub heads (R88, R89). A member reached by two uplinks keeps both its paths, and `MEMBER_PATH` reads
the one it joined by first (R24; log entry 79). MEMBER_TABLE_FULL names the first object of the table (R68). -/
def Hub.join (h : Hub) (j : JoinIn) : Hub :=
  let u := j.unit.toNat
  if !h.headsUnit then h
  else
    let free := fun m => 0 < m && h.get (Obj.MEMBER_UNIT_ID m) == 0
    let was := (h.pcie.former.find? fun f => f.1 == u).map (·.2)
    let pick := match h.memberOf u, was with
      | some m, _ => some m
      | none, some m => if free m then some m else firstBelow free 32
      | none, none => firstBelow free 32
    match pick with
    | none => h.event 0x05 Obj.MEMBER_TABLE
    | some m =>
      let h := if h.get (Obj.MEMBER_UNIT_ID m) = u then h else (h.put (Obj.MEMBER_UNIT_ID m) u).put (Obj.MEMBER_PATH m) j.path.toNat
      let h := h.setPcie fun p => { p with
        former := p.former.filter fun f => f.1 != u, paths := (p.paths.filter fun x => x != (u, j.path.toNat)) ++ [(u, j.path.toNat)] }
      (List.range 2).foldl (fun h k => if j.rps.getLsbD k then h.rpJoin u k else h) h

/-- A hub leaves the composite unit: surprise removal (R24, R89). -/
def Hub.leave (h : Hub) (unit : Nat) : Hub :=
  match h.memberOf unit with
  | none => h
  | some m =>
    if m = 0 then h
    else
      let path := h.get (Obj.MEMBER_PATH m)
      let h := (h.put (Obj.MEMBER_UNIT_ID m) 0).put (Obj.MEMBER_PATH m) 0
      let h := h.npLost fun e => match e.key with
        | .bridge id => h.bridge.remote.any fun x => x.id == id && x.path.toNat == path
        | _ => false
      let h := h.setPcie fun p => { p with
        former := (unit, m) :: p.former.filter fun f => f.1 != unit, paths := p.paths.filter fun x => x.1 != unit }
      (h.rpChange unit 0 none).rpChange unit 1 none

/-- Every member reached by a trunk port alone leaves; one that keeps another uplink is reached by that (R24). A path's first byte names the
port (R86). -/
def Hub.leaveBy (h : Hub) (p : Nat) : Hub :=
  let by_ := fun path => path / 2 ^ 56 == p + 1
  let h := h.setPcie fun s => { s with paths := s.paths.filter fun x => !by_ x.2 }
  (List.range 32).foldl (fun h m =>
    let u := h.get (Obj.MEMBER_UNIT_ID m)
    if m != 0 && u != 0 && by_ (h.get (Obj.MEMBER_PATH m)) then
      match h.pcie.paths.find? fun x => x.1 == u with
      | some x => h.put (Obj.MEMBER_PATH m) x.2
      | none => h.leave u
    else h) h

/-! ### TLP tunnels (R319 to R323) -/

/-- The counts of an end of a TLP tunnel. -/
def Hub.tlpTun (h : Hub) (t : Nat) (port : Fin 2) : TlpTun :=
  (h.pcie.tuns.find? fun x => x.tun == t && x.port == port.val).getD { tun := t, port := port.val }

/-- The same, set. -/
def Hub.setTlpTun (h : Hub) (x : TlpTun) : Hub :=
  h.setPcie fun p => { p with tuns := x :: p.tuns.filter fun y => !(y.tun == x.tun && y.port == x.port) }

/-- A tunnel carries TLPs at a PCIe port of this hub (R319). -/
def Hub.tlpEnd (h : Hub) (t : Nat) (port : Fin 2) : Bool := h.tunUsed t && h.hasEnd t (2 + port.val) && !bitOf (h.get (Obj.TUN_LOCAL t)) 15

/-- The PCIe ports of this hub at which a tunnel carries TLPs. -/
def Hub.tlpEnds (h : Hub) (t : Nat) : List (Fin 2) := (List.finRange 2).filter (h.tlpEnd t)

/-- The TLP tunnel of a device at a port: non-posted or posted-and-completion (R319). One with ends at both ports names the device of the
upstream one. -/
def Hub.findTlpTun (h : Hub) (port : Fin 2) (dev : Nat) (np : Bool) : Option Nat :=
  firstBelow (fun t => h.tlpEnd t port &&
    (let l := h.get (Obj.TUN_LOCAL t)
     bitOf l 8 == np && (l % 32 == dev || (h.pcie.role[port] == 2 && h.tlpEnd t (1 - port))))) 256

/-- The other tunnel of a pair, at the same port. -/
def Hub.pairOf (h : Hub) (t : Nat) (port : Fin 2) : Option Nat :=
  let l := h.get (Obj.TUN_LOCAL t)
  firstBelow (fun u => u != t && h.tlpEnd u port && (let m := h.get (Obj.TUN_LOCAL u)
    m % 32 == l % 32 && bitOf m 8 != bitOf l 8)) 256

/-- Some trunk the tunnel leaves by encrypts its class (R320). -/
def Hub.tunEncrypted (h : Hub) (t : Nat) : Bool :=
  (List.range 2).any fun p => h.hasEnd t p && h.encrypts p (h.get (Obj.TUN_CLASS t))

/-- Pieces of a list, the first of `a` bytes and the others of `b`. -/
def pieces (a b : Nat) : Nat → List Byte → List (List Byte)
  | 0, _ => []
  | f + 1, bs => bs.take a :: (if Nat.ble bs.length a then [] else pieces b b f (bs.drop a))

/-- The cells of a TLP after its prefix. -/
def tlpCells (enc : Bool) (bs : List Byte) : List (List Byte) :=
  if enc then pieces 104 112 60 bs else pieces 120 128 60 bs

/-- The carriage prefix (R320): count or fence, freed count, type, reset code. -/
def prefix8 (count freed type code : Nat) : List Byte :=
  toBE 2 count ++ toBE 2 freed ++ [BitVec.ofNat 8 type, BitVec.ofNat 8 code, 0, 0]

/-- Cells of a window granted by the far end: half the tunnel's floor (R322). -/
def Hub.creditWindow (h : Hub) (t : Nat) : Nat := h.get (Obj.TUN_FLOOR t) / 2

/-- Cells that may be sent now. -/
def Hub.available (h : Hub) (t : Nat) (port : Fin 2) : Nat :=
  let x := h.tlpTun t port
  h.creditWindow t - (x.cells + 65536 - x.freedIn) % 65536

/-- A cell of a TLP tunnel presented at its port. -/
def Hub.tlpCell (h : Hub) (port : Fin 2) (t : Nat) (first last : Bool) (body : List Byte) : Hub :=
  h.present ⟨2 + port.val, h.get (Obj.TUN_LOCAL t), mkHdr (h.get (Obj.TUN_CLASS t)) first last false body.length, body, false, false⟩

/-- The fence of a request: the count of the last TLP before it in the pair's other tunnel, those that wait for credit among them (R321). -/
def Hub.fenceOf (h : Hub) (port : Fin 2) (t : Nat) : Nat := match h.pairOf t port with
  | some u => ((h.tlpTun u port).sent + (h.tlpTun u port).wait.length) % 65536
  | none => 0

/-- A TLP put into the cells of its tunnel at a port (R320, R321). -/
def Hub.tlpSend (h : Hub) (port : Fin 2) (t fence : Nat) (tlp : Tlp) : Hub :=
  let np := bitOf (h.get (Obj.TUN_LOCAL t)) 8
  let x := h.tlpTun t port
  let cells := tlpCells (h.tunEncrypted t) tlp.bytes
  let count := (x.sent + 1) % 65536
  let pre := prefix8 (if np then fence else count) x.freedOut (4 * b2n tlp.ecrc) 0
  let h := h.setTlpTun { x with sent := count, cells := (x.cells + cells.length) % 65536, told := x.freedOut }
  let n := cells.length
  (cells.zipIdx).foldl (fun h (c, i) => h.tlpCell port t (i == 0) (i + 1 == n) (if i = 0 then pre ++ c else c)) h

/-- A TLP sent, or held for window credit behind those that wait (R322). -/
def Hub.tlpTry (h : Hub) (port : Fin 2) (t : Nat) (tlp : Tlp) : Hub :=
  let x := h.tlpTun t port
  let fence := h.fenceOf port t
  if x.wait.isEmpty && Nat.ble (tlpCells (h.tunEncrypted t) tlp.bytes).length (h.available t port) then h.tlpSend port t fence tlp
  else (h.setTlpTun { x with wait := x.wait ++ [(fence, tlp)] }).bump (Obj.CREDIT_STALLS port)

/-- TLPs that window credit now covers (R322). -/
def Hub.tlpRelease (h : Hub) (port : Fin 2) (t : Nat) : Nat → Hub
  | 0 => h
  | f + 1 => match (h.tlpTun t port).wait with
    | [] => h
    | (fence, tlp) :: rest =>
      if Nat.ble (tlpCells (h.tunEncrypted t) tlp.bytes).length (h.available t port) then
        ((h.setTlpTun { h.tlpTun t port with wait := rest }).tlpSend port t fence tlp).tlpRelease port t f
      else h

/-- A freed count received (R322). -/
def Hub.freedIn (h : Hub) (port : Fin 2) (t v : Nat) : Hub :=
  let x := h.tlpTun t port
  (h.setTlpTun { x with freedIn := v }).tlpRelease port t x.wait.length

/-! ### Ends of a request at this hub (R309, R318) -/

/-- A request answered at a port of this hub with a status: 1 UR, which is counted, or 2 CA. What needs no completion is dropped. -/
def Hub.answerHere (h : Hub) (port : Fin 2) (tlp : Tlp) (status : Nat) : Hub :=
  match tlp.kind with
  | .nonPosted => (if status = 1 then h.bump (Obj.UR_SENT port) else h).emit (.cpl port tlp.req tlp.tag tlp.tc status (h.ecrc port))
  | _ => h

/-- An unsupported request answered at this hub (R318, R309). -/
def Hub.urHere (h : Hub) (port : Fin 2) (tlp : Tlp) : Hub := h.answerHere port tlp 1

/-- The trunk port a tunnel leaves by. -/
def Hub.tunTrunk (h : Hub) (t : Nat) : Option Nat := firstBelow (fun p => h.hasEnd t p) 2

/-- A TLP for a tunnel at a port: none is unsupported. -/
def Hub.tlpTunnel (h : Hub) (port : Fin 2) (dev : Nat) (tlp : Tlp) (enter : Hub → Nat → Hub) : Hub :=
  match h.findTlpTun port dev (tlp.kind == .nonPosted) with
  | none => h.urHere port tlp
  | some t => enter h t

/-- A non-posted TLP takes its entry and enters the tunnel (R325). -/
def Hub.npEnter (h : Hub) (port : Fin 2) (dev : Nat) (tlp : Tlp) : Hub :=
  h.tlpTunnel port dev tlp fun h t =>
    (h.npTake (.tlp port tlp.req tlp.tag) tlp.tc.val (h.tunTrunk t) (if h.pcie.role[port] = 1 then dev else 0)).tlpTry port t tlp

/-- A TLP that enters a tunnel from a PCIe port (R321, R325, R326). -/
def Hub.tlpEnter (h : Hub) (port : Fin 2) (dev : Nat) (tlp : Tlp) : Hub :=
  if tlp.kind ≠ .nonPosted then h.tlpTunnel port dev tlp fun h t => h.tlpTry port t tlp
  else if (h.findTlpTun port dev true).isSome ∧ (h.npFull ∨ !h.pcie.npHold.isEmpty) then
    (h.setPcie fun p => { p with npHold := p.npHold ++ [(port, dev, tlp)] }).bump Obj.NP_FULL
  else h.npEnter port dev tlp

/-- The port has an active data link: recovery and L1 keep it. -/
def Hub.dlActive (h : Hub) (port : Fin 2) : Bool := let l := h.get (Obj.PCIE_LINK port); Nat.ble 3 l && Nat.ble l 5

/-- The bus below a root port: that of its bridge where this hub holds it (R318). -/
def Hub.busOf (h : Hub) (port : Fin 2) : Nat := if h.ownDevice port = 0 then Config.secondaryBus port.val else h.secondary (h.ownDevice port)

/-- A TLP issued at a port; a Type 1 configuration request for the bus below a root port becomes Type 0 (R318). -/
def Hub.tlpIssue (h : Hub) (port : Fin 2) (bytes : List Byte) : Hub :=
  let b0 := byteAt bytes 0
  let toZero := h.pcie.role[port] == 2 && b0 % 32 == 5 && byteAt bytes 8 == h.busOf port
  (h.bump (Obj.TLP_TX port)).emit (.tlp port (if toZero then setByte bytes 0 (b0 - 1) else bytes))

/-- A TLP of the host for a downstream port (R318): a local port takes it directly (R319), another by its tunnels. -/
def Hub.toDevice (h : Hub) (port : Fin 2) (d : Nat) (tlp : Tlp) : Hub :=
  match h.localAt d with
  | some p => if h.dlActive p then h.tlpIssue p tlp.bytes else h.urHere port tlp
  | none => if h.get (slotKey d) = 3 then h.tlpEnter port d tlp else h.urHere port tlp

/-- A request from below refused by the switch is answered where it came from: at a local port, or through the tunnels of its device. -/
def Hub.refuseBelow (h : Hub) (up : Fin 2) (d : Nat) (tlp : Tlp) (status : Nat) : Hub :=
  let h := h.fnError d (if status = 2 then 21 else 20)
  match h.localAt d, h.findTlpTun up d false with
  | some p, _ => h.answerHere p tlp status
  | none, some t =>
    if tlp.kind ≠ .nonPosted then h
    else (if status = 1 then h.bump (Obj.UR_SENT up) else h).tlpTry up t (cplTlp (256 * h.secondary fnUp + 8 * d) tlp status)
  | none, none => h

/-- A TLP from below goes up by the upstream port, unless the switch refuses it. -/
def Hub.goUp (h : Hub) (up : Fin 2) (d : Nat) (tlp : Tlp) : Hub :=
  match h.fromBelow h.hasBridge d tlp with
  | some status => h.refuseBelow up d tlp status
  | none => h.tlpIssue up tlp.bytes

/-- Cells of the opposite direction passed out of the tunnel. -/
def Hub.passedOut (h : Hub) (port : Fin 2) (t n : Nat) : Hub :=
  let x := h.tlpTun t port
  h.setTlpTun { x with freedOut := (x.freedOut + n) % 65536 }

/-- A non-posted request with this fence may proceed: the TLP the fence names has entered the transmit queue (R321). -/
def fencePassed (entered fence : Nat) : Bool := Nat.ble ((entered + 65536 - fence) % 65536) 32767

/-- A credit-only cell that tells the freed count (R322). -/
def Hub.creditSend (h : Hub) (t : Nat) (port : Fin 2) : Hub :=
  let x := h.tlpTun t port
  if x.freedOut = x.told then h
  else (h.setTlpTun { x with told := x.freedOut }).tlpCell port t true true (prefix8 0 x.freedOut 1 0)

/-- The amount not told reaches a quarter of the window this end grants: it is told at once (R322). -/
def Hub.creditQuarter (h : Hub) (t : Nat) (port : Fin 2) : Hub :=
  let x := h.tlpTun t port
  if Nat.ble (h.creditWindow t) (4 * ((x.freedOut + 65536 - x.told) % 65536)) then h.creditSend t port else h

/-- Count of the last TLP of the pair's posted-and-completion tunnel that has entered the transmit queue. -/
def Hub.enteredOf (h : Hub) (t : Nat) (port : Fin 2) : Nat := match h.pairOf t port with
  | some u => (h.tlpTun u port).entered
  | none => 0

/-- The carriage type of a cell: 0 TLP, 1 credit only, 2 reset message (R320). -/
def carriageType (body : List Byte) : Nat := byteAt body 4 % 4

/-- The oldest cell of a tunnel that waits at a PCIe port. -/
def Hub.tlpHead (h : Hub) (port : Fin 2) (t : Nat) : Option InCell := h.core.inbox.find? fun c => c.egress == 2 + port.val && c.tun == t

/-- The oldest TLP of a tunnel that waits at its egress port, whole (R320). -/
def Hub.tlpWaiting (h : Hub) (port : Fin 2) (t : Nat) : Option (List (List Byte) × Hub) :=
  match h.tlpHead port t with
  | some c =>
    if carriageType c.body = 0 then
      (h.messageTake (2 + port.val) t).map fun x => (x.1.map InCell.bytes, x.2)
    else none
  | none => none

/-- The oldest message cell of a carriage type of a tunnel that waits at its egress port. -/
def Hub.tlpMessage (h : Hub) (port : Fin 2) (t type : Nat) : Option (List Byte × Hub) :=
  match h.tlpHead port t with
  | some c => if carriageType c.body = type then some (c.body, h.setCore fun s => { s with inbox := s.inbox.erase c }) else none
  | none => none

/-! ### Resets (R314) -/

/-- A reset message to a remote downstream port, in its non-posted tunnel. -/
def Hub.resetMsg (h : Hub) (port : Fin 2) (dev code : Nat) : Hub :=
  match h.findTlpTun port dev true with
  | none => h
  | some t => h.tlpCell port t true true (prefix8 0 (h.tlpTun t port).freedOut 2 code)

/-- `Pn_CKO` of a root port has been stable for 100 µs (R312). -/
def Hub.ckoStable (h : Hub) (port : Fin 2) : Bool :=
  match h.pcie.cko[port] with
  | some t => Nat.ble (t + us 100) h.now
  | none => false

/-- A root port's data link becomes active or inactive: its slot entry follows, or its bridge in the local switch (R331, R332). -/
def Hub.dlFollow (h : Hub) (port : Fin 2) (was up : Bool) : Hub :=
  if was == up then h
  else
    let h := if h.pcie.rps.any (fun r => r.1 == Config.unitId.toNat && r.2.1 == port.val) then
        h.rpChange Config.unitId.toNat port.val (some up)
      else h
    if h.localPort port && h.ownDevice port != 0 then h.hotPlug (h.ownDevice port) was was up up else h

/-- A link is down: neither speed nor width. -/
def Hub.pcieDown (h : Hub) (port : Fin 2) (link : Nat) : Hub :=
  (((h.put (Obj.PCIE_LINK port) link).put (Obj.PCIE_SPEED port) 0).put (Obj.PCIE_WIDTH port) 0).dlFollow port (h.dlActive port) false

/-- A reset applied or released at a root port of this hub. `Pn_PERSTn` is released no sooner than 100 µs after `Pn_CKO` is stable: until
then it stays asserted, with code 5 (R312). -/
def Hub.rootReset (h : Hub) (port : Fin 2) (code : Nat) : Hub :=
  if code = 4 ∧ !h.ckoStable port then h.setPcie fun p => { p with reset := p.reset.set port 5 }
  else
    let h := (h.setPcie fun p => { p with reset := p.reset.set port (if code = 1 ∨ code = 3 then code else 0) }).emit (.pcieReset port code)
    h.pcieDown port (if code = 1 then 7 else if code = 3 then 0 else 1)

/-- The reference clock of a root port, 100 MHz from the transmit clock while PCIE is on, and the release that waits for it (R312). -/
def Hub.ckoFollow (h : Hub) (port : Fin 2) : Hub :=
  let run := h.pcie.role[port] == 2 && h.domOn 18 && bitOf (h.get Obj.PLL_LOCK) 5
  let h : Hub := match run, h.pcie.cko[port] with
    | true, none => (h.setPcie fun p => { p with cko := p.cko.set port (some h.now) }).emit (.pcieClock port true)
    | false, some _ =>
      (h.setPcie fun p => { p with cko := p.cko.set port none, reset := p.reset.set port 5 }).emit (.pcieClock port false)
    | _, _ => h
  if h.pcie.role[port] = 2 ∧ h.pcie.reset[port] = 5 ∧ h.ckoStable port then h.rootReset port 4 else h

/-- The port of this hub at a device of its switch. -/
def Hub.portAt (h : Hub) (d : Nat) : Option (Fin 2) := (h.localAt d).or (h.ownSlot d)

/-- A downstream port is presented with a port below it. -/
def Hub.devPresent (h : Hub) (d : Nat) : Bool :=
  (h.localAt d).isSome || (h.headsUnit && (h.get (slotKey d) == 2 || h.get (slotKey d) == 3))

/-- A reset applied or released at a downstream port: at this hub, or by a message (R314). -/
def Hub.devReset (h : Hub) (up : Fin 2) (d code : Nat) : Hub :=
  match h.portAt d with
  | some p => h.rootReset p code
  | none => h.resetMsg up d code

/-- The same at every presented downstream port (R314). -/
def Hub.downReset (h : Hub) (up : Fin 2) (code : Nat) : Hub :=
  (List.range 31).foldl (fun h i => if h.devPresent (i + 1) then h.devReset up (i + 1) code else h) h

/-- A reset or link down of the upstream port resets the switch's functions (R314); what waits in its outbound buffer is lost (log entry
89). -/
def Hub.upstreamReset (h : Hub) (port : Fin 2) (fundamental : Bool) : Hub :=
  if h.pcie.role[port] ≠ 1 then h
  else
    let code := if fundamental then 3 else 1
    let h := { h with bridge := { h.bridge with postedOut := [] } }
    let h := (h.setPcie fun p => { p with upReset := true, given := code }).pcieDown port (if fundamental then 0 else 7)
    (h.downReset port code).cfgReset

/-- A link has trained: the values written since the last training are in effect, and speed and width are what both ends have, within them
(R309, R339). -/
def Hub.pcieTrained (h : Hub) (port : Fin 2) (speed width : Nat) : Hub :=
  let h := h.takeUnit .pcieTrain fun w => w.key / 256 == 0x5010 + port.val
  ((h.put (Obj.PCIE_LINK port) 3).put (Obj.PCIE_SPEED port) (min speed (h.get (Obj.PCIE_MAX_SPEED port)))).put (Obj.PCIE_WIDTH port)
    (min width (h.get (Obj.PCIE_MAX_WIDTH port)))

/-- The upstream link comes up: entries that waited are presented (R317, R331), and the resets that its reset or link down gave the
downstream ports are released (log entry 85). -/
def Hub.upstreamUp (h : Hub) (port : Fin 2) (speed width : Nat) : Hub :=
  if h.pcie.role[port] ≠ 1 then h
  else
    let h := (h.pcieTrained port speed width).emit (.pcieRef port (h.get Obj.ROLE_ACTIVE != 0))
    let h := if h.pcie.upReset then
        (List.range 31).foldl (fun h i => if h.get (slotKey (i + 1)) = 4 then (h.setSlot (i + 1) 1).slotFollow (i + 1) else h) h
      else h
    let h := if h.pcie.given = 0 then h else h.downReset port (h.pcie.given + 1)
    (h.setPcie fun p => { p with upReset := false, given := 0 }).postGo

/-! ### Configuration requests for the hub's functions (R309, R311) -/

/-- What a configuration read finds: link and slot status follow the port (R332). -/
def Hub.cfgRead (h : Hub) (fn reg : Nat) : Nat :=
  let v := h.cfg fn reg
  let port := if fn = fnUp then h.upPort.map (Fin.ofNat 2) else if fn = 0 then none else h.portAt fn
  if reg = 0x80 ∧ fn ≠ 0 then
    let v := match port with
      | some p => putField (putField v 19 16 (h.get (Obj.PCIE_SPEED p))) 25 20 (2 ^ h.get (Obj.PCIE_WIDTH p) / 2)
      | none => v
    putBit v 29 (fn != fnUp && (h.get (slotKey fn) == 3 || (h.localAt fn).any h.dlActive))
  else if reg = 0x88 ∧ fn ≠ 0 ∧ fn ≠ fnUp then putBit v 22 (if (h.localAt fn).isSome then (h.localAt fn).any h.dlActive else h.devPresent fn)
  else v

/-- What a configuration write does beside setting its bits: function-level reset, the secondary bus reset of a bridge, and the disabling
and retraining of a link. -/
def Hub.cfgEffect (h : Hub) (up : Fin 2) (fn reg old v : Nat) : Hub :=
  if reg = 0x78 ∧ fn = 0 ∧ bitOf v 15 then h.flr 0
  else if reg = 0x3C ∧ fn ≠ 0 ∧ bitOf old 22 ≠ bitOf (h.cfg fn reg) 22 then
    let code := if bitOf old 22 then 2 else 1
    if fn ≠ fnUp then h.devReset up fn code
    else (if code = 1 then h.setPcie fun p => { p with cfg := p.cfg.filter fun x => x.1 / 4096 == fnUp } else h).downReset up code
  else if reg = 0x80 ∧ fn ≠ 0 ∧ fn ≠ fnUp then
    match h.portAt fn with
    | none => h
    | some p =>
      if bitOf old 4 ≠ bitOf (h.cfg fn reg) 4 then h.pcieDown p (if bitOf old 4 then 1 else 6)
      else if bitOf v 5 ∧ h.dlActive p then h.put (Obj.PCIE_LINK p) 4
      else h
  else h

/-- A configuration register written, in the bytes `be`. The management function has no D1 and no D2. -/
def Hub.cfgWrite (h : Hub) (up : Fin 2) (fn reg be v : Nat) : Hub :=
  if reg = 0x44 ∧ (v % 4 = 1 ∨ v % 4 = 2) then h
  else if reg = 0x88 ∧ fn ≠ 0 ∧ fn ≠ fnUp then h.setSlotReg fn fun h => h.cfgStore fn reg be v
  else (h.cfgStore fn reg be v).cfgEffect up fn reg (h.cfg fn reg) v

/-- A configuration request for a function of the hub. One whose ECRC fails is dropped where the function checks it (R309, log entry 98). -/
def Hub.fnRequest (h : Hub) (port : Fin 2) (fn : Nat) (tlp : Tlp) : Hub :=
  let reg := byteAt tlp.bytes 10 % 16 * 256 + byteAt tlp.bytes 11 / 4 * 4
  if tlp.ecrc && bitOf (h.cfg fn 0x118) 8 && !tlp.ecrcOk then h.fnError fn 19
  else if 2 ≤ tlp.fmt then
    (h.cfgWrite port fn reg (byteAt tlp.bytes 7 % 16) (ofLE (tlp.data.take 4))).emit (.cpl port tlp.req tlp.tag tlp.tc 0 (h.ecrc port))
  else h.emit (.cplData port tlp.req tlp.tag tlp.tc (BitVec.ofNat 32 (h.cfgRead fn reg)) (h.ecrc port))

/-- A TLP received at a port, past the BARs of the management function (R313, R318). One that the host sends nowhere is unsupported. -/
def Hub.tlpIngress (h : Hub) (port : Fin 2) (tlp : Tlp) : Hub :=
  if tlp.io then h.urHere port tlp
  else if h.pcie.role[port] = 1 then
    match h.tlpRoute h.hasBridge tlp with
    | .fn n => h.fnRequest port n tlp
    | .bar _ _ => h
    | .dev d => h.toDevice port d tlp
    | .all => (List.range 31).foldl (fun h i => if h.devPresent (i + 1) then h.toDevice port (i + 1) tlp else h) h
    | .nowhere => (h.fnError fnUp 20).urHere port tlp
  else if h.composite port then h.tlpEnter port 0 tlp
  else if h.localPort port && h.ownDevice port != 0 then h.goUp (1 - port) (h.ownDevice port) tlp
  else h.urHere port tlp

/-! ### Commit checks (R319, R338) -/

/-- PCIe conditions of a tunnel group (R319). -/
def Hub.tunPcieOk (h : Hub) (g : Staged) : Bool :=
  let t := tunOf g.leader
  let v := h.newVal g
  let at_ := fun k => v (Obj.TUN_END_A t) == k || bitOf (v (Obj.TUN_END_B t)) k
  let l := v (Obj.TUN_LOCAL t)
  let c := v (Obj.TUN_CLASS t)
  if v (Obj.TUN_END_A t) = 0xFF ∨ !(at_ 2 || at_ 3) then true
  else if bitOf l 15 then
    (!at_ 2 || h.pcie.role[0] == 1) && (!at_ 3 || h.pcie.role[1] == 1) &&
    !(List.range 256).any fun u => u != t && h.tunUsed u && (h.hasEnd u 2 || h.hasEnd u 3) &&
      bitOf (h.get (Obj.TUN_LOCAL u)) 15 && h.get (Obj.TUN_LOCAL u) % 64 == l % 64
  else if bitOf l 8 then c == 3 else c == 2 || c == 3

/-- The tunnel a DMA channel serves. -/
def Hub.dmaTun (h : Hub) (ch : Nat) : Option Nat :=
  firstBelow (fun t => h.tunUsed t && (h.hasEnd t 2 || h.hasEnd t 3) && bitOf (h.get (Obj.TUN_LOCAL t)) 15 &&
    h.get (Obj.TUN_LOCAL t) % 64 == ch) 256

/-- A DMA channel group would be legal (R338). -/
def Hub.dmaOk (h : Hub) (g : Staged) : Bool :=
  let ch := g.leader / 256 - 0x5030
  h.newVal g (Obj.DMA_RING ch) % 16 == 0 && Nat.ble (h.newVal g (Obj.DMA_OWNER ch)) 11 &&
  !(h.newVal g (Obj.DMA_ENABLE ch) == 1 && (h.dmaTun ch).isNone)

/-- The PCIe port of a DMA tunnel at this hub. -/
def Hub.dmaPort (h : Hub) (t : Nat) : Nat := if h.hasEnd t 3 then 1 else 0

/-- A channel group committed: disabling closes the open buffer; a stopped channel runs again, from the descriptor after the last one
written back (R337, R338). -/
def Hub.dmaCommitted (h : Hub) (ch : Fin 64) (enable : Bool) : Hub :=
  let idle := fun (h : Hub) => h.setDma ch { fetched := h.get (Obj.DMA_HEAD ch), drops := (h.dma[ch]).drops }
  if enable then
    if h.get (Obj.DMA_STATUS ch) = 3 then (idle h).put (Obj.DMA_STATUS ch) 2 else h
  else (idle (h.dmaClose ch false true)).put (Obj.DMA_STATUS ch) 0

/-! ### DMA reads (R335, R336) -/

/-- A read of the kind is still tracked for the channel. -/
def Hub.dmaTracked (h : Hub) (ch : Fin 64) (desc : Bool) : Bool := h.pcie.np.any fun e => e.key == .dma ch desc

/-- The next read of an open buffer of a channel that moves data from host memory: at most Max Read Request Size, within 4 KiB. -/
def Hub.dmaRead (h : Hub) (ch : Fin 64) : Hub :=
  let d := h.dma[ch]
  match d.buf with
  | some (a, n, done) =>
    if h.get (Obj.DMA_DIR ch) = 1 ∧ !d.asked ∧ done < n ∧ !h.dmaTracked ch false then
      if h.npFull then (if d.held then h else (h.setDma ch { d with held := true }).bump Obj.NP_FULL)
      else ((h.npTake (.dma ch false) 0 none 0).setDma ch { d with asked := true, held := false }).emit
        (.hostRead ch false (BitVec.ofNat 64 (a + done)) (min (min (n - done) h.maxReadRequest) (4096 - (a + done) % 4096)) h.upEcrc)
    else h
  | none => h

/-- Descriptors in the bytes read: address and length, 16 bytes each (R333). -/
def descsOf : Nat → List Byte → List (Nat × Nat)
  | 0, _ => []
  | n + 1, bs => if bs.length < 16 then [] else (ofLE (bs.take 8), ofLE (slice bs 8 4)) :: descsOf n (bs.drop 16)

/-- Up to eight descriptors asked for, as many as lie before the end of the ring and of their 4 KiB (R336); the channel group takes effect
(R339). The read takes a tracked entry, or is held until one is free (R325, R326). -/
def Hub.dmaFetch (h : Hub) (ch : Fin 64) : Hub :=
  let h := h.takeUnit .dmaFetch fun w => w.key / 256 == 0x5030 + ch.val
  let h := h.dmaStatus ch
  let d := h.dma[ch]
  let size := 2 ^ h.get (Obj.DMA_RING_LOG2 ch)
  let addr := h.dmaRing ch + 16 * (d.fetched % size)
  let n := min (min 8 ((h.get (Obj.DMA_TAIL ch) + 2 ^ 32 - d.fetched) % 2 ^ 32)) (min (size - d.fetched % size) ((4096 - addr % 4096) / 16))
  if h.get (Obj.DMA_ENABLE ch) = 0 ∨ h.get (Obj.DMA_STATUS ch) = 3 ∨ n = 0 ∨ h.dmaTracked ch true then h
  else if h.npFull then (if d.fetchHeld then h else (h.setDma ch { d with fetchHeld := true }).bump Obj.NP_FULL)
  else ((h.npTake (.dma ch true) 0 none 0).setDma ch { d with fetching := some [], fetchHeld := false }).emit
    (.hostRead ch true (BitVec.ofNat 64 addr) (16 * n) h.upEcrc)

/-- Descriptor data arrives; the read's last opens a buffer. What a channel disabled or stopped since had asked for is dropped. -/
def Hub.dmaDescs (h : Hub) (ch : Fin 64) (data : List Byte) (final : Bool) : Hub :=
  let d := h.dma[ch]
  match d.fetching with
  | none => h
  | some bs =>
    if final then ((h.setDma ch { d with fetching := none }).dmaFetched ch (descsOf 8 (bs ++ data))).dmaRead ch
    else h.setDma ch { d with fetching := some (bs ++ data) }

/-- Buffer data read from host memory goes out as cells of 128 bytes, the remainder in the buffer's final cell, which has `last` set
(R335). -/
def Hub.dmaData (h : Hub) (ch : Fin 64) (data : List Byte) (final : Bool) : Hub :=
  let d := h.dma[ch]
  match d.buf, h.dmaTun ch with
  | some (a, n, done), some t =>
    if !d.asked then h
    else
      let data := data.take (n - done)
      let ends := Nat.ble n (done + data.length)
      let all := d.part ++ data
      let whole := if ends then all.length else all.length / 128 * 128
      let cs := if whole = 0 then [] else pieces 128 128 40 (all.take whole)
      let m := cs.length
      let h := (cs.zipIdx).foldl (fun h (c, i) =>
        h.present ⟨2 + h.dmaPort t, h.get (Obj.TUN_LOCAL t),
          mkHdr (h.get (Obj.TUN_CLASS t)) false (ends && i + 1 == m) false c.length, c, false, false⟩) h
      let h := (h.setDma ch { d with buf := some (a, n, done + data.length), part := all.drop whole, asked := !final }).bumpBy (Obj.DMA_BYTES ch)
        data.length
      if ends then h.dmaClose ch true false else h
  | _, _ => h

/-! ### Completions (R325 to R329) -/

/-- The oldest request held for an entry goes on when one is free, and then the reads of DMA channels (R326). -/
def Hub.npResume (h : Hub) : Hub :=
  if h.npFull then h
  else match h.pcie.npHold with
    | (port, dev, tlp) :: rest => (h.setPcie fun p => { p with npHold := rest }).npEnter port dev tlp
    | [] => match (List.finRange 64).find? fun ch => (h.dma[ch]).held || (h.dma[ch]).fetchHeld with
      | some ch =>
        if (h.dma[ch]).held then (h.setDma ch { h.dma[ch] with held := false }).dmaRead ch
        else (h.setDma ch { h.dma[ch] with fetchHeld := false }).dmaFetch ch
      | none => h

/-- A completion for a tracked request (R325, R329, R337). -/
def Hub.completion (h : Hub) (key : NpKey) (status : Nat) (final : Bool) (data : List Byte) : Hub :=
  match h.pcie.np.find? fun e => e.key == key with
  | none => h.bump Obj.CPL_LATE
  | some e =>
    let h := match key with
      | .tlp port _ _ => h.tlpIssue port data
      | .dma ch desc => if status ≠ 0 then h.dmaStop ch else if desc then h.dmaDescs ch data final else h.dmaData ch data final
      | .bridge _ => h
    let h := if final then (h.npFree e.id).npResume else h
    match key with
    | .dma ch _ => h.dmaRead ch
    | _ => h

/-! ### TLPs at their egress port (R321, R322) -/

/-- A TLP issued at its egress port: a completion belongs to a tracked request, and at an upstream port the switch's checks apply. -/
def Hub.tlpDeliver (h : Hub) (port : Fin 2) (t : Nat) (bytes : List Byte) : Hub :=
  let tlp : Tlp := ⟨bytes⟩
  if tlp.kind = .completion then h.completion (.tlp port tlp.req tlp.tag) tlp.status tlp.final bytes
  else if h.pcie.role[port] = 1 then h.goUp port (h.get (Obj.TUN_LOCAL t) % 32) tlp
  else h.tlpIssue port bytes

/-- A TLP that has reached its egress port (R321, R322). A request goes behind those already held. -/
def Hub.tlpEgress (h : Hub) (port : Fin 2) (t : Nat) (cells : List (List Byte)) : Hub :=
  match cells with
  | [] => h
  | c :: _ =>
    let bytes := c.drop 8 ++ (cells.drop 1).flatten
    let count := ofBE (c.take 2)
    let n := cells.length
    let h := h.freedIn port t (ofBE (slice c 2 2))
    let x := h.tlpTun t port
    if bitOf (h.get (Obj.TUN_LOCAL t)) 8 then
      if x.held.isEmpty && fencePassed (h.enteredOf t port) count then ((h.tlpDeliver port t bytes).passedOut port t n).creditQuarter t port
      else (h.setTlpTun { x with held := x.held ++ [(count, n, bytes)] }).bump (Obj.FENCE_WAITS port)
    else (((h.setTlpTun { x with entered := count }).tlpDeliver port t bytes).passedOut port t n).creditQuarter t port

/-- Held requests whose fence has been passed, in order (R321). -/
def Hub.fenceGo (h : Hub) (port : Fin 2) (t : Nat) : Nat → Hub
  | 0 => h
  | f + 1 =>
    let x := h.tlpTun t port
    match x.held with
    | [] => h
    | (fence, n, bytes) :: rest =>
      if fencePassed (h.enteredOf t port) fence then
        ((((h.setTlpTun { x with held := rest }).tlpDeliver port t bytes).passedOut port t n).creditQuarter t port).fenceGo port t f
      else h

/-- A completion that COMPLETION_RX reports has come by the posted-and-completion tunnel of its request, behind what came before (R321). -/
def Hub.completionIn (h : Hub) (key : NpKey) (data : List Byte) : Hub :=
  match key with
  | .tlp port _ _ => match h.pcie.np.find? fun e => e.key == key with
    | some e => match h.findTlpTun port e.dev false with
      | some t =>
        let x := h.tlpTun t port
        ((h.setTlpTun { x with entered := (x.entered + 1) % 65536 }).passedOut port t (tlpCells (h.tunEncrypted t) data).length).creditQuarter t port
      | none => h
    | none => h
  | _ => h

/-! ### The commands -/

/-- PCIE_TLP_EGRESS (R321): the payloads of the TLP's cells, in order, or, with none given, the oldest TLP that waits at the egress. -/
def execPcieTlpEgress (port : Fin 2) (t : Tunnel) (cells : Option (List (List Byte))) (s : State) : Host.Outcome State Fault Refusal :=
  s.run fun h => match cells with
    | some cs => h.tlpEgress port t.val cs
    | none => match h.tlpWaiting port t.val with
      | some (cs, h) => h.tlpEgress port t.val cs
      | none => h

/-- FENCE_RELEASE (R321). -/
def execFenceRelease (t : Tunnel) (s : State) : Host.Outcome State Fault Refusal :=
  s.run fun h => (h.tlpEnds t.val).foldl (fun h p => h.fenceGo p t.val (h.tlpTun t.val p).held.length) h

/-- CREDIT_CELL_RX (R322): the payload of a credit-only cell, or, with none given, the one that waits at the egress. Such a cell is neither
counted as sent nor as passed out (log entry 11). -/
def execCreditCellRx (port : Fin 2) (t : Tunnel) (content : Option (List Byte)) (s : State) : Host.Outcome State Fault Refusal :=
  s.run fun h => match content with
    | some b => h.freedIn port t.val (ofBE (slice b 2 2))
    | none => match h.tlpMessage port t.val 1 with
      | some (b, h) => h.freedIn port t.val (ofBE (slice b 2 2))
      | none => h

/-- CREDIT_CELL_SEND (R322). -/
def execCreditCellSend (t : Tunnel) (s : State) : Host.Outcome State Fault Refusal :=
  s.run fun h => (h.tlpEnds t.val).foldl (fun h p => h.creditSend t.val p) h

/-- A reset message received: its freed count, and its reset at a root port (R314, R320). -/
def Hub.resetMsgRx (h : Hub) (port : Fin 2) (t : Nat) (b : List Byte) : Hub :=
  let h := h.freedIn port t (ofBE (slice b 2 2))
  let code := byteAt b 5
  if h.pcie.role[port] = 2 ∧ 1 ≤ code ∧ code ≤ 4 then h.rootReset port code else h

/-- PCIE_RESET_MESSAGE_RX (R314, R320): the payload of the message cell, or, with none given, the one that waits at the egress. -/
def execPcieResetMessageRx (port : Fin 2) (t : Tunnel) (content : Option (List Byte)) (s : State) : Host.Outcome State Fault Refusal :=
  s.run fun h => match content with
    | some b => h.resetMsgRx port t.val b
    | none => match h.tlpMessage port t.val 2 with
      | some (b, h) => h.resetMsgRx port t.val b
      | none => h

/-- UPSTREAM_RESET (R314). -/
def execUpstreamReset (port : Fin 2) (fundamental : Bool) (s : State) : Host.Outcome State Fault Refusal :=
  s.run fun h => h.upstreamReset port fundamental

/-- UPSTREAM_LINK_UP (R317): `speed` and `width` are the other end's best, less 1 of the codes of R339. -/
def execUpstreamLinkUp (port : Fin 2) (speed : Fin 5) (width : Fin 3) (s : State) : Host.Outcome State Fault Refusal :=
  s.run fun h => h.upstreamUp port (speed.val + 1) (width.val + 1)

/-- The link of a port of this hub enters a state of R339: the data link is active in L0, recovery and L1, which the settings must permit.
A link held in reset stays there, and an upstream port comes up or goes down by UPSTREAM_LINK_UP and UPSTREAM_RESET. -/
def Hub.linkEnters (h : Hub) (port : Fin 2) (link speed width : Nat) : Hub :=
  let was := h.dlActive port
  if h.pcie.role[port] = 0 ∨ h.pcie.reset[port] ≠ 0 ∨ (link = 5 ∧ (!was ∨ !bitOf (h.eff (Obj.PCIE_ASPM port)) 0)) ∨ (link = 4 ∧ !was) then h
  else if h.pcie.role[port] = 1 then (if was && Nat.ble 3 link && Nat.ble link 5 || !was && link == 2 then h.put (Obj.PCIE_LINK port) link else h)
  else if link = 3 then (h.pcieTrained port speed width).dlFollow port was true
  else if link = 4 ∨ link = 5 then h.put (Obj.PCIE_LINK port) link
  else h.pcieDown port link

/-- PCIE_DL_CHANGE (R331): the link of a port of a hub, this one included, enters the state `link` of R339, in which the data link is active
or not; `speed` and `width` are the device's best, less 1 of the codes of R339. -/
def execPcieDlChange (unit : W64) (port : Fin 2) (link : Fin 8) (speed : Fin 5) (width : Fin 3) (s : State) : Host.Outcome State Fault Refusal :=
  s.run fun h =>
    if unit = Config.unitId then h.linkEnters port link.val (speed.val + 1) (width.val + 1)
    else if h.pcie.rps.any (fun r => r.1 == unit.toNat && r.2.1 == port.val) then
      h.rpChange unit.toNat port.val (some (Nat.ble 3 link.val && Nat.ble link.val 5))
    else h

/-- NP_TIMEOUT (R327). -/
def execNpTimeout (id : Nat) (s : State) : Host.Outcome State Fault Refusal :=
  s.run fun h => if h.due (.npTimeout id) then
    match h.pcie.np.find? fun e => e.id == id with
    | some e => (((h.npEnd e 2).bump Obj.CPL_SYNTH_CA).event 0x33 Obj.CPL_SYNTH_CA).npResume
    | none => h.disarm (.npTimeout id)
    else h

/-- COMPLETION_RX (R325, R329): of a PCIe request the whole TLP, of a DMA read the data. -/
def execCompletionRx (key : NpKey) (status : Fin 3) (final : Bool) (data : List Byte) (s : State) : Host.Outcome State Fault Refusal :=
  s.run fun h => (h.completionIn key data).completion key status.val final data

/-- DMA_TAIL_WRITE (R336). -/
def execDmaTailWrite (o : Origin) (ch : Fin 64) (v : W32) (s : State) : Host.Outcome State Fault Refusal :=
  s.run fun h => h.guarded o (Obj.DMA_TAIL ch) v.toNat fun h => (rcOk, h.put (Obj.DMA_TAIL ch) v.toNat)

/-- DMA_DESCRIPTOR_FETCH (R336): what host memory holds at the descriptors comes by COMPLETION_RX. -/
def execDmaDescriptorFetch (ch : Fin 64) (s : State) : Host.Outcome State Fault Refusal := s.run fun h => h.dmaFetch ch

/-- DMA_FAULT (R337). -/
def execDmaFault (ch : Fin 64) (s : State) : Host.Outcome State Fault Refusal :=
  s.run fun h => if h.get (Obj.DMA_ENABLE ch) = 1 then h.dmaStop ch else h

end Sys2Proof.Machine
end

