-- ==== Sys2Proof/Machine/Links.lean ====
section
/-! DEFINITION. The Jensar link (chapters 01, 05, 06): paths and depth, lanes, clock references, eye scans, and link down. -/

namespace Sys2Proof.Machine

/-! ### Paths, depth and end roles (R14 to R20) -/

/-- Another port than `p` is a leaf end of a link that is up. -/
def Hub.uplinkBut (h : Hub) (p : Nat) : Option Port :=
  (List.finRange 2).find? fun q => q.val != p && h.trunkEnd q == 2 && h.linkUp q

/-- This hub has a path to a cabinet root that does not run through port `p`. -/
def Hub.pathBut (h : Hub) (p : Nat) : Bool :=
  h.get Obj.ROLE_ACTIVE == 0 || (match h.uplinkBut p with
    | some q => (h.farNow q).1
    | none => false)

/-- Outcome of end-role resolution: own end role (1 root, 2 leaf, 3 refused) and event (R19, R20). -/
def Hub.resolve (h : Hub) (p : Port) : Nat × Nat :=
  let f := h.links[p].far
  let unit := Config.unitId.toNat
  let path := h.pathBut p
  let depth := h.get Obj.TRUNK_DEPTH
  let root := h.get Obj.ROOT_UNIT_ID
  let ownCr := h.get Obj.ROLE_ACTIVE == 0
  let farCr := f.role == 0
  let r : Nat × Nat :=
    if ownCr && farCr then (3, 2)
    else if ownCr then (1, 0)
    else if farCr then (2, 0)
    else if path && !f.path then (1, 0)
    else if !path && f.path then (2, 0)
    else if path && f.path then
      if root = f.root then
        (if depth < f.depth ∨ (depth = f.depth ∧ f.unit < unit) then 1 else 2, 4)
      else (3, 2)
    else (if f.unit < unit then 1 else 2, 3)
  if r.1 = 1 ∧ 8 < depth + 1 then (3, 1)
  else if r.1 = 2 ∧ 8 < f.depth + 1 then (3, 0)
  else r

/-- `TRUNK_END` of a port set. -/
def Hub.setEnd (h : Hub) (p e : Nat) : Hub := h.put Obj.TRUNK_END (putField (h.get Obj.TRUNK_END) (2 * p + 1) (2 * p) e)

/-- A refused port trains again when depth or root changes (R213). -/
def Hub.wakeRefused (h : Hub) : Hub :=
  (List.range 2).foldl (fun h p => if h.get (Obj.LINK_STATE p) = 13 then h.put (Obj.LINK_STATE p) 12 |>.arm (.backoff (portNo p)) 0 else h) h

/-- The leaf ends of this hub as `TRUNK_END` records them, those of links that are up first. -/
def Hub.leafEnds (h : Hub) : List Port :=
  h.uplinks ++ (List.finRange 2).filter fun (q : Port) => h.trunkEnd q.val == 2 && !h.linkUp q.val

/-- Depth, root and dual attachment from the leaf ends (R18, R20), which count from step 3 of their training on (log entry 79). -/
def Hub.retree (h : Hub) : Hub :=
  let us := h.leafEnds
  let (d, r) := match us with
    | q :: _ => ((h.farNow q).2.1 + 1, (h.farNow q).2.2)
    | [] => (0, Config.unitId.toNat)
  let changed := h.get Obj.TRUNK_DEPTH != d || h.get Obj.ROOT_UNIT_ID != r
  let h := ((h.put Obj.TRUNK_DEPTH d).put Obj.ROOT_UNIT_ID r).put Obj.DUAL_ATTACHED (b2n (us.length == 2))
  if changed then h.wakeRefused else h

/-! ### Eye scan (R172 to R178) -/

/-- The sampler's place for a voltage index, in mV: (63.5 − v) × 4 (R172). -/
def eyeMv (v : Nat) : Int := 254 - 4 * v

/-- The sampler's place for a phase index, in 1/64 UI from the main sampling phase (R172). -/
def eyePhase (φ : Nat) : Int := (φ : Int) - 32

/-- `EYE_DATA` of a scan (R177). The points are measured in the order of their entries, 64v + φ: the spec states no order, and this one
decides which entries of an aborted scan read 0xFFFF (DESIGN CHOICE, log entry 80). -/
def eyeBytes (e : EyeScan) (status : Nat) : List Byte :=
  [BitVec.ofNat 8 e.lane, BitVec.ofNat 8 e.rate, BitVec.ofNat 8 e.dir, BitVec.ofNat 8 e.dwell] ++ toLE 4 e.start ++
    toLE 2 e.counts.length ++ [BitVec.ofNat 8 status] ++ List.replicate 5 0 ++
    (e.counts.flatMap fun c => toLE 2 (min 0xFFFF c.2.2)) ++ List.replicate (2 * (8192 - e.counts.length)) 0xFF

/-- UI in a dwell as nanoseconds at the rate in use: 32, 16 or 8 GBd. -/
def dwellNs (rate d : Nat) : Nat := 2 ^ d / (if rate = 1 then 32 else if rate = 4 then 8 else 16)

/-- The scan of a lane. -/
def Hub.eyeOf (h : Hub) (p : Port) (l : Lane) : Option EyeScan := h.links[p].eyes.find? fun e => e.lane == l.val

/-- A change of the scan of a lane. -/
def Hub.setEye (h : Hub) (p : Port) (l : Lane) (f : EyeScan → EyeScan) : Hub :=
  h.setLink p fun k => { k with eyes := k.eyes.map fun e => if e.lane == l.val then f e else e }

/-- The sampler moves to the next grid point and measures there: 1 µs, then the dwell (R173). -/
def Hub.eyeNext (h : Hub) (p : Port) (l : Lane) : Hub :=
  match h.eyeOf p l with
  | none => h
  | some e =>
    let n := e.counts.length
    (h.emit (.eyeSampler p l (eyePhase (n % 64)) (eyeMv (n / 64)))).arm (.eyePoint p l) (1000 + dwellNs e.rate e.dwell)

/-- A scan ends (R178). -/
def Hub.eyeEnd (h : Hub) (p : Port) (l : Lane) (status : Nat) : Hub :=
  match h.eyeOf p l with
  | none => h
  | some e =>
    let h := (h.putOct (Obj.EYE_DATA (laneIx p l)) (eyeBytes e status)).put (Obj.EYE_STATUS p l) status
    let h := (h.setLink p fun k => { k with eyes := k.eyes.filter fun x => x.lane != l.val }).disarm (.eyePoint p l)
    h.event 0x24 (Obj.EYE_STATUS p l)

/-- The lane's receiver at this end is ACTIVE or in LOOP (R174). -/
def Hub.eyeRuns (h : Hub) (p : Port) (l : Lane) : Bool :=
  (h.laneState p l == 2 && h.receives p l) ||
    (h.laneState p l == 5 && match (h.lane p l).loop with
      | some .far => Nat.ble 2 l.val
      | some .returned => Nat.ble l.val 1
      | _ => true)

/-- The scan of a lane after a change of the lane: aborted when it trains or goes off, paused when it leaves ACTIVE, going on when it is
ACTIVE again in the direction of the scan (R175). -/
def Hub.eyesFollow (h : Hub) (p : Port) (l : Lane) : Hub :=
  let st := h.laneState p l
  match h.eyeOf p l with
  | none => h
  | some e =>
    if st = 1 ∨ st = 0 then h.eyeEnd p l 4
    else if h.eyeRuns p l && (st == 5 || e.dir == h.get (Obj.LANE_DIR p l)) then
      (if e.paused then ((h.setEye p l fun e => { e with paused := false }).put (Obj.EYE_STATUS p l) 1).eyeNext p l else h)
    else if e.paused then h
    else ((h.setEye p l fun e => { e with paused := true }).put (Obj.EYE_STATUS p l) 2).disarm (.eyePoint p l)

/-! ### Lanes (R146, R147, R154 to R156, R215, R216) -/

/-- The code leaves a lane quiet. -/
def codeQuiet (code l : Nat) : Bool := (l == 1 || l == 2) && bitOf code (l + 1)

/-- A lane takes a state and a direction: objects, pads and scans follow, and the streams of a lane that is not ACTIVE end. -/
def Hub.toLane (h : Hub) (p : Port) (l : Lane) (st dir : Nat) : Hub :=
  let h := ((h.put (Obj.LANE_STATE p l) st).put (Obj.LANE_DIR p l) dir).padsFollow p l
  let h := if st = 5 then h else h.setLane p l fun s => { s with loop := none, gen := none, tst := none }
  let h := if st = 2 then h else h.setLane p l fun s => { s with tx := {}, rx := {} }
  h.eyesFollow p l

/-- The receive values in use are those of the stored set of the lane's direction (R156). -/
def Hub.loadSet (h : Hub) (p : Port) (l : Lane) : Hub :=
  h.setLane p l fun s => match s.sets[dirNo (h.get (Obj.LANE_DIR p l))] with
    | some r => { s with live := r }
    | none => s

/-- The current receive values copied into the stored set of the direction that ends (R155). -/
def Hub.storeSet (h : Hub) (p : Port) (l : Lane) : Hub :=
  if h.laneState p l == 2 && h.receives p l then
    h.setLane p l fun s => { s with sets := s.sets.set (dirNo (h.get (Obj.LANE_DIR p l))) (some s.live) }
  else h

/-- Every stored coefficient set of a port discarded (R519, R667). -/
def Hub.discardSets (h : Hub) (p : Port) : Hub :=
  (List.finRange 4).foldl (fun h l => h.setLane p l fun s =>
    { s with ffe := Vector.replicate 2 none, sets := Vector.replicate 2 none, live := {} }) h

/-- Every lane of a port off (R147, R212). -/
def Hub.lanesOff (h : Hub) (p : Port) : Hub := (List.finRange 4).foldl (fun h l => h.toLane p l 0 2) h

/-- The lanes in training: L0 away and L3 toward, L1 and L2 in no direction yet (R147, R200). -/
def Hub.lanesTrain (h : Hub) (p : Port) : Hub :=
  (((h.toLane p 0 1 0).toLane p 1 1 2).toLane p 2 1 2).toLane p 3 1 1

/-- The lanes as a code gives them at link up (R216, R230): failed lanes stay so, receivers start from their sets, and the streams with
their first periodic markers. -/
def Hub.lanesUp (h : Hub) (p : Port) (code failed : Nat) : Hub :=
  let h := (List.finRange 4).foldl (fun h (l : Lane) =>
    let st := if bitOf failed l then 6 else if codeQuiet code l then 3 else 2
    let h := if st = 3 then h.bump (Obj.QUIET_ENTRIES (laneIx p l)) else h
    (h.toLane p l st (codeDir code l)).loadSet p l) h
  h.startStreams p

/-- Reversible lanes usable at this end, bits 0 and 1 (R222). -/
def Hub.usableHere (h : Hub) (p : Nat) : Nat :=
  b2n (h.laneState p 1 != 6 && h.laneState p 1 != 1) + 2 * b2n (h.laneState p 2 != 6 && h.laneState p 2 != 1)

/-- Reserved allotment codes. -/
def reservedCode (c : Nat) : Bool := c % 4 == 1

/-- The usable codes (R222). -/
def usableCodes (permitHere permitFar lanes : Nat) : Nat :=
  ((List.range 16).filter fun k => bitOf permitHere k && bitOf permitFar k && !reservedCode k &&
    (bitOf lanes 0 || bitOf k 2) && (bitOf lanes 1 || bitOf k 3)).foldl setBit 0

/-- A choice adjusted (R226): the code, and whether it fell back to 0xE. -/
def adjustCode (usable lanes c : Nat) : Nat × Bool :=
  if bitOf usable c then (c, false)
  else
    let c := if bitOf lanes 0 then c else setBit c 2
    let c := if bitOf lanes 1 then c else setBit c 3
    if bitOf usable c then (c, false) else (0xE, true)

/-- Lanes usable at both ends. -/
def Hub.lanesBoth (h : Hub) (p : Port) : Nat :=
  h.usableHere p &&& (match h.links[p].farUsable with
    | some u => u
    | none => 3 - (h.links[p].failed / 2) % 4)

/-- `ALLOT_USABLE` at a root end (R222). -/
def Hub.usable (h : Hub) (p : Port) : Nat :=
  let own := h.eff (Obj.ALLOT_PERMIT p)
  let far := if (h.links[p].farUsable).isSome then h.get (Obj.FAR_PERMIT p) else own
  usableCodes own far (h.lanesBoth p)

/-! ### Clock reference (R16, R138, R140, R142 to R145) -/

/-- The time source of the servo; a change puts it in acquiring with its event (R401). -/
def Hub.timeSource (h : Hub) (s : Nat) : Hub :=
  if h.get Obj.TIME_SOURCE_IN_USE = s then h
  else (((((h.put Obj.TIME_SOURCE_IN_USE s).put Obj.TIME_STATE 1).disarm .servoHold).disarm .servoSample)).event 0x3D Obj.TIME_SOURCE_IN_USE

/-- The reference-tracking PLL locks, or runs on in holdover, the fallback of clock domain 5; its output never stops, so neither counts as
a switch (R499, R501, log entry 94). -/
def Hub.rtpll (h : Hub) (lock : Bool) : Hub :=
  let h := h.put Obj.PLL_LOCK (putBit (h.get Obj.PLL_LOCK) 3 lock)
  if lock then (h.put (Obj.CD_SOURCE 5) 1).put (Obj.CD_DIV 5) 1
  else if h.get (Obj.CD_SOURCE 5) = 1 then h.put (Obj.CD_SOURCE 5) 2 else h

/-- The reference-tracking PLL locks to L0 of port `p`: every port transmits on it, and the time source goes with it
(R16, R140, R397). -/
def Hub.refLock (h : Hub) (p : Port) : Hub :=
  let h := if h.get Obj.ROLE_ACTIVE = 0 then h else h.timeSource (4 + p.val)
  (List.range 2).foldl (fun h q => (h.put (Obj.TK_REF_SOURCE q) (2 + p.val)).put (Obj.TK_REF_LOCK q) 1) (h.rtpll true)

/-- The port tracks its own L0: the PLL is locked to it. -/
def Hub.tracks (h : Hub) (p : Port) : Bool := h.get (Obj.TK_REF_SOURCE p) == 2 + p.val

/-- The port whose L0 the PLL is to track: the uplink that came up first; before one is up, the one that locked first (R16). -/
def Hub.refBest (h : Hub) : Option Port :=
  match h.uplinks.find? fun q => (h.links[q]).l0Lock with
  | some q => some q
  | none =>
    let locked := (List.finRange 2).filter fun (q : Port) => (h.links[q]).l0Lock
    match locked.find? h.tracks with
    | some q => some q
    | none => locked.head?

/-- The PLL tracks the port it is to track. -/
def Hub.refChoose (h : Hub) : Hub :=
  match h.refBest with
  | some q => if h.tracks q then h else h.refLock q
  | none => h

/-- A leaf that loses the L0 it tracks goes into holdover (R142). -/
def Hub.refHoldover (h : Hub) (p : Nat) : Hub :=
  if h.get (Obj.TK_REF_SOURCE p) = 2 + p then
    let h := (List.range 2).foldl (fun h q =>
      if h.get (Obj.TK_REF_SOURCE q) = 2 + p then (h.put (Obj.TK_REF_SOURCE q) 4).put (Obj.TK_REF_LOCK q) 0 else h) (h.rtpll false)
    h.event 0x23 (Obj.TK_REF_SOURCE p)
  else h

/-- L0 of the port is no longer received. -/
def Hub.l0Gone (h : Hub) (p : Port) : Hub :=
  if h.links[p].l0Lock then (h.setLink p fun k => { k with l0Lock := false }).refHoldover p else h

/-- The transmit clock source of a root end: REFCLK in a cabinet root; the tracked clock, or its holdover, where the other port is a leaf
end; REFCLK or XTAL otherwise (R138, R142, R145). -/
def Hub.rootRef (h : Hub) (p : Port) : Hub :=
  if h.trunkEnd p ≠ 1 then h
  else
    let other := h.get (Obj.TK_REF_SOURCE (1 - p.val))
    let src := if h.get Obj.ROLE_ACTIVE = 0 then 1
      else if h.trunkEnd (1 - p.val) = 2 ∧ 2 ≤ other ∧ other ≤ 4 then other
      else if h.get Obj.REFCLK_STATE = 2 then 1 else 5
    (h.put (Obj.TK_REF_SOURCE p) src).put (Obj.TK_REF_LOCK p) (b2n (src != 4))

/-- A port that is or becomes a leaf end has no use for REFCLK or XTAL as a transmit clock: it has no source until its L0 locks
(R140, R144). -/
def Hub.leafRef (h : Hub) (p : Port) : Hub :=
  let s := h.get (Obj.TK_REF_SOURCE p)
  if h.trunkEnd p = 2 ∧ (s = 1 ∨ s = 5) then (h.put (Obj.TK_REF_SOURCE p) 0).put (Obj.TK_REF_LOCK p) 0 else h

/-! ### Link down (R22, R24, R142, R212, R268) -/

/-- Route tags mapped to a lost port move to the other (R22, R268). -/
def Hub.pinFailover (h : Hub) (p : Nat) : Hub :=
  if (List.range 256).any fun t => h.tunUsed t && h.flag (Obj.TUN_PINNED t) then
    let h := { h with core := { h.core with pinLost := p :: h.core.pinLost.filter (· != p) } }
    (h.put Obj.PIN_EFFECTIVE (if p = 0 then 0xFFFF else 0)).event 0x30 Obj.PIN_EFFECTIVE
  else h

/-- Cells queued for a port are discarded (R268, R330). -/
def Hub.discardQueue (h : Hub) (p : Nat) : Hub :=
  let h' := (h.queueAt p).foldl (fun h c => (if c.pinned then h.bump Obj.PIN_DISCARD else h).dropQueued c) h
  h'.discardCopies p fun _ => true

/-- A swap asked for or agreed goes with the link: a request that is outstanding ends without reply (R240, R249; log entry 22). -/
def Hub.swapGone (h : Hub) (p : Port) : Hub :=
  let k := h.links[p]
  let h := if k.swapReq.isSome then h.put (Obj.SWAP_RESULT p) 5 else h
  if k.swapReq.isSome || k.swapAt.isSome then h.put (Obj.SWAP_STATE p) 0 else h

/-- The tunnels on a link end (R212, R243). -/
def Hub.tunnelsEnd (h : Hub) (p : Port) : Hub :=
  let sc7 := h.sc7On p
  let h := h.swapGone p
  let h := (h.discardQueue p).pinFailover p
  let h := h.npLost fun e => e.trunk == some p.val
  let h := if h.trunkEnd p = 1 then h.leaveBy p else h
  let h := h.setLink p fun k => { k with
    control := [], hopTx := [], hopRx := [], txSeq := [], rxSeq := [], ctrlIn := [], ctrlGap := 0, retrain := [], fails := [], trained := []
    missed := [], cwErr := [], choice := none, announced := false, late := false, reported := false, farUsable := none, acked := true
    reportGap := 0, pats := [], ackDue := false, swapReq := none, enc := 0, keySlot := none, txChange := none, rxChange := none
    rxRetire := none, closing := 0, farLoop := false, farOut := none, cellsIn := [] }
  let h := [Obj.ALLOT_CURRENT p, Obj.ALLOT_NEXT p, Obj.ALLOT_AFTER p].foldl (fun h k => h.put k 0x10) h
  let h := (h.put (Obj.KEY_STATE p) 0).put (Obj.FAR_PERMIT p) 0
  if sc7 then h.report 8 p else h

/-- The timed events of a port's link no longer come. -/
def Hub.stopTimers (h : Hub) (p : Port) : Hub :=
  let h := ((h.disarm (.trainStep p)).disarm (.rootSend p)).disarm (.reportBound p)
  let h := (h.disarm (.planDeadline p)).disarm (.farLoop p)
  (List.finRange 4).foldl (fun h l =>
    (((h.disarm (.laneRetrain p l)).disarm (.turnaround p l)).disarm (.turnStep p l)).disarm (.joinAt p l)) h

/-- The port waits before it trains again, doubling the wait up to `BACKOFF_MAX`; a link that had stayed up for 1 s has reset the wait
(R213). -/
def Hub.backoff (h : Hub) (p : Port) : Hub :=
  let w := (h.links[p]).waitMs
  let w := if w = 0 then 1 else min (2 * w) (h.get (Obj.BACKOFF_MAX p))
  ((h.setLink p fun k => { k with waitMs := w }).put (Obj.LINK_STATE p) 12).arm (.backoff p) (ms w)

/-- A link that ends has stayed up for 1 s: the next wait is the first again (R213). -/
def Hub.upFor (h : Hub) (p : Port) : Hub :=
  if h.linkUp p && Nat.ble (h.links[p].upAt + 1000000000) h.now then h.setLink p fun k => { k with waitMs := 0 } else h

/-- A retrain cell for the whole link sent on the fixed lane, with the codewords in progress to their end (R192, R212). -/
def Hub.sendRetrain (h : Hub) (p : Port) : Hub :=
  (h.putCell p (laneNo (h.fixedLane p)) (sealHdr 0 0 0 4 0xE0 (h.get (Obj.LINK_EPOCH_COUNT p) % 256)) [5, 2, 0, 0]).endStreams p

/-- Link down for a cause of R214; `own` says this hub decided it and sends a retrain cell first. -/
def Hub.linkDown (h : Hub) (p : Port) (cause : Nat) (own : Bool) : Hub :=
  if !h.linkUp p then h
  else
    let h := if own then h.sendRetrain p else h
    let h := ((h.upFor p).stopTimers p).lanesOff p
    let h := (h.put (Obj.LINK_STATE p) 0).tunnelsEnd p
    let h := ((h.setEnd p 0).put (Obj.TK_RATE p) 0).l0Gone p
    let h := (h.bump (Obj.LINK_DOWNS p)).put (Obj.LINK_DOWN_CAUSE p) cause
    let h := ((h.event 0x26 (Obj.LINK_STATE p)).retree).rescale p
    let h := h.setLink p fun k => { k with swapAt := none, swapEnd := none }
    if cause = 6 ∨ cause = 7 ∨ cause = 8 then (h.setLink p fun k => { k with mode := cause != 6 && k.mode }).put (Obj.LINK_STATE p) (if cause = 6 then 1 else 0)
    else h.backoff p

end Sys2Proof.Machine
end

