-- ==== Sys2Proof/Machine/Train.lean ====
section
/-! DEFINITION. Training of a trunk port (R19, R136, R150, R151, R154, R160, R161, R199 to R205, R213, R663): its frames, its steps,
equaliser settings, delay calibration, keying, and link up. What a lane's analogue front end finds comes with the frames from outside
(log entry 12). -/

namespace Sys2Proof.Machine

/-! ### TX FFE (R150, R151) -/

/-- The five taps of an FFE object. -/
def tapsOf (v : Nat) : List Int := (List.range 5).map fun i => signed 6 (field v (6 * i + 5) (6 * i))

/-- An FFE object of five taps. -/
def ofTaps (ts : List Int) : Nat := ((List.range 5).map fun i => unsigned 6 (ts.getD i 0) * 2 ^ (6 * i)).sum

/-- A tap lies in its range (R150). -/
def tapIn (i : Nat) (x : Int) : Bool :=
  if i = 2 then decide (12 ≤ x ∧ x ≤ 32)
  else if i = 1 ∨ i = 3 then decide (-12 ≤ x ∧ x ≤ 0)
  else if i = 0 then decide (-6 ≤ x ∧ x ≤ 0)
  else decide (-6 ≤ x ∧ x ≤ 6)

/-- The taps are within the ranges of R150, and their magnitudes sum to 32. -/
def tapsOk (ts : List Int) : Bool := ((List.range 5).all fun i => tapIn i (ts.getD i 0)) && (ts.map Int.natAbs).sum == 32

/-- Taps from the free numbers of a preset, brought into the ranges of R150 with a sum of 32 (log entry 20). -/
def presetTaps (x : Nat × Nat × Nat × Nat × Bool) : List Int :=
  let a := x.1 % 7
  let b := min (x.2.1 % 13) (20 - a)
  let c := min (x.2.2.1 % 13) (20 - a - b)
  let d := min (x.2.2.2.1 % 7) (20 - a - b - c)
  [-(a : Int), -(b : Int), ((32 - a - b - c - d : Nat) : Int), -(c : Int), if x.2.2.2.2 then -(d : Int) else (d : Int)]

/-- Preset `n`, 0 to 7 by request, 8 to 11 the starting presets of the channel classes 0 to 3. -/
def ffePreset (n : Nat) : Nat := ofTaps (presetTaps (Config.ffePreset n))

/-- A request on the taps of a transmitter: the status of training byte 27 and the taps after it. A step of a side tap takes its difference
from c(0), and of c(0) from c(−1), so that the sum stays 32 (log entry 20). -/
def ffeAfter (v req : Nat) : Nat × Nat :=
  let ts := tapsOf v
  let i := field req 2 0
  let op := field req 4 3
  if op = 0 then (0, v)
  else if op = 3 then (0, ffePreset (field req 7 5))
  else if 5 ≤ i then (2, v)
  else
    let x := ts.getD i 0 + (if op = 1 then 1 else -1)
    if !tapIn i x then (1, v)
    else
      let grow : Int := (x.natAbs : Int) - (ts.getD i 0).natAbs
      let new := if i = 2 then (ts.set 2 x).set 1 (ts.getD 1 0 + grow) else (ts.set i x).set 2 (ts.getD 2 0 - grow)
      if tapsOk new then (0, ofTaps new) else (2, v)

/-- The far receiver's request on a lane this end transmits on: the taps follow, and the status goes back with the next frame. -/
def Hub.ffeRequest (h : Hub) (p : Port) (l : Lane) (d : Fin 2) (req : Nat) : Hub :=
  match (h.lane p l).ffe[d] with
  | none => h
  | some v =>
    let (st, v) := ffeAfter v req
    h.setLane p l fun s => { s with ffe := s.ffe.set d (some v), status := st }

/-- A transmitter starts from the preset of the channel class (R164 `TK_CHANNEL_CLASS`). -/
def Hub.ffeStart (h : Hub) (p : Port) (l : Lane) (d : Fin 2) : Hub :=
  h.setLane p l fun s => { s with ffe := s.ffe.set d (some (ffePreset (8 + h.eff (Obj.TK_CHANNEL_CLASS p)))) }

/-! ### Receivers (R152, R154, R160, R161) -/

/-- Thresholds that exist at a rate: NRZ uses only the middle one (R152). -/
def sliceBits (rate : Nat) (v : Nat) : Nat := if pam4 rate then v % 2 ^ 24 else v / 256 % 256 * 256

/-- What a receiver has found becomes the stored set of a direction, with the phase that R141 measures from; its deskew delay stays. -/
def Hub.fillSet (h : Hub) (p : Port) (r : RxIn) (d : Fin 2) : Hub :=
  h.setLane p r.lane fun s =>
    let old := s.sets[d].getD {}
    { s with phase0 := s.phase0.set d (signed 32 r.phase.toNat), sets := s.sets.set d (some { old with
        ctle := r.ctle.val, dfe1 := r.dfe1.toNat, dfe2 := r.dfe2.toNat, dfe3 := r.dfe3.toNat,
        slice := sliceBits (h.links[p]).rate r.slice.toNat, phase := signed 32 r.phase.toNat }) }

/-- The skew object of a lane and direction. -/
def skewKey (p l d : Nat) : Nat := if d = 0 then Obj.SKEW_AWAY p l else Obj.SKEW_TOWARD p l

/-- The delay object of a lane and direction. -/
def delayKey (p l d : Nat) : Nat := if d = 0 then Obj.D_AWAY p l else Obj.D_TOWARD p l

/-- Skew of the lanes of the direction this end receives: recorded against the earliest, deskewed to the latest; none where one exceeds
40 ns (R160, R161). -/
def Hub.skewSet (h : Hub) (p : Port) (arrive : List (Lane × Fin 2 × W32)) : Option Hub :=
  let d := dirNo (1 - h.sendDir p)
  let mine := (arrive.filter fun a => a.2.1 == d).map fun a => (a.1, a.2.2.toNat)
  let first := (mine.map (·.2)).foldl min (((mine.map (·.2)).head?).getD 0)
  let last := (mine.map (·.2)).foldl max 0
  if Nat.ble 40001 (last - first) then none
  else some (mine.foldl (fun h a =>
    (h.put (skewKey p a.1 d) (a.2 - first)).setLane p a.1 fun s =>
      { s with sets := s.sets.set d (some { s.sets[d].getD {} with deskew := last - a.2 }) }) h)

/-- In its end role an end holds transmit sets for the direction it sends in and receive sets for the other only (R154, R165). -/
def Hub.keepSets (h : Hub) (p : Port) : Hub :=
  let d := dirNo (h.sendDir p)
  (List.finRange 4).foldl (fun h l =>
    ((h.setLane p l fun s => { s with sets := s.sets.set d none, ffe := s.ffe.set (1 - d) none }).put (skewKey p l d) 0)) h

/-! ### Frames (R199) -/

/-- Bounds of the steps in µs (R200). -/
def stepBound (s : Nat) : Nat := [0, 100, 1000, 2000, 3000, 4000, 7000, 10000, 10500, 11500, 12000].getD s 12000

/-- The step in progress, 1 to 10; 0 when the port is not training. -/
def Hub.trainStep (h : Hub) (p : Nat) : Nat :=
  let s := h.get (Obj.LINK_STATE p)
  if s = 14 then 10 else if 2 ≤ s ∧ s ≤ 10 then s - 1 else 0

/-- The frame type a step sends. -/
def stepType (s : Nat) : Nat := [0, 1, 1, 2, 2, 3, 4, 4, 5, 6, 7].getD s 0

/-- The key check value of this end's transmit key, 0 while it has none (R205). -/
def Hub.ownKcv (h : Hub) (p : Port) : Nat := if (h.links[p]).txS.isEmpty then 0 else kcvOf (h.links[p]).txS

/-- Rates enabled at both ends. -/
def Hub.commonRates (h : Hub) (p : Port) : Nat := h.eff (Obj.TK_RATES_ALLOWED p) &&& h.links[p].far.rates

/-- The highest rate enabled at both ends (R200 step 5). -/
def Hub.bestRate (h : Hub) (p : Port) : Option Nat := (List.range 5).find? fun c => Nat.ble 1 c && bitOf (h.commonRates p) (c - 1)

/-- The rate code of the next step (R199 byte 24): 8 GBd NRZ until step 5 chooses, then the rate in use. -/
def Hub.stepRate (h : Hub) (p : Port) : Nat := if h.trainStep p = 5 then (h.bestRate p).getD 4 else (h.links[p]).rate

/-- This end's training frame about a lane and direction (R199). Type 4 frames name the lane and direction that bytes 26 and 27 concern,
which need not be those they are sent on: its request where this end receives, its status where it transmits (log entry 12). -/
def Hub.trainFrame (h : Hub) (p : Port) (type : Nat) (l : Lane) (d : Nat) : List Byte :=
  let k := h.links[p]
  let x := h.lane p l
  let sends := d == h.sendDir p
  let late := Nat.ble 5 type
  let b := toBE 4 0x4A534C54 ++
    [BitVec.ofNat 8 type, BitVec.ofNat 8 (l.val + 4 * d + 8 * b2n x.inv[dirNo (1 - h.sendDir p)] + 16 * k.fault)] ++ toBE 8 Config.unitId.toNat ++
    [BitVec.ofNat 8 (h.get Obj.ROLE_ACTIVE), BitVec.ofNat 8 (h.get Obj.TRUNK_DEPTH + 128 * b2n (h.pathBut p))] ++
    toBE 8 (h.get Obj.ROOT_UNIT_ID) ++
    [BitVec.ofNat 8 (h.eff (Obj.TK_RATES_ALLOWED p) + 16 * h.stepRate p), BitVec.ofNat 8 (h.eff (Obj.TK_CHANNEL_CLASS p)),
      BitVec.ofNat 8 (if type = 4 && !sends then x.ask else 0), BitVec.ofNat 8 (if type = 4 && sends then x.status else 0)] ++
    toBE 8 (if Nat.ble 6 type then k.nonce else 0) ++ toBE 8 (if Nat.ble 6 type then h.ownKcv p else 0) ++
    toBE 2 (if late then x.txDelay else 0) ++ toBE 2 (if late then x.rxDelay else 0) ++ toBE 4 (if type = 5 then k.hold else 0) ++
    List.replicate 8 0
  b ++ toBE 4 (crc32 b)

/-- A frame about a lane and direction sent on a lane; at the target rate, from step 6 on, a burst of 4096 UI of the pattern follows it
(R199). -/
def Hub.sendAbout (h : Hub) (p : Port) (type : Nat) (on l : Lane) (d : Nat) : Hub :=
  let h := h.emit (.trainFrame p on (h.trainFrame p type l d))
  if Nat.ble 6 (h.trainStep p) then h.emit (.trainPattern p on (h.eff (Obj.TK_PATTERN p)) 4096) else h

/-- A frame sent on a lane about itself. -/
def Hub.sendTrain (h : Hub) (p : Port) (type : Nat) (l : Lane) : Hub := h.sendAbout p type l l (h.sendDir p)

/-- The lanes this end sends on as it enters a step (R200): the fixed one; L1 and L2 where they run in its direction first. In steps 5 and 8
the root end sends on them first and the leaf end answers on them. The UFP end is silent until it has received L0. -/
def Hub.stepLanes (h : Hub) (p : Port) (s : Nat) : List Lane :=
  let d := h.sendDir p
  let fixed : Lane := if d = 0 then 0 else 3
  if s ≤ 2 then (if d = 0 || (s == 2 && h.links[p].far.type != 0) then [fixed] else [])
  else if ((s = 5 ∨ s = 6 ∨ s = 8) ∧ d = 0) ∨ (s = 7 ∧ d = 1) then [fixed, 1, 2]
  else if s = 8 then []
  else [fixed]

/-- L1 or L2 takes a direction while the port trains: its pads follow (R146, R200, R203). -/
def Hub.trainTurn (h : Hub) (p : Port) (l : Lane) (d : Nat) : Hub := if h.get (Obj.LANE_DIR p l) = d then h else h.toLane p l 1 d

/-- The frames of the step in progress; after its calibration frames the root end turns L1 and L2 for their return (R203). -/
def Hub.sendStep (h : Hub) (p : Port) : Hub :=
  let s := h.trainStep p
  let h := (h.stepLanes p s).foldl (fun h l => h.sendTrain p (if (h.links[p]).pathHold then 1 else stepType s) l) h
  if s = 8 ∧ h.sendDir p = 0 then (h.trainTurn p 1 1).trainTurn p 2 1 else h

/-- What a step sets before its frames leave: L0 and L3 change direction where the root is the UFP end, the direction L1 and L2 train in,
the presets of their transmitters, the clock of a leaf end (R140, R151, R200). -/
def Hub.stepSetup (h : Hub) (p : Port) (s : Nat) : Hub :=
  let start := fun (h : Hub) (ls : List Lane) (d : Fin 2) =>
    if h.sendDir p = d.val then ls.foldl (fun h l => h.ffeStart p l d) h else h
  if s = 4 then (((h.keepSets p).leafRef p).padsFollow p 0).padsFollow p 3
  else if s = 5 ∨ s = 8 then (h.toLane p 1 1 0).toLane p 2 1 0
  else if s = 6 then
    let h := (h.toLane p 1 1 0).toLane p 2 1 0
    start (start h [0, 1, 2] 0) [3] 1
  else if s = 7 then
    let h := (h.toLane p 1 1 1).toLane p 2 1 1
    start h [1, 2] 1
  else h

/-- A step entered: `LINK_STATE`, its bound, and this end's frames. -/
def Hub.enterStep (h : Hub) (p : Port) (s : Nat) : Hub :=
  let k := h.links[p]
  let h := h.setLink p fun k => { k with done := false }
  let h := (h.put (Obj.LINK_STATE p) (if s = 10 then 14 else s + 1)).stepSetup p s
  let due := k.start + us (stepBound s + (if 6 ≤ s then 6000 * k.downs else 0))
  let h := if k.pathHold then h.disarm (.trainStep p) else h.arm (.trainStep p) (due - h.now)
  h.sendStep p

/-- The trunk port an object of chapters 05 to 07 belongs to. -/
def portOfKey (k : Nat) : Nat :=
  let idx := k / 256
  if Nat.ble 0x3200 idx && Nat.ble idx 0x320F then idx % 2 else idx / 256 % 2

/-- Training starts from step 1: settings that wait for it take effect (R200, R57). -/
def Hub.trainStart (h : Hub) (p : Port) : Hub :=
  let h := h.takeUnit .training fun w => portOfKey w.key == p.val
  let h := h.setLink p fun k => { k with
    start := h.now, rate := 4, downs := 0, far := {}, failed := 0, fault := 0, done := false, hold := 0, pathHold := false, retrain := []
    fails := [], trained := [], txS := [], txSalt := [], rxS := [], rxSalt := [], txJ := 0, rxJ := 0, missed := [], cwErr := [], nonce := 0
    lanes := k.lanes.map fun s => { s with inv := Vector.replicate 2 false, ask := 0, status := 0 } }
  ((h.l0Gone p).disarm (.backoff p)).lanesTrain p |>.enterStep p 1

/-- Training ends with a fault, which a last frame tells the far end (R199, R202, R213). That every lane goes OFF is the model's choice:
the table of R147 gives no state for lanes whose training ends so (DESIGN CHOICE, log entry 81). -/
def Hub.trainFault (h : Hub) (p : Port) (code : Nat) : Hub :=
  let h := (h.setLink p fun k => { k with fault := code }).sendStep p
  let h := ((((h.put (Obj.LINK_FAULT p) code).disarm (.trainStep p)).lanesOff p).put (Obj.TK_RATE p) 0).l0Gone p
  let swap := (h.links[p].swapEnd).isSome
  let h := h.setLink p fun k => { k with swapEnd := none, pathHold := false, fault := 0 }
  let h := if swap then (h.put (Obj.SWAP_STATE p) 0) else h
  if code = 7 then ((h.put (Obj.LINK_STATE p) 13).setEnd p 3).retree else ((h.setEnd p 0).backoff p).retree

/-- The far end leaves its loop and trains (R171, R147). -/
def Hub.leaveLoop (h : Hub) (p : Port) : Hub :=
  if h.links[p].farLoop then (((h.setLink p fun k => { k with farLoop := false }).disarm (.farLoop p)).trainStart p) else h

/-! ### Rates, calibration, keying (R201, R203 to R206) -/

/-- The next rate after a failure of L0 or L3: the next slower one enabled at both ends (R201). -/
def nextRate (allowed cur : Nat) : Option Nat := (List.range 5).find? fun c => Nat.ble (cur + 1) c && bitOf allowed (c - 1)

/-- Own delays found by the serial loop of step 5 (R203). -/
def Hub.ownDelays (h : Hub) (p : Port) (ds : List (Lane × W16 × W16)) : Hub :=
  ds.foldl (fun h d => h.setLane p d.1 fun s => { s with txDelay := d.2.1.toNat, rxDelay := d.2.2.toNat }) h

/-- Delay calibration (R203, R204). -/
def Hub.calibrate (h : Hub) (p : Port) (c : CalIn) : Hub :=
  let f := h.links[p].far
  let root := h.trunkEnd p == 1
  let tx := fun (l : Lane) => (h.lane p l).txDelay
  let rx := fun (l : Lane) => (h.lane p l).rxDelay
  let pair := fun (l : Lane) rt => (rt - assoc f.hold l - tx l - assoc f.rx l - assoc f.tx l - rx l) / 2
  let c1 := if root then pair 1 c.rt1 else c.c1
  let c2 := if root then pair 2 c.rt2 else c.c2
  let away := fun (l : Lane) ck => if root then tx l + ck + assoc f.rx l else assoc f.tx l + ck + rx l
  let tow := fun (l : Lane) ck => if root then assoc f.tx l + ck + rx l else tx l + ck + assoc f.rx l
  let h := (((h.put (Obj.C_PAIR p 1) c1).put (Obj.C_PAIR p 2) c2).put (Obj.D_AWAY p 1) (away 1 c1)).put (Obj.D_TOWARD p 1) (tow 1 c1)
  let h := (h.put (Obj.D_AWAY p 2) (away 2 c2)).put (Obj.D_TOWARD p 2) (tow 2 c2)
  (h.put (Obj.D_AWAY p 0) ((away 1 c1 : Int) + c.skewAway).toNat).put (Obj.D_TOWARD p 3) ((tow 1 c1 : Int) + c.skewToward).toNat

/-- Both nonces are known and this end names a slot: the keys of both directions are derived from it, each a derivation of its own; a slot
that may not be used derives nothing (R205, R613). -/
def Hub.deriveKeys (h : Hub) (p : Port) : Hub :=
  let k := h.links[p]
  let f := k.far
  let slot := h.eff (Obj.LINK_KEY_SLOT p)
  match f.nonce with
  | none => h
  | some far =>
    if slot = 0xFF ∨ !k.txS.isEmpty then h
    else
      let root := h.trunkEnd p == 1
      let (ru, lu) := if root then (Config.unitId.toNat, f.unit) else (f.unit, Config.unitId.toNat)
      let (rn, ln) := if root then (k.nonce, far) else (far, k.nonce)
      let (key, h) := h.keyUse slot useDerive
      match key with
      | none => h
      | some key =>
        let h := h.bump (Obj.KEY_USES slot)
        let (s0, salt0) := linkSecret key (linkContext ru lu rn ln 0)
        let (s1, salt1) := linkSecret key (linkContext ru lu rn ln 1)
        h.setLink p fun k =>
          if root then { k with txS := s0, txSalt := salt0, rxS := s1, rxSalt := salt1, keySlot := some slot }
          else { k with txS := s1, txSalt := salt1, rxS := s0, rxSalt := salt0, keySlot := some slot }

/-- The end of step 9: the far end's key check value against the own derivation, and the state of the link's encryption (R205, R206). -/
def Hub.keyLink (h : Hub) (p : Port) : Hub :=
  let k := h.links[p]
  let enc := (h.eff (Obj.ENC_CLASSES p) ||| k.far.enc) % 256
  let fault := fun (h : Hub) => ((h.setLink p fun k => { k with enc := enc }).put (Obj.KEY_STATE p) 2).put (Obj.LINK_FAULT p) 8 |>.event 0x28 (Obj.KEY_STATE p)
  if h.eff (Obj.LINK_KEY_SLOT p) = 0xFF then
    if k.far.kcv = 0 then (h.setLink p fun k => { k with enc := 0, keySlot := none }).put (Obj.KEY_STATE p) 0 else fault h
  else if k.txS.isEmpty then fault h
  else if kcvOf k.rxS = k.far.kcv then (h.setLink p fun k => { k with enc := enc }).put (Obj.KEY_STATE p) 1
  else fault h

/-! ### Link up -/

/-- The link comes up (R200 step 10, R230, R243, R88). -/
def Hub.linkIsUp (h : Hub) (p : Port) : Hub :=
  let k := h.links[p]
  let root := h.trunkEnd p == 1
  let lanes := 3 - (k.failed / 2) % 4
  let h := h.disarm (.trainStep p)
  let (code, fell) := if root then
      let own := h.eff (Obj.ALLOT_PERMIT p)
      adjustCode (usableCodes own own lanes) lanes (h.eff (Obj.ALLOT_INITIAL p))
    else (k.initial, false)
  let h := (if fell then h.event 0x2A (Obj.ALLOT_PERMIT p) else h).put (Obj.TK_RATE p) k.rate
  let h := (h.put (Obj.LINK_STATE p) 11).setLink p fun k => { k with
    txSeq := [], rxSeq := [], lastEpoch := 0, ctrlGap := 0, farUsable := none, acked := true, ackDue := false
    reportGap := 0, pats := [(0, codeAway code)], choice := none, announced := false, late := false, reported := false, phaseAt := 0, txChange := none, rxChange := none, rxRetire := none
    hopExpect := 0, hopCount := 0, hopRx := [], hopTx := [], upAt := h.now, rebuild := true, cellsIn := []
    revertAt := h.now + ms (h.get Obj.PIN_REVERT_HOLD), swapEnd := none, swapSince := none, farOut := none }
  let h := h.lanesUp p code k.failed
  let h := (h.bump (Obj.LINK_UPS p)).put (Obj.LINK_UP_TIME p) h.time32
  let h := (h.put (Obj.FAR_UNIT_ID p) k.far.unit).put (Obj.LINK_EPOCH_COUNT p) 0
  let h := ((h.put (Obj.ALLOT_CURRENT p) code).put (Obj.ALLOT_NEXT p) code).put (Obj.ALLOT_AFTER p) code
  let h := ((h.put (Obj.ALLOT_SINCE p) 0).put (Obj.FAR_PERMIT p) 0).put (Obj.KEY_PHASE p) 0
  let h := h.put (Obj.DOWN_COUNT p) 0
  let h := (h.retree.refChoose).event 0x25 (Obj.LINK_STATE p)
  let h := if k.swapEnd.isSome then
      (((h.bump (Obj.ALLOT_ROLE_SWAPS p)).event 0x2C Obj.TRUNK_END).put (Obj.SWAP_STATE p) 0).put (Obj.SWAP_RESULT p) 1
    else h
  let mine := !k.far.path || k.far.root == Config.unitId.toNat
  let h := if root && mine then h.join ⟨BitVec.ofNat 64 k.far.unit, BitVec.ofNat 64 ((p.val + 1) * 2 ^ 56), k.far.rps⟩ else h
  h.rescale p

/-! ### The steps (R19, R200, R663) -/

/-- End roles are assigned at step 3 (R19, R20, R243). -/
def Hub.takeRoles (h : Hub) (p : Port) : Hub :=
  let (e, ev) := match h.links[p].swapEnd with
    | some e => (e, 0)
    | none => h.resolve p
  let h := if ev = 0 then h else h.put Obj.TOPO_EVENT ev
  if e = 3 then h.trainFault p 7 else ((h.setEnd p e).enterStep p 3).retree

/-- Step 3 begins, or training is held before it (R663). -/
def Hub.step3 (h : Hub) (p : Port) : Hub :=
  let k := h.links[p]
  if k.swapEnd.isNone && h.get Obj.ROLE_ACTIVE != 0 && !h.pathBut p && !k.far.rooted && !h.pathOver then
    (h.setLink p fun k => { k with pathHold := true }).enterStep p 3
  else
    if k.pathHold then
      let h := (h.setLink p fun k => { k with pathHold := false, start := h.now - us (stepBound 2) }).takeRoles p
      if k.far.type < 2 ∧ h.trainStep p = 3 ∧ h.pathOver then h.disarm (.trainStep p) else h
    else h.takeRoles p

/-- The fields of a training frame kept (R199). -/
def readFar (f : FarInfo) (b : List Byte) (t : TrainIn) : FarInfo :=
  let ty := byteAt b 4
  { f with
    type := max f.type ty, unit := ofBE (slice b 6 8), role := byteAt b 14, depth := byteAt b 15 % 16, path := bitOf (byteAt b 15) 7
    root := ofBE (slice b 16 8), rates := byteAt b 24 % 16, next := byteAt b 24 / 16, enc := t.enc.toNat, rps := t.rps
    nonce := if 6 ≤ ty then some (ofBE (slice b 28 8)) else f.nonce, kcv := if 6 ≤ ty then ofBE (slice b 36 8) else f.kcv
    tx := if 5 ≤ ty then assocSet f.tx t.lane (ofBE (slice b 44 2)) else f.tx
    rx := if 5 ≤ ty then assocSet f.rx t.lane (ofBE (slice b 46 2)) else f.rx
    hold := if ty = 5 then assocSet f.hold t.lane (ofBE (slice b 48 4)) else f.hold }

/-- The frame is well formed: sync word and CRC (R199). -/
def trainFrameOk (b : List Byte) : Bool :=
  b.length == 64 && ofBE (b.take 4) == 0x4A534C54 && ofBE (slice b 60 4) == crc32 (b.take 60)

/-- A frame as the receiver takes it: as it stands, or inverted where the lane's conductors are swapped, which its sync word shows
(R136). -/
def trainTaken (b : List Byte) : Option (Bool × List Byte) :=
  let n := b.map (~~~ ·)
  if trainFrameOk b then some (false, b) else if trainFrameOk n then some (true, n) else none

/-- The frame type of the far end that lets a step end (R200). -/
def needType (s : Nat) : Nat := [0, 1, 1, 2, 3, 4, 4, 5, 6, 7, 7].getD s 7

/-- Lanes that have failed step 6 or 7: more than 10⁻⁴ of their symbols in error (R201). -/
def serFailed (ser : List (Lane × W32 × W32)) : Nat :=
  (ser.filter fun x => Nat.ble (x.2.2.toNat + 1) (10000 * x.2.1.toNat)).foldl (fun b x => setBit b x.1.val) 0

/-- The sets that a step has filled: of the lanes this end receives in the direction of the step (R154, R200). -/
def Hub.setsFilled (h : Hub) (p : Port) (rx : List RxIn) : Hub :=
  rx.foldl (fun h r => if h.receives p r.lane && h.get (Obj.LANE_DIR p r.lane) != 2
    then h.fillSet p r (dirNo (h.get (Obj.LANE_DIR p r.lane))) else h) h

/-- The port steps down to a slower rate and repeats steps 6 and 7 (R201). -/
def Hub.stepDown (h : Hub) (p : Port) (c : Nat) : Hub :=
  (h.setLink p fun k => { k with rate := c, downs := k.downs + 1, failed := 0, far := { k.far with type := min 4 k.far.type } }).enterStep p 6

/-- This end's part of the step is done: what it has found, and frames of the next type from here on (R200, R201). -/
def Hub.stepOwn (h : Hub) (p : Port) (s : Nat) (t : TrainIn) : Hub :=
  let bad := serFailed t.ser
  let said := fun (h : Hub) =>
    let h := h.setLink p fun k => { k with done := true }
    if needType s = stepType s then h else h.sendTrain p (needType s) (laneNo (h.fixedLane p))
  if s = 5 then
    match h.skewSet p t.arrive with
    | none => h.trainFault p 3
    | some h => if (h.bestRate p).isNone then h.trainFault p 4 else said (h.ownDelays p t.delays)
  else if (s = 6 ∨ s = 7) ∧ (bitOf bad 0 || bitOf bad 3) then
    match nextRate (h.commonRates p) (h.links[p]).rate with
    | some c => h.stepDown p c
    | none => h.trainFault p 4
  else if s = 6 ∨ s = 7 then said ((h.setLink p fun k => { k with failed := k.failed ||| (bad &&& 6) }).setsFilled p t.rx)
  else if s = 8 then
    let h := match t.cal with
      | some c => h.calibrate p c
      | none => h
    said (((h.setLink p fun k => { k with nonce := h.free 64 }).used).deriveKeys p)
  else said h

/-- Both ends send frames of the next type: the port moves on (R200). -/
def Hub.stepDone (h : Hub) (p : Port) (s : Nat) : Hub :=
  if s = 2 then h.step3 p
  else if s = 3 then (h.rootRef p).enterStep p 4
  else if s = 5 then (h.setLink p fun k => { k with rate := (h.bestRate p).getD 4 }).enterStep p 6
  else if s = 8 then (h.deriveKeys p).enterStep p 9
  else if s = 9 then (h.keyLink p).enterStep p 10
  else if s = 10 then h.linkIsUp p
  else h.enterStep p (s + 1)

/-- What a frame of the step in progress asks of this end at once. The leaf end answers lane check on L1 and L2 on the same lane, turned
(R200). A request on a lane this end transmits on is answered with its status, and a frame on one it receives with its own request (R151).
A leaf end returns a calibration frame on its lane, turned, with the time it held it, and sends one on L3 together with that on L1 (R203).
The far nonce lets the keys be derived, whose check value goes out (R205). -/
def Hub.trainReply (h : Hub) (p : Port) (b : List Byte) (t : TrainIn) : Hub :=
  let ty := byteAt b 4
  let s := h.trainStep p
  let d := h.sendDir p
  let fixed := laneNo (h.fixedLane p)
  let pair := t.lane = 1 ∨ t.lane = 2
  let leaf := h.trunkEnd p = 2
  let about := laneNo (byteAt b 5)
  let dir := byteAt b 5 / 4 % 2
  if ty = 3 ∧ s = 5 ∧ pair then
    (if leaf then (h.trainTurn p t.lane d).sendTrain p 3 t.lane else h.trainTurn p t.lane (1 - d))
  else if ty = 4 ∧ (s = 6 ∨ s = 7) then
    if dir = d then
      let h := h.ffeRequest p about (dirNo d) (byteAt b 26)
      if field (byteAt b 26) 4 3 = 0 then h else h.sendAbout p 4 fixed about d
    else (h.setLane p about fun x => { x with ask := t.ask.toNat }).sendAbout p 4 fixed about (1 - d)
  else if ty = 5 ∧ s = 8 ∧ leaf ∧ pair then
    let h := ((h.setLink p fun k => { k with hold := t.hold.toNat }).trainTurn p t.lane d).sendTrain p 5 t.lane
    if t.lane = 1 then h.sendTrain p 5 fixed else h
  else if Nat.ble 6 ty && s == 9 && h.links[p].txS.isEmpty then
    let h' := h.deriveKeys p
    if (h'.links[p]).txS.isEmpty then h' else h'.sendTrain p 6 fixed
  else if s = 2 ∧ d = 1 then h.sendStep p
  else h

/-- The far end has stepped down to a slower rate: this end follows (R199 byte 24, R201). -/
def Hub.farDown (h : Hub) (p : Port) : Bool :=
  let k := h.links[p]
  (h.trainStep p == 6 || h.trainStep p == 7) && Nat.ble (k.rate + 1) k.far.next && bitOf (h.commonRates p) (k.far.next - 1)

/-- A training frame from the far end (R200). -/
def Hub.trainRx (h : Hub) (p : Port) (t : TrainIn) : Hub :=
  match trainTaken t.frame with
  | none => h
  | some (swapped, b) =>
    let ty := byteAt b 4
    -- a hub in its wait that receives capability frames starts step 1 at once (R213)
    let h := if h.get (Obj.LINK_STATE p) = 12 ∧ ty = 1 then h.trainStart p else h
    -- the root end's training ends a far-end loop (R171)
    let h := if h.links[p].farLoop ∧ ty = 1 then h.leaveLoop p else h
    let s := h.trainStep p
    if s = 0 then h
    else
      let h := (h.setLane p t.lane fun x => { x with inv := x.inv.set (dirNo (1 - h.sendDir p)) swapped }).setLink p fun k =>
        { k with far := readFar k.far b t, initial := t.initial.toNat }
      -- the later of the two holds has ended: the bounds of steps 3 to 10 run from here (R663)
      let h := if s = 3 ∧ !h.links[p].pathHold ∧ 2 ≤ ty ∧ !h.armed (.trainStep p) then
          (h.setLink p fun k => { k with start := h.now - us (stepBound 2) }).arm (.trainStep p) (us (stepBound 3 - stepBound 2)) else h
      if ty = 3 ∧ byteAt b 5 % 4 ≠ t.lane.val then h.trainFault p 2
      else if byteAt b 5 / 16 ≠ 0 then h.trainFault p (byteAt b 5 / 16)
      else
        let h := h.trainReply p b t
        if h.links[p].pathHold then (if h.links[p].far.rooted || h.pathBut p || h.pathOver then h.step3 p else h)
        else if ty = 4 ∧ h.farDown p then h.stepDown p (h.links[p]).far.next
        else
          let h := if t.own && !(h.links[p]).done then h.stepOwn p s t else h
          if h.trainStep p = s ∧ (h.links[p]).done ∧ needType s ≤ (h.links[p]).far.type then h.stepDone p s else h

end Sys2Proof.Machine
end

