-- ==== Sys2Proof/Machine/Trunk.lean ====
section
/-! DEFINITION. A trunk link in service: lane loss and single-lane retraining (R141, R158, R186, R198, R211, R697), what a lane receives
(R136, R180 to R195), alignment (R157, R161, R184 to R186), and cells (R190, R193, R206 to R209). -/

namespace Sys2Proof.Machine

/-! ### Lane loss (R141, R147, R186, R198, R211, R697) -/

/-- A control cell queued for the fixed lane (R192). -/
def Hub.sendCtrl (h : Hub) (p : Port) (content : List Byte) : Hub := h.setLink p fun k => { k with control := k.control ++ [content] }

/-- A request of this end's receiver on the equalisation back-channel; what it asks is the receiver's (R697; log entry 20). -/
def Hub.eqAsk (h : Hub) (p : Port) (l : Lane) (d : Nat) : Hub :=
  (h.sendCtrl p [6, 4, BitVec.ofNat 8 (h.free 8), 0, BitVec.ofNat 8 l.val, BitVec.ofNat 8 d]).used

/-- Single-lane retraining of L1 or L2 starts in the direction the lane has: the transmitter sends the training pattern, the receiver asks
for its equalisation (R697). -/
def Hub.laneTrain (h : Hub) (p : Port) (l : Lane) : Hub :=
  let d := h.get (Obj.LANE_DIR p l)
  let h := (h.toLane p l 1 d).setLink p fun k => { k with retrain := assocSet k.retrain l d }
  let h := (((h.disarm (.turnaround p l)).disarm (.turnStep p l)).disarm (.joinAt p l)).arm (.laneRetrain p l) (us 1500)
  (if h.receives p l then h.eqAsk p l d else h.emit (.trainPattern p l (h.eff (Obj.TK_PATTERN p)) 4096)).rescale p

/-- A lane is lost: L1 or L2 retrains, and the far end is told; L0 or L3 takes the link down with a cause (R211). -/
def Hub.laneLost (h : Hub) (p : Port) (l : Lane) (cause : Nat) : Hub :=
  if !h.linkUp p then h
  else if l.val = 1 ∨ l.val = 2 then
    (h.sendCtrl p [5, 2, BitVec.ofNat 8 l.val, BitVec.ofNat 8 (h.get (Obj.LANE_DIR p l))]).laneTrain p l
  else h.linkDown p cause true

/-- A lane in DARK or waking is not aligned 1.0 µs after the boundary: counted, its set for the new direction discarded, retrained (R158). -/
def Hub.turnFailed (h : Hub) (p : Port) (l : Lane) : Hub :=
  let d := dirNo (h.get (Obj.LANE_DIR p l))
  let h := (h.bump (Obj.TURN_FAIL (laneIx p l))).event 0x22 (Obj.LANE_STATE p l)
  (h.setLane p l fun s => { s with sets := s.sets.set d none, ffe := s.ffe.set d none }).laneLost p l 2

/-- The skew of a retrained lane against the fixed lane of its direction, and its delay from it (R161, R204). -/
def Hub.laneSkew (h : Hub) (p : Port) (l : Lane) (d : Nat) (skew : Int) : Hub :=
  let f : Lane := if d = 0 then 0 else 3
  let base := h.get (skewKey p f d)
  let h := h.put (delayKey p l d) ((h.get (delayKey p f d) : Int) + skew).toNat
  if d = h.sendDir p then h
  else
    let lead := (base : Int) + ((h.lane p f).sets[dirNo d].getD {}).deskew
    let mine := ((base : Int) + skew).toNat
    (h.put (skewKey p l d) mine).setLane p l fun s =>
      { s with sets := s.sets.set (dirNo d) (some { s.sets[dirNo d].getD {} with deskew := (lead - mine).toNat }) }

/-- A single-lane retraining ends (R155, R204, R697): a pass within 1.5 ms of its start replaces the set of the direction and re-measures
the lane's skew; anything else is a failure, and the third in a row makes the lane FAILED. -/
def Hub.laneTrained (h : Hub) (p : Port) (l : Lane) (pass : Bool) (skew : W32) (rx : RxIn) : Hub :=
  if !(h.links[p].retrain.any fun x => x.1 == l.val) then h
  else
    let d := assoc h.links[p].retrain l
    if pass && !h.due (.laneRetrain p l) then
      let h := (h.setLink p fun k => { k with
        retrain := k.retrain.filter fun x => x.1 != l.val, fails := k.fails.filter fun x => x.1 != l.val
        trained := k.trained ++ [l.val], rebuild := true }).disarm (.laneRetrain p l)
      let h := if h.receives p l then h.fillSet p { rx with lane := l } (dirNo d) else
        (if ((h.lane p l).ffe[dirNo d]).isNone then h.ffeStart p l (dirNo d) else h)
      h.laneSkew p l d (signed 32 skew.toNat)
    else
      let n := assoc h.links[p].fails l + 1
      let h := h.setLink p fun k => { k with fails := assocSet k.fails l n }
      if n < 3 then h.arm (.laneRetrain p l) (us 1500)
      else
        let h := (h.setLink p fun k => { k with retrain := k.retrain.filter fun x => x.1 != l.val }).disarm (.laneRetrain p l)
        (h.toLane p l 6 d).event 0x29 (Obj.LANE_STATE p l)

/-- A cell of the equalisation back-channel (R151, R192, R697): the transmitter of the lane takes the request and answers with its status,
the receiver goes on with its next request. -/
def Hub.eqCell (h : Hub) (p : Port) (c : List Byte) : Hub :=
  let l := laneNo (byteAt c 4)
  let d := byteAt c 5 % 2
  if !(h.linkUp p && h.links[p].retrain.any fun x => x == (l.val, d)) then h
  else if d = h.sendDir p then
    let h := if ((h.lane p l).ffe[dirNo d]).isNone then h.ffeStart p l (dirNo d) else h
    let h := h.ffeRequest p l (dirNo d) (byteAt c 2)
    h.sendCtrl p [6, 4, 0, BitVec.ofNat 8 (h.lane p l).status, BitVec.ofNat 8 l.val, BitVec.ofNat 8 d]
  else h.eqAsk p l d

/-! ### Alignment (R157, R161, R184 to R186) -/

/-- The number congruent to a tag modulo `m` that lies nearest to `last`. -/
def nearestMod (m last tag : Nat) : Nat :=
  let b := last - last % m + tag
  let c := [b - m, b, b + m].filter fun x => x % m == tag % m
  c.foldl (fun best x => if (max x last - min x last) < (max best last - min best last) then x else best) b

/-- The marker periods of a lane counted on from a received marker count, of 16 bits. -/
def Hub.rxPeriod (h : Hub) (p : Port) (count : Nat) : Nat :=
  nearestMod 65536 ((List.finRange 4).foldl (fun m l => max m (h.lane p l).rx.per) 0) count

/-- The receive grid of a lane from a marker: the slots start at the message bit after it (R181, R185, R187). -/
def Hub.rxGrid (h : Hub) (p : Port) (l : Lane) (cw0 count : Nat) : Hub :=
  let per := h.rxPeriod p count
  h.setLane p l fun s => { s with rx := { on := true, cw0 := cw0, scr := scrSeed l.val, per := per } }

/-- The lane is ACTIVE in its direction: a completed reversal counts, and Blend adds its payload (R147, R157, R233). -/
def Hub.laneJoined (h : Hub) (p : Port) (l : Lane) : Hub :=
  let h := if h.laneState p l = 4 then h.bump (Obj.TURNS (laneIx p l)) else h
  let h := ((h.disarm (.turnaround p l)).disarm (.turnStep p l)).disarm (.joinAt p l)
  (h.toLane p l 2 (h.get (Obj.LANE_DIR p l))).rescale p

/-- The marker that aligns a lane that turns or wakes: it must hold its set, and the marker lie within 2 UI of where the deskew delay puts
it (R158, R161, R238). `off` is its distance from there in UI. -/
def Hub.laneAligned (h : Hub) (p : Port) (l : Lane) (off : Int) : Bool :=
  ((h.lane p l).sets[dirNo (h.get (Obj.LANE_DIR p l))]).isSome && Nat.ble off.natAbs 2

/-- An alignment marker on a lane received here (R183 to R186): bytes 6 to 9 by majority. It must name the lane, its direction and, a
periodic one, the rate in use. On an ACTIVE lane a periodic marker starts the next period, and a joining one the
grid of a lane that has none yet; a lane that turns or wakes joins within 1.0 µs with the codeword its joining marker names, or with a
periodic marker. -/
def Hub.marker (h : Hub) (p : Port) (l : Lane) (block : List Byte) (off : Int) : Hub :=
  let m := markerTaken block
  let a := byteAt m 0
  let joining := bitOf a 3
  let count := ofBE (slice m 2 2)
  if !h.linkUp p || ofBE (block.take 6) != 0xA3F05C96E41B || a % 4 != l.val || !h.receives p l ||
    b2n (bitOf a 2) != h.get (Obj.LANE_DIR p l) || (!joining && a / 16 != (h.links[p]).rate) then h
  else if h.laneState p l = 2 then
    if joining then (if (h.lane p l).rx.on then h else h.rxGrid p l (a / 64 * 256 + byteAt m 1) count)
    else (h.setLink p fun k => { k with missed := k.missed.filter fun x => x.1 != l.val }).rxGrid p l 0 count
  else if h.armed (.turnaround p l) && !h.due (.turnaround p l) && h.laneAligned p l off then
    (h.laneJoined p l).rxGrid p l (if joining then a / 64 * 256 + byteAt m 1 else 0) count
  else h

/-- A periodic marker missed: the slots of its period run on from its place (R187); two in a row are alignment loss (R186). -/
def Hub.markerMissed (h : Hub) (p : Port) (l : Lane) : Hub :=
  if !h.linkUp p || h.laneState p l != 2 || !h.receives p l then h
  else
    let n := assoc h.links[p].missed l + 1
    if n < 2 then
      let x := (h.lane p l).rx
      let h := h.setLink p fun k => { k with missed := assocSet k.missed l n }
      if x.on then h.setLane p l fun s => { s with rx := { on := true, scr := scrSeed l.val, per := x.per + 1 } } else h
    else ((h.setLink p fun k => { k with missed := k.missed.filter fun x => x.1 != l.val }).bump (Obj.ALIGN_SLIPS (laneIx p l))).laneLost p l 2

/-! ### Codewords (R136, R180, R181, R187, R195, R197, R198) -/

/-- Message bits of a codeword put into the slots of a lane: the whole slots as cells with their places, and what remains of the stream.
A slot with a bit of an uncorrectable codeword gives no cell; the count of those comes third. -/
def slotsOf (l : Lane) : Nat → LaneStream → Bool → List ((Nat × Nat) × Lane × List Byte × List Byte) × LaneStream × Nat
  | 0, x, _ => ([], x, 0)
  | fuel + 1, x, bad =>
    if gridSlots x.cw0 ≤ x.slots then ([], { x with bits := [], bad := false }, 0)
    else if x.bits.length < 1088 then ([], { x with bad := if x.bits.isEmpty then false else x.bad || bad }, 0)
    else
      let bs := bitsBytes (x.bits.take 1088)
      let lost := x.bad || bad
      let (cs, y, n) := slotsOf l fuel { x with bits := x.bits.drop 1088, slots := x.slots + 1, bad := false } bad
      if lost then (cs, y, n + 1) else ((x.at_, l, bs.take 8, bs.drop 8) :: cs, y, n)

/-- A codeword's message bits descrambled into the lane's slots. -/
def Hub.feedSlots (h : Hub) (p : Port) (l : Lane) (msg : List Bool) (bad : Bool) : Hub :=
  let x := (h.lane p l).rx
  if !x.on then h
  else
    let (bits, scr) := scramble31 x.scr msg
    let (cells, y, lost) := slotsOf l 8 { x with scr := scr, bits := x.bits ++ bits, words := x.words + 1 } bad
    ((h.setLane p l fun s => { s with rx := y }).setLink p fun k => { k with cellsIn := k.cellsIn ++ cells }).bumpBy (Obj.CELLS_DROP_CW p) lost

/-- The counts of a decoded codeword. -/
def Hub.codewordGood (h : Hub) (p : Port) (l : Lane) (n : Nat) : Hub :=
  let m := laneIx p l
  let h := (h.bump (Obj.CW_TOTAL m)).bump (Obj.FEC_HIST m n)
  let h := if n = 0 then h else (h.bump (Obj.CW_CORRECTED m)).bumpBy (Obj.SYM_CORRECTED m) n
  h.setLane p l fun s => { s with fec := (h.now, n) :: s.fec.filter fun x => Nat.ble (h.now - x.1) (ms 100) }

/-- An uncorrectable codeword counted; four within 1 ms lose the lane (R195, R198). -/
def Hub.codewordBad (h : Hub) (p : Port) (l : Lane) : Hub :=
  let m := laneIx p l
  let h := (h.bump (Obj.CW_TOTAL m)).bump (Obj.CW_UNCORRECTABLE m)
  let h := h.setLane p l fun s => { s with fec := (h.now, 0) :: s.fec.filter fun x => Nat.ble (h.now - x.1) (ms 100) }
  let recent := (h.links[p].cwErr.filter fun x => x.1 == l.val && Nat.ble (h.now - x.2) (ms 1)).length + 1
  let h := h.setLink p fun k => { k with cwErr := (l.val, h.now) :: k.cwErr.filter fun x => Nat.ble (h.now - x.2) (ms 1) }
  if 4 ≤ recent then h.laneLost p l 3 else h

/-- Symbols received on a lane that is checked: bits compared and bits in error since lock are counted (R170). -/
def Hub.checkLine (h : Hub) (p : Port) (l : Lane) (xs : List Level) : Hub :=
  match (h.lane p l).tst with
  | none => h
  | some c =>
    let (bits, errs, c) := PatternCheck.run h.links[p].rate c xs
    let h := h.setLane p l fun s => { s with tst := some c }
    let h := (h.put (Obj.TST_BITS p l) ((h.get (Obj.TST_BITS p l) + bits) % 2 ^ 64)).put (Obj.TST_ERRORS p l)
      (min 0xFFFFFFFF (h.get (Obj.TST_ERRORS p l) + errs))
    if c.locked then h.put (Obj.TST_STATUS p l) 2 else h

/-- The line symbols of a codeword on a lane received here: inverted where the conductors are swapped, decoded, descrambled, cut into
slots. The far end of a loop returns the symbols unchanged, L0 on L3 and L1 on L2, for 1 s after the last (R168, R171). -/
def Hub.codeword (h : Hub) (p : Port) (l : Lane) (symbols : List Level) : Hub :=
  if h.links[p].farLoop then
    (if l.val < 2 then (h.emit (.line p (laneNo (3 - l.val)) symbols)).arm (.farLoop p) 1000000000 else h)
  else if h.laneState p l == 5 then (if (h.lane p l).loop = some .far then h.checkLine p l symbols else h)
  else if !h.linkUp p || h.laneState p l != 2 || !h.receives p l then h
  else
    let rate := (h.links[p]).rate
    let bits := ofLine rate (if (h.lane p l).inv[dirNo (h.get (Obj.LANE_DIR p l))] then invertLine symbols else symbols)
    if bits.length ≠ 5440 then h
    else
      let word := (bitPieces 10 544 bits).map ofBits
      match rsDecode word with
      | some (w, n) => (h.codewordGood p l n).feedSlots p l ((w.take 514).flatMap (toBits 10)) false
      | none => (h.feedSlots p l ((word.take 514).flatMap (toBits 10)) true).codewordBad p l

/-- More than 10⁻⁵ of the symbols of the last 100 ms were corrected (R197). -/
def Hub.fecHigh (h : Hub) (p : Port) (l : Lane) : Bool :=
  let f := (h.lane p l).fec.filter fun x => Nat.ble (h.now - x.1) (ms 100)
  Nat.ble (544 * f.length + 1) (100000 * (f.map (·.2)).sum)

/-! ### Cells (R188, R190, R191, R193, R206 to R209) -/

/-- The key phases a receiver accepts now: present, and the old one until it is retired (R208). -/
def Hub.rxPhase (h : Hub) (p : Port) (bit : Nat) : Option Nat :=
  let k := h.links[p]
  if k.rxJ % 2 = bit then some k.rxJ
  else match k.rxRetire with
    | some e => if h.get (Obj.LINK_EPOCH_COUNT p) < e ∧ 1 ≤ k.rxJ then some (k.rxJ - 1) else none
    | none => none

/-- A received payload opened where its class is encrypted; none drops the cell (R206, R209). -/
def Hub.unprotect (h : Hub) (p : Port) (hdr body : List Byte) : Option (List Byte) :=
  let k := h.links[p]
  let cls := byteAt hdr 1 / 32
  if !h.encrypts p cls then some (body.take (hdrLen hdr))
  else if h.get (Obj.KEY_STATE p) = 2 then none
  else match h.rxPhase p (byteAt hdr 1 % 2) with
    | none => none
    | some j =>
      let ep := nearestMod 256 k.lastEpoch (byteAt hdr 6)
      openCell (phaseKey k.rxS j) (cellIv k.rxSalt ep (1 - h.sendDir p) (byteAt hdr 0) (ofBE (slice hdr 2 2))) (hdr.take 7) body (hdrLen hdr)

/-- A HOP carriage cell reassembled (R193). A gap in the count spoils every frame under way: each is discarded and counted, and what is
left of it is passed over. -/
def Hub.hopCell (h : Hub) (p : Port) (hdr body : List Byte) : Hub :=
  let k := h.links[p]
  let tag := byteAt hdr 0
  let n := ofBE (slice hdr 2 2)
  let gap := n != k.hopExpect
  let open_ := (k.hopRx.filter fun x => x.2.isSome).length
  let h := if gap then h.bumpBy Obj.HOP_DROP_FORMAT open_ else h
  let frames := if gap then k.hopRx.map fun x => (x.1, none) else k.hopRx
  let old := (frames.find? fun x => x.1 == tag).map (·.2)
  -- frames are sent one after the other: a first cell ends those that are only passed over
  let rest := frames.filter fun x => x.1 != tag && (x.2.isSome || !hdrFirst hdr)
  let part := body.take (hdrLen hdr)
  -- the frame with this cell; a first cell opens one, and a cell of a frame that is not open continues one whose start was lost
  let now : Option (List Byte) := if hdrFirst hdr then some part else match old with
    | some (some bs) => some (bs ++ part)
    | _ => none
  let lost := now.isNone && old.isNone
  let h := if lost then h.bump Obj.HOP_DROP_FORMAT else h
  let h := h.setLink p fun k => { k with hopExpect := (n + 1) % 65536, hopRx := if hdrLast hdr then rest else (tag, now) :: rest }
  match hdrLast hdr, now with
  | true, some bs => { h with hopIn := h.hopIn ++ [(.trunk p, bs)] }
  | _, _ => h

/-- An accepted cell's full epoch count is the last (R207). -/
def Hub.tagTaken (h : Hub) (p : Port) (hdr : List Byte) : Hub :=
  h.setLink p fun k => { k with lastEpoch := nearestMod 256 k.lastEpoch (byteAt hdr 6) }

/-- Lanes away of the code in effect in the epoch that a received cell's tag names (R234). -/
def Hub.patAt (h : Hub) (p : Port) (tag : Nat) : Nat :=
  let k := h.links[p]
  ((k.pats.find? fun x => x.1 == nearestMod 256 k.lastEpoch tag).map (·.2)).getD (h.lanesAway p)

/-- A time exchange cell that has left the deskew buffer is stamped (R398). -/
def Hub.stampHeard (h : Hub) (p : Port) (hdr body : List Byte) : Hub :=
  if byteAt body 0 = 2 then
    h.setX p fun x => { x with heard := x.heard ++ [⟨0, h.netU, h.net.steps, h.patAt p (byteAt hdr 6)⟩] } else h

/-- A cell received on a trunk (R190, R191, R209). -/
def Hub.cellRx (h : Hub) (p : Port) (l : Lane) (hdr body : List Byte) : Hub :=
  if !h.linkUp p || h.laneState p l != 2 then h
  else if crc8 (hdr.take 8) ≠ 0 then h.bump (Obj.CELL_HDR_CRC (laneIx p l))
  else
    let kind := hdrHops hdr
    if kind = 15 then h
    else if kind = 0 ∨ (9 ≤ kind ∧ kind ≤ 12) then h.bump (Obj.CELL_FORMAT p)
    else if kind = 14 then
      let h := (h.bump (Obj.CELLS_RX p)).tagTaken p hdr
      (h.setLink p fun k => { k with ctrlGap := 0, ctrlIn := k.ctrlIn ++ [body.take (byteAt body 1 + 2)] }).stampHeard p hdr body
    else match h.unprotect p hdr body with
      | none => h.bump (Obj.AUTH_FAIL p)
      | some pay =>
        let h := (h.bump (Obj.CELLS_RX p)).tagTaken p hdr
        if kind = 13 then h.hopCell p hdr pay
        else
          let num := byteAt hdr 0
          let seq := ofBE (slice hdr 2 2)
          let gap := seq != assoc h.links[p].rxSeq num
          let h := if gap then h.bump (Obj.SEQ_GAPS p) else h
          let h := h.setLink p fun k => { k with rxSeq := assocSet k.rxSeq num ((seq + 1) % 65536) }
          h.present ⟨p.val, 0, hdr, pay, gap, false⟩

/-- The decoded cell that is next in the order of slot start times, lower lanes first, once every ACTIVE lane received here has passed its
place (R188, R194). -/
def Hub.nextCell (h : Hub) (p : Port) : Option ((Nat × Nat) × Lane × List Byte × List Byte) :=
  let cs := h.links[p].cellsIn
  match cs.find? fun c => cs.all fun d => slotBefore c.1 c.2.1.val d.1 d.2.1.val with
  | none => none
  | some c =>
    if (List.finRange 4).all fun m => m == c.2.1 || !(h.lane p m).rx.on || h.laneState p m != 2 ||
      slotBefore c.1 c.2.1.val (h.lane p m).rx.at_ m.val then some c else none

/-- The next decoded cell passed on. -/
def Hub.cellNext (h : Hub) (p : Port) : Hub :=
  match h.nextCell p with
  | none => h
  | some c => (h.setLink p fun k => { k with cellsIn := k.cellsIn.erase c }).cellRx p c.2.1 c.2.2.1 c.2.2.2

/-! ### Control cells waiting for their rows -/

/-- The content of a control cell of a type: the one given, or the oldest received and not handled. -/
def Hub.ctrlTake (h : Hub) (p : Port) (type : Nat) (given : Option (List Byte)) : Option (List Byte) × Hub :=
  match given with
  | some c => (if byteAt c 0 = type then some c else none, h.setLink p fun k => { k with ctrlGap := 0 })
  | none => match h.links[p].ctrlIn.find? fun c => byteAt c 0 == type with
    | some c => (some c, h.setLink p fun k => { k with ctrlIn := k.ctrlIn.erase c })
    | none => (none, h)

/-! ### Test loops (R168 to R171) -/

/-- The path and the pads of a lane in a loop (R168): electrical idle with termination on in modes 1 and 2; in mode 3 the root end
transmits on L0 and L1 and the far end returns what it receives. -/
def Hub.loopPads (h : Hub) (p : Port) (l : Lane) (mode : Nat) (far : Bool) : Hub :=
  let path : LoopPath := if mode = 1 then .serial else if mode = 2 then .parallel else if far then .returned else .far
  let pads : Pads := if mode ≠ 3 then { drive := .idle, term := true }
    else if far then (if l.val < 2 then { term := true } else { drive := .echo (3 - l.val) })
    else (if l.val < 2 then { drive := .active } else { term := true })
  h.setLane p l fun s => { s with loop := some path, pads := pads }

/-- The port leaves service for a loop (R168, R147): its link ends and every lane that is not off enters LOOP; L1 runs away and L2 toward
in mode 3. `far` says that this end returns the symbols. -/
def Hub.enterLoop (h : Hub) (p : Port) (mode : Nat) (own far : Bool) : Hub :=
  let on := (List.finRange 4).filter fun (l : Lane) => h.laneState p l.val != 0
  let was := fun (l : Lane) => h.get (Obj.LANE_DIR p l)
  let dir := fun (l : Lane) => if l = 0 then 0 else if l = 3 then 1 else if mode = 3 then l.val - 1 else if was l = 1 then 1 else 0
  let h := h.endStreams p
  let h := if h.linkUp p then h.linkDown p 8 own else if h.trainStep p = 0 then h else (h.setEnd p 0).retree
  let h := (((h.stopTimers p).disarm (.backoff p)).put (Obj.LINK_STATE p) 0).l0Gone p
  on.foldl (fun h l => (h.toLane p l 5 (dir l)).loopPads p l mode far) h

end Sys2Proof.Machine
end

