-- ==== Sys2Proof/Machine/LinkCmds.lean ====
section
/-! DEFINITION. Commands of the trunk lanes and the Jensar link (chapters 05 and 06): training, references, markers, cells, lane
loss, single-lane retraining, test modes, pattern checking and eye scans. -/

namespace Sys2Proof.Machine

/-- A trunk's domain is on from the start of its training (R518, R520). -/
def Hub.trunkAwake (h : Hub) (p : Port) : Hub :=
  let d := 16 + p.val
  if h.domOn d then h
  else ((h.put (Obj.DOM_STATE d) 0).put (Obj.PD_WAKE_LAST d) (6 + 256 * d)).put (Obj.PD_WAKE_TIME d) h.time32

/-- TRAINING_START: Jensar mode is entered on the port (R200, R213). -/
def Hub.modeEntered (h : Hub) (p : Port) : Hub :=
  let h := h.setLink p fun k => { k with mode := true }
  if h.get (Obj.TK_TEST_MODE p) ≠ 0 ∨ h.links[p].farLoop ∨ h.linkUp p ∨ h.trainStep p ≠ 0 then h
  else (h.trunkAwake p).trainStart p

/-- Meaning of TRAINING_START. -/
def execTrainingStart (p : Port) (s : State) : Host.Outcome State Fault Refusal := s.run fun h => h.modeEntered p

/-- Meaning of TRAINING_FRAME_RX. -/
def execTrainingFrameRx (p : Port) (t : TrainIn) (s : State) : Host.Outcome State Fault Refusal := s.run fun h => h.trainRx p t

/-- The fault code of a step whose bound has passed (R202). -/
def stepFault (s : Nat) : Nat := if s ≤ 2 then 1 else if s = 4 then 5 else 6

/-- The bound of a step has passed: step 1 goes on to step 2, whose bound decides (R202 code 1); any other ends in its fault. -/
def Hub.stepLate (h : Hub) (p : Port) : Hub :=
  let s := h.trainStep p
  if !h.due (.trainStep p) || s == 0 then h else if s = 1 then h.enterStep p 2 else h.trainFault p (stepFault s)

/-- Meaning of TRAINING_FAULT_TIMEOUT (R202). -/
def execTrainingFaultTimeout (p : Port) (s : State) : Host.Outcome State Fault Refusal := s.run fun h => h.stepLate p

/-- Meaning of PATH_WAIT_EXPIRED: every hold on the hub's ports ends (R663). -/
def execPathWaitExpired (s : State) : Host.Outcome State Fault Refusal := s.run fun h =>
  if h.due .pathWait then
    let h := { h.disarm .pathWait with pathOver := true }
    let held := (List.finRange 2).filter fun p => h.links[p].pathHold
    held.foldl Hub.step3 (if held.isEmpty then h else h.event 0x69 Obj.PATH_WAIT)
  else h

/-- Meaning of BACKOFF_WAIT_EXPIRY (R213). -/
def execBackoffWaitExpiry (p : Port) (s : State) : Host.Outcome State Fault Refusal := s.run fun h =>
  if h.due (.backoff p) && h.get (Obj.LINK_STATE p) == 12 then h.trainStart p else h

/-- Full retraining by command, at a codeword boundary: a link that is up goes down with cause 9 and waits, any other port in Jensar mode
that is in no test loop trains (R147, R213, R214). -/
def Hub.retrain (h : Hub) (p : Port) : Hub :=
  if h.linkUp p then h.linkDown p 9 true
  else if h.links[p].mode && h.get (Obj.TK_TEST_MODE p) == 0 && !h.links[p].farLoop then (h.stopTimers p).trainStart p
  else h

/-- Meaning of RETRAIN_CMD. -/
def execRetrainCmd (o : Origin) (p : Port) (v : W32) (s : State) : Host.Outcome State Fault Refusal := s.run fun h =>
  h.guarded o (Obj.RETRAIN_CMD p) v.toNat fun h => (rcOk, h.retrain p)

/-- This port is a leaf end whose L0 is or can be the reference: its training has reached step 4, or its link is up. -/
def Hub.leafClock (h : Hub) (p : Port) : Bool := h.trunkEnd p == 2 && (h.linkUp p || Nat.ble 4 (h.trainStep p))

/-- L0 of a leaf end is acquired and the PLL can lock to it (R139, R140). -/
def Hub.l0Locked (h : Hub) (p : Port) : Hub :=
  if h.leafClock p then (h.setLink p fun k => { k with l0Lock := true }).refChoose else h

/-- Meaning of REF_PLL_LOCK: the PLL tracks the uplink that came up first, or before that the one that locked first (R16, R140). -/
def execRefPllLock (p : Port) (s : State) : Host.Outcome State Fault Refusal := s.run fun h => h.l0Locked p

/-- Meaning of CODEWORD_RX: the line symbols of a codeword on a lane. -/
def execCodewordRx (p : Port) (l : Lane) (symbols : List (Fin 4)) (s : State) : Host.Outcome State Fault Refusal :=
  s.run fun h => h.codeword p l symbols

/-- FEC_DEGRADED where the corrections of the last 100 ms call for it, at most once per second per lane (R197). -/
def Hub.fecDegraded (h : Hub) (p : Port) (l : Lane) : Hub :=
  if !h.linkUp p || h.laneState p l != 2 || !h.fecHigh p l then h
  else if h.links[p].fecAt.any fun x => x.1 == l.val && Nat.ble (h.now + 1 - x.2) 1000000000 then h
  else (h.event 0x27 (Obj.SYM_CORRECTED (laneIx p l))).setLink p fun k => { k with fecAt := assocSet k.fecAt l h.now }

/-- Meaning of FEC_DEGRADED. -/
def execFecDegraded (p : Port) (l : Lane) (s : State) : Host.Outcome State Fault Refusal := s.run fun h => h.fecDegraded p l

/-- Meaning of MARKER_RX. -/
def execMarkerRx (p : Port) (l : Lane) (block : List Byte) (off : W32) (s : State) : Host.Outcome State Fault Refusal :=
  s.run fun h => h.marker p l block (signed 32 off.toNat)

/-- Meaning of MARKER_MISSED. -/
def execMarkerMissed (p : Port) (l : Lane) (s : State) : Host.Outcome State Fault Refusal := s.run fun h => h.markerMissed p l

/-- The phase at which a lane is received, in UI: a change beyond ±8 UI of the phase recorded at training is an alignment loss (R141). -/
def Hub.alignmentLoss (h : Hub) (p : Port) (l : Lane) (phase : Int) : Hub :=
  if !h.linkUp p || h.laneState p l != 2 || !h.receives p l then h
  else
    let rec_ := (h.lane p l).phase0[dirNo (h.get (Obj.LANE_DIR p l))]
    if Nat.ble (phase - rec_).natAbs 8 then h.setLane p l fun s => { s with live := { s.live with phase := phase } }
    else (h.bump (Obj.ALIGN_SLIPS (laneIx p l))).laneLost p l 2

/-- Meaning of ALIGNMENT_LOSS. -/
def execAlignmentLoss (p : Port) (l : Lane) (phase : W32) (s : State) : Host.Outcome State Fault Refusal :=
  s.run fun h => h.alignmentLoss p l (signed 32 phase.toNat)

/-- Meaning of CELL_RX: the next decoded cell in order, or a cell given as it stands after decoding. -/
def execCellRx (p : Port) (cell : Option (Lane × List Byte × List Byte)) (s : State) : Host.Outcome State Fault Refusal :=
  s.run fun h => match cell with
    | some (l, hdr, body) => h.cellRx p l hdr body
    | none => h.cellNext p

/-- No signal for 200 ns, watched on a lane that is ACTIVE and received here (R211). -/
def Hub.noSignal (h : Hub) (p : Port) (l : Lane) : Hub :=
  if h.linkUp p && h.laneState p l == 2 && h.receives p l then h.laneLost p l 1 else h

/-- Meaning of NO_SIGNAL. -/
def execNoSignal (p : Port) (l : Lane) (s : State) : Host.Outcome State Fault Refusal := s.run fun h => h.noSignal p l

/-- Three epochs without a link control cell, or at a root end without the leaf's epoch control cell (R211, R228). -/
def Hub.ctrlLost (h : Hub) (p : Port) : Bool :=
  let k := h.links[p]
  h.linkUp p && (Nat.ble 3 k.ctrlGap || (h.trunkEnd p == 1 && Nat.ble 3 k.reportGap))

/-- Meaning of CONTROL_CELL_TIMEOUT (R211). -/
def execControlCellTimeout (p : Port) (s : State) : Host.Outcome State Fault Refusal := s.run fun h =>
  if h.ctrlLost p then h.linkDown p 4 true else h

/-- A retrain control cell: the whole link, or lane L1 or L2 in the direction it names, where the lane is ACTIVE in it here: no other state
has this event in R147 (R192, R211). -/
def Hub.retrainCell (h : Hub) (p : Port) (c : List Byte) : Hub :=
  let l := byteAt c 2
  if !h.linkUp p then h
  else if l = 0 then h.linkDown p 5 false
  else if hl : 1 ≤ l ∧ l ≤ 2 then
    (if h.laneState p l = 2 ∧ h.get (Obj.LANE_DIR p l) = byteAt c 3 % 2 then h.laneTrain p ⟨l, by omega⟩ else h)
  else h

/-- Meaning of RETRAIN_CELL_RX. -/
def execRetrainCellRx (p : Port) (content : Option (List Byte)) (s : State) : Host.Outcome State Fault Refusal := s.run fun h =>
  match h.ctrlTake p 5 content with
  | (some c, h) => h.retrainCell p c
  | (none, h) => h

/-- Meaning of SINGLE_LANE_RETRAIN_START: L1 or L2 of a link that is up, while it is ACTIVE (R147, R697). -/
def execSingleLaneRetrainStart (p : Port) (l : Lane) (s : State) : Host.Outcome State Fault Refusal := s.run fun h =>
  if h.linkUp p && (l.val == 1 || l.val == 2) && h.laneState p l == 2 then h.laneTrain p l else h

/-! ### The back-channel (R150, R151, R199 bytes 26 and 27, R697) -/

/-- Meaning of EQ_BACKCHANNEL_RX. -/
def execEqBackchannelRx (p : Port) (content : Option (List Byte)) (s : State) : Host.Outcome State Fault Refusal := s.run fun h =>
  match h.ctrlTake p 6 content with
  | (some c, h) => h.eqCell p c
  | (none, h) => h

/-- Meaning of SINGLE_LANE_RETRAIN_END: whether the lane has trained, its skew against the fixed lane in ps, and its receiver's values. -/
def execSingleLaneRetrainEnd (p : Port) (l : Lane) (pass : Bool) (skew : W32) (rx : RxIn) (s : State) : Host.Outcome State Fault Refusal :=
  s.run fun h => h.laneTrained p l pass skew rx

/-- One step of continuous adaptation of the values in use (R153): the CTLE code moves by at most one step each 10 µs; the DFE taps and
thresholds follow the traffic, whose values come from outside. -/
def Hub.adapt (h : Hub) (p : Port) (l : Lane) (move : Nat) (taps : Vector W32 3) (slice : Nat) : Hub :=
  if h.laneState p l != 2 || !h.receives p l || h.eff (Obj.LANE_ADAPT p l) != 0 then h
  else
    let recent := h.links[p].ctleAt.any fun x => x.1 == l.val && Nat.ble (h.now + 1) (x.2 + us 10)
    let step := !recent && (move == 1 || move == 2)
    let h := h.setLane p l fun s => { s with live := { s.live with
      ctle := if !step then s.live.ctle else if move = 1 then min 31 (s.live.ctle + 1) else s.live.ctle - 1
      dfe1 := taps[0].toNat, dfe2 := taps[1].toNat, dfe3 := taps[2].toNat, slice := sliceBits (h.links[p]).rate slice } }
    if step then h.setLink p fun k => { k with ctleAt := assocSet k.ctleAt l h.now } else h

/-- Meaning of CTLE_ADAPT_STEP. -/
def execCtleAdaptStep (p : Port) (l : Lane) (move : Fin 3) (taps : Vector W32 3) (slice : BitVec 24) (s : State) :
    Host.Outcome State Fault Refusal :=
  s.run fun h => h.adapt p l move taps slice.toNat

/-! ### Test modes and patterns -/

/-- The port returns to service by full training where Jensar mode is entered (R171). -/
def Hub.inService (h : Hub) (p : Port) : Hub :=
  let was := h.get (Obj.TK_TEST_MODE p)
  let h := h.put (Obj.TK_TEST_MODE p) 0
  if was = 0 then h
  else
    let h := (List.range 4).foldl (fun h l => h.put (Obj.TST_STATUS p l) 0) h
    if h.links[p].mode then h.trainStart p else h.lanesOff p

/-- Meaning of TEST_MODE_IN_SERVICE. -/
def execTestModeInService (o : Origin) (p : Port) (s : State) : Host.Outcome State Fault Refusal := s.run fun h =>
  h.guarded o (Obj.TK_TEST_MODE p) 0 fun h => (rcOk, h.inService p)

/-- Meaning of TEST_MODE_SERIAL_LOOP (R168). -/
def execTestModeSerialLoop (o : Origin) (p : Port) (s : State) : Host.Outcome State Fault Refusal := s.run fun h =>
  h.guarded o (Obj.TK_TEST_MODE p) 1 fun h => (rcOk, (h.enterLoop p 1 true false).put (Obj.TK_TEST_MODE p) 1)

/-- Meaning of TEST_MODE_PARALLEL_LOOP (R168). -/
def execTestModeParallelLoop (o : Origin) (p : Port) (s : State) : Host.Outcome State Fault Refusal := s.run fun h =>
  h.guarded o (Obj.TK_TEST_MODE p) 2 fun h => (rcOk, (h.enterLoop p 2 true false).put (Obj.TK_TEST_MODE p) 2)

/-- A request of the far-end loop by the root end of a link that is up (R169); whether the far end honours it is the far end's. -/
def Hub.farLoopAsk (h : Hub) (p : Port) (honoured : Bool) : Nat × Hub :=
  if h.trunkEnd p = 1 ∧ h.linkUp p then
    let h := h.putCell p (laneNo (h.fixedLane p)) (sealHdr 0 0 0 3 0xE0 (h.get (Obj.LINK_EPOCH_COUNT p) % 256)) [3, 1, 1]
    if honoured then (rcOk, (h.enterLoop p 3 false false).put (Obj.TK_TEST_MODE p) 3)
    else (rcOk, h.put (Obj.TST_STATUS p 0) 3)
  else (rcOutOfRange, h)

/-- Meaning of TEST_MODE_FAR_LOOP. -/
def execTestModeFarLoop (o : Origin) (p : Port) (honoured : Bool) (s : State) : Host.Outcome State Fault Refusal := s.run fun h =>
  h.guarded o (Obj.TK_TEST_MODE p) 3 fun h => h.farLoopAsk p honoured

/-- A loop request at the far end: honoured while `TK_FAR_LOOP_ALLOW` = 1; a leave request ends the loop (R169, R192). -/
def Hub.farLoopRx (h : Hub) (p : Port) (c : List Byte) : Hub :=
  if byteAt c 2 = 1 then
    if h.linkUp p && h.trunkEnd p == 2 && h.flag (Obj.TK_FAR_LOOP_ALLOW p) then
      ((h.enterLoop p 3 false true).setLink p fun k => { k with farLoop := true }).arm (.farLoop p) 1000000000
    else h
  else h.leaveLoop p

/-- Meaning of FAR_LOOP_REQUEST_RX. -/
def execFarLoopRequestRx (p : Port) (content : Option (List Byte)) (s : State) : Host.Outcome State Fault Refusal := s.run fun h =>
  match h.ctrlTake p 3 content with
  | (some c, h) => h.farLoopRx p c
  | (none, h) => h

/-- Meaning of FAR_LOOP_TIMEOUT (R171). -/
def execFarLoopTimeout (p : Port) (s : State) : Host.Outcome State Fault Refusal := s.run fun h =>
  if h.due (.farLoop p) then h.leaveLoop p else h

/-- The lane whose checker a pattern command on lane `l` concerns: in mode 3, L3 and L2 check what L0 and L1 send (R170). -/
def Hub.checker (h : Hub) (p : Port) (l : Lane) : Nat := if h.get (Obj.TK_TEST_MODE p) = 3 ∧ l.val < 2 then 3 - l.val else l.val

/-- SSPRQ is a pattern of PAM4 rates only (R164). -/
def Hub.patternOk (h : Hub) (p : Port) : Bool := h.get (Obj.TK_PATTERN p) != 3 || pam4 (h.links[p]).rate

/-- What a lane's driver gives in a loop: a pattern leaves the balls in mode 3 only (R168, R170). -/
def Hub.tstDrive (h : Hub) (p : Port) (l : Lane) (d : Drive) : Hub :=
  h.setLane p l fun s => if s.loop = some .far ∧ l.val < 2 then { s with pads := { s.pads with drive := d } } else s

/-- The generator of a lane that sends starts on the pattern of `TK_PATTERN` at this write, and its checker searches for it; in mode 3, L2
and L3 of the root end receive and have no generator (R168, R170). -/
def Hub.tstBegin (h : Hub) (p : Port) (l : Lane) : Hub :=
  let m := laneNo (h.checker p l)
  let pat := h.eff (Obj.TK_PATTERN p)
  let w := patWidth pat
  let sends := (h.lane p l).loop != some .far || Nat.ble l.val 1
  let h := if sends then
      (h.setLane p l fun s => { s with gen := some { pattern := pat, reg := Config.patternSeed w % (2 ^ w - 1) + 1 } }).tstDrive p l (.pattern pat)
    else h
  let h := h.setLane p m fun s => { s with tst := some { pattern := pat } }
  ((h.put (Obj.TST_STATUS p m) 1).put (Obj.TST_ERRORS p m) 0).put (Obj.TST_BITS p m) 0

/-- The pattern written takes effect at a write of `TST_CONTROL` of any kind (R164). -/
def Hub.tstPattern (h : Hub) (p : Port) : Hub := h.takeUnit .tst fun w => portOfKey w.key == p.val

/-- The generator and checker start in a loop mode (R170). -/
def Hub.tstStart (h : Hub) (p : Port) (l : Lane) : Nat × Hub :=
  if !h.patternOk p then (rcOutOfRange, h)
  else
    let h := h.tstPattern p
    (rcOk, if h.laneState p l = 5 ∧ (h.lane p l).loop ≠ some .returned then h.tstBegin p l else h)

/-- Meaning of TST_START. -/
def execTstStart (o : Origin) (p : Port) (l : Lane) (s : State) : Host.Outcome State Fault Refusal := s.run fun h =>
  h.guarded o (Obj.TST_CONTROL p l) 1 fun h => h.tstStart p l

/-- The generator and checker stop (R170). -/
def Hub.tstStop (h : Hub) (p : Port) (l : Lane) : Hub :=
  let m := laneNo (h.checker p l)
  let h := h.tstPattern p
  let h := if (h.lane p l).gen.isSome then (h.setLane p l fun s => { s with gen := none }).tstDrive p l .active else h
  if (h.lane p m).tst.isSome then (h.setLane p m fun s => { s with tst := none }).put (Obj.TST_STATUS p m) 0 else h

/-- Meaning of TST_STOP. -/
def execTstStop (o : Origin) (p : Port) (l : Lane) (s : State) : Host.Outcome State Fault Refusal := s.run fun h =>
  h.guarded o (Obj.TST_CONTROL p l) 2 fun h => (rcOk, h.tstStop p l)

/-- The next bit of the generated stream goes out inverted; a generator whose pattern has been rewritten starts on the new one (R164,
R170). -/
def Hub.tstInject (h : Hub) (p : Port) (l : Lane) : Hub :=
  let h := h.tstPattern p
  let h := match (h.lane p l).gen with
    | some g => if g.pattern = h.eff (Obj.TK_PATTERN p) then h else h.tstBegin p l
    | none => h
  h.setLane p l fun s => { s with gen := s.gen.map fun g => { g with flip := true } }

/-- Meaning of TST_INJECT_ERROR. -/
def execTstInjectError (o : Origin) (p : Port) (l : Lane) (s : State) : Host.Outcome State Fault Refusal := s.run fun h =>
  h.guarded o (Obj.TST_CONTROL p l) 3 fun h => (rcOk, h.tstInject p l)

/-- Symbols sent in a nanosecond at a rate (R134). -/
def symPerNs (rate : Nat) : Nat := if rate = 1 then 32 else if rate = 4 then 8 else 16

/-- Symbols that come back in error from the serial loop, whose path is analog (R168 mode 1; log entry 78). -/
def noisy (rate t : Nat) (xs : List Level) : List Level :=
  (xs.zip (List.range xs.length)).map fun (x, i) => if Config.serialError t i then PatternGen.flipped rate x else x

/-- A generator sends the symbols of a nanosecond: out of the balls in mode 3, back into its own lane's checker in modes 1 and 2 (R168,
R170). -/
def Hub.patternGo (h : Hub) (p : Port) (l : Lane) : Hub :=
  match (h.lane p l).gen with
  | none => h
  | some g =>
    let rate := h.links[p].rate
    let (xs, g) := PatternGen.run rate (symPerNs rate) g
    let h := h.setLane p l fun s => { s with gen := some g }
    match (h.lane p l).loop with
    | some .far => h.emit (.line p l xs)
    | some .serial => h.checkLine p l (noisy rate h.now xs)
    | some .parallel => h.checkLine p l xs
    | _ => h

/-- The generators of a port that is in a loop. -/
def Hub.patternsGo (h : Hub) (p : Port) : Hub :=
  if h.get (Obj.TK_TEST_MODE p) = 0 then h else (List.finRange 4).foldl (fun h l => h.patternGo p l) h

/-! ### Eye scans -/

/-- A scan starts on a lane whose receiver at this end is ACTIVE or in LOOP, unless one is running or paused (R174, R178). -/
def Hub.eyeStart (h : Hub) (p : Port) (l : Lane) : Hub :=
  if (h.eyeOf p l).isSome || !h.eyeRuns p l then h
  else
    let e : EyeScan := { lane := l, dir := h.get (Obj.LANE_DIR p l), dwell := h.get (Obj.EYE_DWELL p l), start := h.time32, rate := h.links[p].rate }
    (((h.setLink p fun k => { k with eyes := k.eyes ++ [e] }).put (Obj.EYE_STATUS p l) 1).put (Obj.EYE_POINTS p l) 0).eyeNext p l

/-- Meaning of EYE_SCAN_START. -/
def execEyeScanStart (o : Origin) (p : Port) (l : Lane) (s : State) : Host.Outcome State Fault Refusal := s.run fun h =>
  h.guarded o (Obj.EYE_CONTROL p l) 1 fun h => (rcOk, h.eyeStart p l)

/-- An abort takes effect at the next grid point (R57, R176); a paused scan measures none, and ends at once (log entry 80). -/
def Hub.eyeAbort (h : Hub) (p : Port) (l : Lane) : Hub :=
  match h.eyeOf p l with
  | some e => if e.paused then h.eyeEnd p l 4 else h.setEye p l fun e => { e with abort := true }
  | none => h

/-- Meaning of EYE_SCAN_ABORT (R176, R178). -/
def execEyeScanAbort (o : Origin) (p : Port) (l : Lane) (s : State) : Host.Outcome State Fault Refusal := s.run fun h =>
  h.guarded o (Obj.EYE_CONTROL p l) 2 fun h => (rcOk, h.eyeAbort p l)

/-- A grid point's dwell ends (R173): the count of mismatches among its 2^d symbols is kept, and the scan ends or the sampler moves on. -/
def Hub.eyePoint (h : Hub) (p : Port) (l : Lane) (count : Nat) : Hub :=
  match h.eyeOf p l with
  | none => h
  | some e =>
    if e.paused || !Nat.ble count (2 ^ e.dwell) then h
    else
      let n := e.counts.length
      let h := (h.setEye p l fun x => { x with counts := x.counts ++ [(n / 64, n % 64, count)] }).put (Obj.EYE_POINTS p l) (n + 1)
      if Nat.ble 8192 (n + 1) then h.eyeEnd p l 3 else if e.abort then h.eyeEnd p l 4 else h.eyeNext p l

/-- Meaning of EYE_POINT_DONE. -/
def execEyePointDone (p : Port) (l : Lane) (count : W32) (s : State) : Host.Outcome State Fault Refusal := s.run fun h =>
  if h.due (.eyePoint p l) then h.eyePoint p l count.toNat else h

/-! ### Turnaround (R147, R158) -/

/-- Meaning of TURNAROUND_FAILED. -/
def execTurnaroundFailed (p : Port) (l : Lane) (s : State) : Host.Outcome State Fault Refusal := s.run fun h =>
  if h.due (.turnaround p l) then h.turnFailed p l else h

/-! ### Objects read from the lanes (R164 to R166, R170, R247) -/

/-- A value of R165 in the direction `d`: the values in use where the lane is ACTIVE in it here, else the stored set; 0 where this end holds
none. -/
def Hub.laneView (h : Hub) (p : Port) (l : Lane) (d : Fin 2) (i : Nat) : Nat :=
  let s := h.lane p l
  if i = 0 then s.ffe[d].getD 0
  else
    let r := if h.laneState p l = 2 ∧ h.get (Obj.LANE_DIR p l) = d.val ∧ h.receives p l then s.live else s.sets[d].getD {}
    [0, r.ctle, r.dfe1, r.dfe2, r.dfe3, r.slice].getD i 0

/-- `ALLOT_USABLE`: the usable codes at the root end of a link that is up (R222, R247). -/
def Hub.usableNow (h : Hub) (p : Nat) : Nat := if h.linkUp p && h.trunkEnd p == 1 then h.usable (portNo p) else 0

/-- Trunk objects that are read from the lanes. -/
def Hub.trunkView (h : Hub) (k : Nat) : Option Nat :=
  let p : Port := Fin.ofNat 2 (k / 65536)
  let l : Lane := Fin.ofNat 4 (k / 256)
  let i := k / 256 - 0x3000 - 0x100 * p.val
  let s := k % 256
  if k = Obj.PAYLOAD_AWAY 0 ∨ k = Obj.PAYLOAD_AWAY 1 then some (wholeMbps (h.payload (k / 256 % 2) 0))
  else if k = Obj.PAYLOAD_TOWARD 0 ∨ k = Obj.PAYLOAD_TOWARD 1 then some (wholeMbps (h.payload (k / 256 % 2) 1))
  else if k = Obj.ALLOT_USABLE 0 ∨ k = Obj.ALLOT_USABLE 1 then some (h.usableNow (k / 256 % 2))
  else if ¬ (0x3000 ≤ k / 256 ∧ k / 256 ≤ 0x31FF) then none
  else if 0x10 ≤ i ∧ i ≤ 0x13 ∧ 3 ≤ s ∧ s ≤ 0xE then some (h.laneView p l (dirNo ((s - 3) / 6)) ((s - 3) % 6))
  else if k = Obj.TK_SSC_MEASURED p ∧ h.get (Obj.TK_REF_SOURCE p) = 0 then some 0
  else none

end Sys2Proof.Machine
end

