-- ==== Sys2Proof/Machine/Allot.lean ====
section
/-! DEFINITION. Lane allotment and roles (chapter 07): epoch control cells, the planner's choice, allotment changes of a link at an
epoch boundary, role swaps; and the key phases of a link (R208, R614 to R616). -/

namespace Sys2Proof.Machine

/-! ### Payloads of codes (R215, R224) -/

/-- Payload of a code in a direction, exact, at the rate in use (R215, R696). -/
def Hub.codePay (h : Hub) (p code dir : Nat) : Nat :=
  lanesPay (((List.range 4).filter fun l => codeDir code l == dir && !codeQuiet code l).length) (h.get (Obj.TK_RATE p))

/-- Payload of a code in a direction over the lanes that are neither FAILED nor in single-lane retraining (R216). -/
def Hub.codePayNow (h : Hub) (p code dir : Nat) : Nat :=
  lanesPay (((List.range 4).filter fun l => codeDir code l == dir && !codeQuiet code l &&
    h.laneState p l != 6 && h.laneState p l != 1).length) (h.get (Obj.TK_RATE p))

/-- The choice lowers a payload of `prev` and raises none (R224). -/
def Hub.lowers (h : Hub) (p prev c : Nat) : Bool :=
  let a := fun k => h.codePay p k 0
  let t := fun k => h.codePay p k 1
  (Nat.ble (a c + 1) (a prev) || Nat.ble (t c + 1) (t prev)) && Nat.ble (a c) (a prev) && Nat.ble (t c) (t prev)

/-- A choice held back, or taken, with its count from `before`, the count as the epoch opened (R224). -/
def Hub.holdBack (h : Hub) (p before c : Nat) : Nat × Hub :=
  let prev := h.get (Obj.ALLOT_NEXT p)
  if h.lowers p prev c then
    let n := before + 1
    if n = h.eff (Obj.PLAN_DOWN_HOLD p) ∨ h.eff (Obj.PLAN_DOWN_HOLD p) < n then (c, h.put (Obj.DOWN_COUNT p) 0)
    else (prev, h.put (Obj.DOWN_COUNT p) n)
  else (c, h.put (Obj.DOWN_COUNT p) 0)

/-- A choice adjusted to the usable codes, with the event of its fallback (R226). -/
def Hub.adjusted (h : Hub) (p : Port) (c : Nat) : Nat × Hub :=
  let (c, fell) := adjustCode (h.usable p) (h.lanesBoth p) c
  (c, if fell then h.event 0x2A (Obj.ALLOT_PERMIT p) else h)

/-! ### Epoch control cells (R219, R220) -/

/-- Own depth and cabinet root by a path that does not run through the link (R219). -/
def Hub.outside (h : Hub) (p : Nat) : Nat × Nat :=
  if h.get Obj.ROLE_ACTIVE = 0 then (0, Config.unitId.toNat)
  else match h.uplinkBut p with
    | some q => if (h.farNow q).1 then ((h.farNow q).2.1 + 1, (h.farNow q).2.2) else (15, 0)
    | none => (15, 0)

/-- The content of this end's epoch control cell. -/
def Hub.epochCell (h : Hub) (p : Port) (ack late : Bool) : List Byte :=
  let root := b2n (h.trunkEnd p == 1)
  let (d, u) := h.outside p
  [1, 54, BitVec.ofNat 8 (root + 2 * b2n ack + 4 * b2n late)] ++ toBE 4 (h.get (Obj.LINK_EPOCH_COUNT p)) ++
    [BitVec.ofNat 8 (h.get (Obj.ALLOT_CURRENT p)), BitVec.ofNat 8 (h.get (Obj.ALLOT_NEXT p)), BitVec.ofNat 8 (h.get (Obj.ALLOT_AFTER p)),
      BitVec.ofNat 8 (h.usableHere p)] ++ toBE 4 (h.eff (Obj.ALLOT_PERMIT p)) ++
    ((List.range 8).flatMap fun c => toBE 2 (h.get (Obj.OCC_LOCAL p c))) ++
    ((List.range 8).flatMap fun c => toBE 2 (h.get (Obj.ENQ_LOCAL p c))) ++ [BitVec.ofNat 8 d] ++ toBE 8 u

/-- The root's epoch control cell with its announcement: fixed, the planner's, or prev (R220, R225, R227). -/
def Hub.rootSend (h : Hub) (p : Port) : Hub :=
  let k := h.links[p]
  let fixed := h.eff (Obj.ALLOT_MODE p) == 1
  let (code, late, h) :=
    if fixed then
      let (c, h) := h.adjusted p (h.eff (Obj.ALLOT_FIXED p))
      (c, false, h)
    else match k.choice with
      | some c => (c, false, h)
      | none =>
        (h.get (Obj.ALLOT_NEXT p), true, if k.late then h else (h.bump (Obj.PLAN_LATE p)).put (Obj.DOWN_COUNT p) 0)
  let h := (h.put (Obj.ALLOT_AFTER p) code).disarm (.rootSend p)
  let h := (h.sendCtrl p (h.epochCell p false late)).setLink p fun k => { k with announced := true, late := late }
  h.announceRate p (h.codePayNow p code 0)

/-- Meaning of ROOT_EPOCH_CONTROL_SEND. -/
def execRootEpochControlSend (p : Port) (s : State) : Host.Outcome State Fault Refusal := s.run fun h =>
  if h.linkUp p && h.trunkEnd p == 1 && h.due (.rootSend p) then h.rootSend p else h

/-- A difference of the code in effect (R237). -/
def Hub.mismatch (h : Hub) (p : Port) : Hub :=
  ((h.bump (Obj.ALLOT_MISMATCHES p)).event 0x2B (Obj.ALLOT_CURRENT p)).setLink p fun k => { k with
    mismAt := some (h.get (Obj.LINK_EPOCH_COUNT p)) }

/-- The far end's report kept: permit, demand, usable lanes, depth and root outside the link; own depth and root follow (R18). -/
def Hub.farReport (h : Hub) (p : Port) (c : List Byte) : Hub :=
  let h := h.put (Obj.FAR_PERMIT p) (ofBE (slice c 11 4))
  let h := (List.range 8).foldl (fun h i =>
    (h.put (Obj.OCC_FAR p i) (ofBE (slice c (15 + 2 * i) 2))).put (Obj.ENQ_FAR p i) (ofBE (slice c (31 + 2 * i) 2))) h
  let h := h.setLink p fun k => { k with farUsable := some (byteAt c 10 % 4), farOut := some (byteAt c 47 % 16, ofBE (slice c 48 8)) }
  if h.trunkEnd p = 2 then h.retree else h

/-- A received epoch control cell (R219, R220, R222, R237). -/
def Hub.epochRx (h : Hub) (p : Port) (c : List Byte) : Hub :=
  if !h.linkUp p then h
  else
    let own := h.get (Obj.LINK_EPOCH_COUNT p)
    let far := ofBE (slice c 3 4)
    let code := fun i => byteAt c i % 16
    let h := h.farReport p c
    let h := if code 7 ≠ h.get (Obj.ALLOT_CURRENT p) then h.mismatch p else h
    if h.trunkEnd p = 2 ∧ bitOf (byteAt c 2) 0 then
      -- the root's codes by link epoch count: in effect, for the next boundary, for the one after
      let at_ := fun n => if n ≤ far then code 7 else if n = far + 1 then code 8 else code 9
      let h := (h.put (Obj.ALLOT_NEXT p) (at_ (own + 1))).put (Obj.ALLOT_AFTER p) (at_ (own + 2))
      (h.setLink p fun k => { k with ackDue := true }).announceRate p (h.codePayNow p (code 9) 1)
    else if h.trunkEnd p = 1 ∧ !bitOf (byteAt c 2) 0 then
      ((h.setLink p fun k => { k with reported := true, reportGap := 0, acked := k.acked || bitOf (byteAt c 2) 1 }).disarm
        (.reportBound p)).icSet p.val
    else h

/-- Meaning of EPOCH_CONTROL_RX. -/
def execEpochControlRx (p : Port) (content : Option (List Byte)) (s : State) : Host.Outcome State Fault Refusal := s.run fun h =>
  match h.ctrlTake p 1 content with
  | (some c, h) => h.epochRx p c
  | (none, h) => h

/-- Meaning of REPORT_MISSING: the planner starts on the last report (R228). -/
def execReportMissing (p : Port) (s : State) : Host.Outcome State Fault Refusal := s.run fun h =>
  if h.linkUp p && h.trunkEnd p == 1 && h.due (.reportBound p) && !h.links[p].reported then
    ((h.bump (Obj.REPORT_MISSING p)).disarm (.reportBound p)).icSet p.val
  else h

/-! ### The planner's choice (R224 to R227) -/

/-- Cells waiting and enqueued of all classes, as a report gives them: the demand of R223 in units of 8.192 Mbit/s. -/
def Hub.demand (h : Hub) (p : Nat) (far : Bool) : Nat :=
  ((List.range 8).map fun c => if far then h.get (Obj.ENQ_FAR p c) + h.get (Obj.OCC_FAR p c)
    else h.get (Obj.ENQ_LOCAL p c) + h.get (Obj.OCC_LOCAL p c)).sum

/-- A demand with the headroom, in the units of the exact payloads times 100 000 (R223). -/
def Hub.required (h : Hub) (p : Nat) (far : Bool) : Nat := h.demand p far * 8192 * (100 + h.eff (Obj.PLAN_HEADROOM p)) * rateUnit

/-- A ratio of payload to requirement, as numerator and denominator; a requirement of 0 is unbounded (R223). -/
def ratioLe (a b : Nat × Nat) : Bool := if b.2 = 0 then true else if a.2 = 0 then false else Nat.ble (a.1 * b.2) (b.1 * a.2)

/-- The lesser of the two ratios of a code (R223). -/
def Hub.codeRatio (h : Hub) (p k : Nat) : Nat × Nat :=
  let a := (h.codePay p k 0 * 100000, h.required p false)
  let t := (h.codePay p k 1 * 100000, h.required p true)
  if ratioLe a t then a else t

/-- What `best` of R223 compares, the first part first: active reversible lanes, a pattern other than the home one, reversible lanes that
differ from prev in direction, the code. -/
def Hub.codeRank (h : Hub) (p k : Nat) : Nat :=
  let prev := h.get (Obj.ALLOT_NEXT p)
  let quiet := b2n (bitOf k 2) + b2n (bitOf k 3)
  let turned := b2n (bitOf k 0 != bitOf prev 0) + b2n (bitOf k 1 != bitOf prev 1)
  (2 - quiet) * 1000 + b2n (k % 4 != h.eff (Obj.ALLOT_INITIAL p) % 4) * 400 + turned * 100 + k

/-- `best` of R223: the first in its order. -/
def Hub.bestCode (h : Hub) (p : Nat) (ks : List Nat) : Option Nat :=
  ks.foldl (fun b k => match b with
    | none => some k
    | some x => if h.codeRank p k < h.codeRank p x then some k else some x) none

/-- The choice of R223 from the reports at hand; with no usable code, prev. -/
def Hub.planned (h : Hub) (p : Port) : Nat :=
  let usable := (List.range 16).filter fun k => bitOf (h.usable p) k
  let fits := fun k => Nat.ble (h.required p false) (h.codePay p k 0 * 100000) && Nat.ble (h.required p true) (h.codePay p k 1 * 100000)
  let top := usable.filter fun k => usable.all fun j => ratioLe (h.codeRatio p j) (h.codeRatio p k)
  (match h.bestCode p (usable.filter fits) with
    | some k => some k
    | none => h.bestCode p top).getD (h.get (Obj.ALLOT_NEXT p))

/-- A choice written by the planner engine: ignored in fixed mode, at a leaf end, and after the deadline. A later one in time replaces it
(log entry 19). -/
def Hub.planChoice (h : Hub) (p : Port) (v : Nat) : Hub :=
  let k := h.links[p]
  if !h.linkUp p || h.trunkEnd p != 1 || h.eff (Obj.ALLOT_MODE p) == 1 || !h.armed (.planDeadline p) || h.due (.planDeadline p) ||
    k.announced then h
  else
    let (c, h) := h.adjusted p v
    let (c, h) := h.holdBack p k.downAt c
    h.setLink p fun k => { k with choice := some c }

/-- The origin is the planner engine. -/
def Hub.isPlanner (h : Hub) (o : Origin) : Bool :=
  match o with
  | .se e => e.val == h.eff Obj.PLAN_ENGINE
  | _ => false

/-- Meaning of PLAN_CHOICE: a write of the value given, or, with none, of the choice that R223 makes. A write by any origin but the planner
engine is a rights violation (R227). -/
def execPlanChoice (o : Origin) (p : Port) (v : Option W32) (s : State) : Host.Outcome State Fault Refusal := s.run fun h =>
  let n := (v.map BitVec.toNat).getD (h.planned p)
  if h.isPlanner o then h.guarded o (Obj.PLAN_CHOICE p) n fun h => (rcOk, h.planChoice p n) else h.violate o 3

/-- Meaning of PLAN_LATE (R227). -/
def execPlanLate (p : Port) (s : State) : Host.Outcome State Fault Refusal := s.run fun h =>
  if h.due (.planDeadline p) && h.linkUp p && h.trunkEnd p == 1 then
    let h := h.disarm (.planDeadline p)
    if h.links[p].choice.isSome || h.eff (Obj.ALLOT_MODE p) == 1 then h
    else ((h.bump (Obj.PLAN_LATE p)).put (Obj.DOWN_COUNT p) 0).setLink p fun k => { k with late := true }
  else h

/-! ### Role swap (R239 to R244) -/

/-- A refusal or withdrawal counted (R244). -/
def Hub.swapRefused (h : Hub) (p : Port) (result reason : Nat) : Hub :=
  (((h.put (Obj.SWAP_RESULT p) result).put (Obj.SWAP_REASON p) reason).bump (Obj.SWAP_REFUSALS p)).event 0x2D (Obj.SWAP_REASON p)

/-- The condition of R241 that stands against a swap; 0 for none. A hub with two trunk ports that is a leaf on both has no port
left for children, so condition 7 never arises. -/
def Hub.swapReason (h : Hub) (p : Port) (cause : Nat) : Nat :=
  let k := h.links[p]
  let toRoot := h.trunkEnd p == 2
  let (od, _) := h.outside p
  let fd := (k.farOut.getD (15, 0)).1
  let (rd, ld) := if toRoot then (od, fd) else (fd, od)
  if !h.linkUp p || k.swapAt.isSome then 6
  else if (if toRoot then k.far.role == 0 else h.get Obj.ROLE_ACTIVE == 0) then 2
  else if rd = 15 ∧ ld ≠ 15 then 3
  else if rd ≠ 15 ∧ 8 < rd + 1 then 4
  else if cause = 0 ∧ h.sc7On p then 5
  else 0

/-- The own end role after a swap. -/
def Hub.swapped (h : Hub) (p : Nat) : Nat := if h.trunkEnd p = 1 then 2 else 1

/-- A swap message (R240). -/
def Hub.swapCell (h : Hub) (p : Port) (kind cause reason boundary : Nat) : Hub :=
  h.sendCtrl p ([7, 13, BitVec.ofNat 8 (kind + 4 * cause + 16 * reason)] ++ toBE 8 Config.unitId.toNat ++ toBE 4 boundary)

/-- This end requests a swap, or ends its request for a reason of R241. -/
def Hub.swapAsk (h : Hub) (p : Port) (cause : Nat) : Hub :=
  if h.links[p].swapReq.isSome then h
  else
    let r := h.swapReason p cause
    if r ≠ 0 then h.swapRefused p 3 r
    else
      let n := h.get (Obj.LINK_EPOCH_COUNT p)
      ((h.swapCell p 1 cause 0 (n + 8)).put (Obj.SWAP_STATE p) 1).setLink p fun k => { k with swapReq := some (n + 8, cause, n) }

/-- Meaning of SWAP_CMD: the request is made at the next epoch boundary (R239, R249). -/
def execSwapCmd (o : Origin) (p : Port) (v : W32) (s : State) : Host.Outcome State Fault Refusal := s.run fun h =>
  h.guarded o (Obj.SWAP_CMD p) v.toNat fun h => (rcOk, h.setLink p fun k => { k with swapCmd := true })

/-- R19 on both ends' depths and roots outside the link: the own end role it gives; before the far end's first report, the role in effect
(R239). -/
def Hub.evalEnd (h : Hub) (p : Port) : Nat :=
  let k := h.links[p]
  let (od, or) := h.outside p
  let (fd, fr) := k.farOut.getD (15, 0)
  let higher := if k.far.unit < Config.unitId.toNat then 1 else 2
  if h.get Obj.ROLE_ACTIVE = 0 then 1
  else if k.far.role = 0 then 2
  else if k.farOut.isNone then h.trunkEnd p
  else if od ≠ 15 ∧ fd = 15 then 1
  else if od = 15 ∧ fd ≠ 15 then 2
  else if od ≠ 15 ∧ fd ≠ 15 then
    if or = fr then (if od < fd then 1 else if fd < od then 2 else higher) else h.trunkEnd p
  else higher

/-- The roles R19 gives have differed for `SWAP_HOLD`: the end that would be root requests a swap. -/
def Hub.swapHold (h : Hub) (p : Port) : Hub :=
  match h.links[p].swapSince with
  | some t =>
    if h.linkUp p && h.flag (Obj.SWAP_AUTO p) && h.evalEnd p == 1 && h.trunkEnd p == 2 && h.links[p].swapAt.isNone &&
      Nat.ble (t + ms (h.get (Obj.SWAP_HOLD p))) h.now then h.swapAsk p 1 else h
  | none => h

/-- Meaning of SWAP_HOLD_EXPIRY. -/
def execSwapHoldExpiry (p : Port) (s : State) : Host.Outcome State Fault Refusal := s.run fun h => h.swapHold p

/-- A swap agreed at a boundary. -/
def Hub.swapAgreed (h : Hub) (p : Port) (b e : Nat) : Hub :=
  ((h.put (Obj.SWAP_STATE p) 2).put (Obj.SWAP_BOUNDARY p) b).setLink p fun k => { k with swapReq := none, swapAt := some (b, e) }

/-- A received request: collision, refusal or acceptance (R241, R242). -/
def Hub.swapRequest (h : Hub) (p : Port) (c : List Byte) : Hub :=
  let b := ofBE (slice c 11 4)
  let cause := byteAt c 2 / 4 % 4
  let lost := fun (h : Hub) => h.setLink p fun k => { k with swapReq := none }
  match h.links[p].swapReq with
  | some (mine, _, _) =>
    let h := (lost h).put (Obj.SWAP_STATE p) 0
    if ofBE (slice c 3 8) < Config.unitId.toNat then
      if h.trunkEnd p = 1 then h.swapRefused p 4 1 else h.swapAgreed p mine 1
    else
      let h := h.swapRefused p 2 1
      if h.trunkEnd p = 2 then h else h.swapAgreed p b 2
  | none =>
    if !h.linkUp p then h
    else
      let r := h.swapReason p cause
      if r ≠ 0 then (h.swapCell p 3 cause r b).swapRefused p 3 r
      else (h.swapCell p 2 cause 0 b).swapAgreed p b (h.swapped p)

/-- A swap message of a kind: the one given, or the oldest received. -/
def Hub.swapTake (h : Hub) (p : Port) (kind : Nat) (given : Option (List Byte)) : Option (List Byte) × Hub :=
  let is := fun (c : List Byte) => byteAt c 0 == 7 && byteAt c 2 % 4 == kind
  match given with
  | some c => (if is c then some c else none, h.setLink p fun k => { k with ctrlGap := 0 })
  | none => match h.links[p].ctrlIn.find? is with
    | some c => (some c, h.setLink p fun k => { k with ctrlIn := k.ctrlIn.erase c })
    | none => (none, h)

/-- Meaning of SWAP_REQUEST_RX. -/
def execSwapRequestRx (p : Port) (content : Option (List Byte)) (s : State) : Host.Outcome State Fault Refusal := s.run fun h =>
  match h.swapTake p 1 content with
  | (some c, h) => h.swapRequest p c
  | (none, h) => h

/-- An accept binds the requester to the boundary it proposed (R240). -/
def Hub.swapAccept (h : Hub) (p : Port) (c : List Byte) : Hub :=
  match h.links[p].swapReq with
  | some (b, _, _) => if ofBE (slice c 11 4) = b then h.swapAgreed p b (h.swapped p) else h
  | none => h

/-- Meaning of SWAP_ACCEPT_RX. -/
def execSwapAcceptRx (p : Port) (content : Option (List Byte)) (s : State) : Host.Outcome State Fault Refusal := s.run fun h =>
  match h.swapTake p 2 content with
  | (some c, h) => h.swapAccept p c
  | (none, h) => h

/-- A refusal ends the request (R244). -/
def Hub.swapRefusal (h : Hub) (p : Port) (c : List Byte) : Hub :=
  match h.links[p].swapReq with
  | some _ => ((h.setLink p fun k => { k with swapReq := none }).put (Obj.SWAP_STATE p) 0).swapRefused p 2 (byteAt c 2 / 16)
  | none => h

/-- Meaning of SWAP_REFUSE_RX. -/
def execSwapRefuseRx (p : Port) (content : Option (List Byte)) (s : State) : Host.Outcome State Fault Refusal := s.run fun h =>
  match h.swapTake p 3 content with
  | (some c, h) => h.swapRefusal p c
  | (none, h) => h

/-- A request without reply four epochs after it was sent (R240). -/
def Hub.swapNoReply (h : Hub) (p : Port) : Hub :=
  match h.links[p].swapReq with
  | some (_, _, at_) =>
    if at_ + 4 ≤ h.get (Obj.LINK_EPOCH_COUNT p) then
      ((h.setLink p fun k => { k with swapReq := none }).put (Obj.SWAP_STATE p) 0).put (Obj.SWAP_RESULT p) 5
    else h
  | none => h

/-- Meaning of SWAP_NO_REPLY. -/
def execSwapNoReply (p : Port) (s : State) : Host.Outcome State Fault Refusal := s.run fun h => h.swapNoReply p

/-- The agreed boundary: both ends retrain with the agreed roles, without LINK_DOWN (R243). -/
def Hub.swapRetrain (h : Hub) (p : Port) (e : Nat) : Hub :=
  let h := ((h.upFor p).stopTimers p).tunnelsEnd p
  let h := ((h.setEnd p 0).put (Obj.LINK_STATE p) 0).put (Obj.TK_RATE p) 0
  let h := (h.retree).put (Obj.SWAP_STATE p) 3
  let h := (h.setLink p fun k => { k with swapAt := none, swapEnd := some e }).rescale p
  h.trainStart p

/-! ### Key phases (R208, R614 to R616) -/

/-- The announcement of the phase change of the transmit direction (R615). -/
def Hub.phaseCell (h : Hub) (p : Port) (b : Nat) : Hub :=
  let j := h.links[p].txJ + 1
  h.sendCtrl p ([4, 14, 1] ++ toBE 4 b ++ [BitVec.ofNat 8 (j % 2)] ++ toBE 8 (kcvOf (phaseKey h.links[p].txS j)))

/-- A phase change announced for the first boundary from `b` on that lies two whole epochs after the announcement. -/
def Hub.announcePhase (h : Hub) (p : Port) (b : Nat) : Hub :=
  if h.linkUp p && h.get (Obj.KEY_STATE p) == 1 && h.links[p].txChange.isNone then
    let b := max b (h.get (Obj.LINK_EPOCH_COUNT p) + 3)
    (h.phaseCell p b).setLink p fun k => { k with txChange := some b }
  else h

/-- Meaning of PHASE_CHANGE. -/
def execPhaseChange (o : Origin) (p : Port) (v : W32) (s : State) : Host.Outcome State Fault Refusal := s.run fun h =>
  h.guarded o (Obj.PHASE_CHANGE p) v.toNat fun h => (rcOk, h.announcePhase p 0)

/-- The boundary at which `PHASE_INTERVAL` epochs have passed since the last phase change, announced as soon as its announcement is due
(R208). -/
def Hub.phaseInterval (h : Hub) (p : Port) : Hub :=
  let b := h.links[p].phaseAt + h.eff (Obj.PHASE_INTERVAL p)
  if b ≤ h.get (Obj.LINK_EPOCH_COUNT p) + 3 then h.announcePhase p b else h

/-- Meaning of PHASE_INTERVAL_EXPIRY (R208). -/
def execPhaseIntervalExpiry (p : Port) (s : State) : Host.Outcome State Fault Refusal := s.run fun h => h.phaseInterval p

/-- A type 0x04 cell received (R616). -/
def Hub.phaseRx (h : Hub) (p : Port) (c : List Byte) : Hub :=
  let k := h.links[p]
  if !h.linkUp p || h.get (Obj.KEY_STATE p) != 1 then h
  else if bitOf (byteAt c 2) 1 then ((h.put (Obj.KEY_STATE p) 2).event 0x62 (Obj.KEY_STATE p)).reportClosed p
  else if bitOf (byteAt c 2) 0 && k.rxChange.isNone then
    if kcvOf (phaseKey k.rxS (k.rxJ + 1)) = ofBE (slice c 8 8) then
      h.setLink p fun k => { k with rxChange := some (ofBE (slice c 3 4)) }
    else ((h.put (Obj.KEY_STATE p) 2).event 0x28 (Obj.KEY_STATE p)).reportClosed p
  else h

/-- Meaning of KEY_PHASE_ANNOUNCE_RX. -/
def execKeyPhaseAnnounceRx (p : Port) (content : Option (List Byte)) (s : State) : Host.Outcome State Fault Refusal := s.run fun h =>
  match h.ctrlTake p 4 content with
  | (some c, h) => h.phaseRx p c
  | (none, h) => h

/-- The key phases of a link at its boundary `n`: changes that fall due, announcements still to be repeated, closed cells. -/
def Hub.phaseBoundary (h : Hub) (p : Port) (n : Nat) : Hub :=
  let k := h.links[p]
  let h := match k.txChange with
    | some b =>
      if b ≤ n then
        let h := (h.takeUnit .phase fun w => portOfKey w.key == p.val).put (Obj.KEY_PHASE p) ((k.txJ + 1) % 2)
        h.setLink p fun k => { k with txJ := k.txJ + 1, txChange := none, phaseAt := n }
      else h.phaseCell p b
    | none => h
  let h := match k.rxChange with
    | some b => if b ≤ n then h.setLink p fun k => { k with rxJ := k.rxJ + 1, rxChange := none, rxRetire := some (b + 2) } else h
    | none => h
  let h := match k.rxRetire with
    | some b => if b ≤ n then h.setLink p fun k => { k with rxRetire := none } else h
    | none => h
  if k.closing = 0 then h
  else (h.sendCtrl p ([4, 14, 2] ++ List.replicate 13 0)).setLink p fun k => { k with closing := k.closing - 1 }

/-! ### A link's epoch boundary (R217, R219, R231) -/

/-- A lane leaves its direction or ACTIVE at a boundary (R155, R157 step 1, R232): the receive values are stored, or the last codeword ends
and the lane is driven to electrical idle. -/
def Hub.laneEnds (h : Hub) (p : Port) (l : Lane) : Hub := if h.receives p l then h.storeSet p l else h.endStream p l

/-- A lane turns to the direction `d`, ACTIVE or QUIET in it (R157, R159): idle at the end that sent, whose driver goes off at 0.15 µs; at the
end that is to send, the alignment pattern at 0.30 µs and the joining marker at 0.80 µs, within the bounds of R157 (log entry 82). -/
def Hub.laneTurns (h : Hub) (p : Port) (l : Lane) (d : Nat) (quiet : Bool) : Hub :=
  let sent := !h.receives p l
  let h := (h.laneEnds p l).toLane p l 4 d
  let h := h.setLane p l fun s => { s with pads := if sent then { drive := .idle } else { term := true } }
  if quiet then h.arm (.turnStep p l) 150
  else
    let h := (h.arm (.turnaround p l) (us 1)).arm (.turnStep p l) (if sent then 150 else 300)
    if sent then h else h.arm (.joinAt p l) 800

/-- A QUIET lane wakes in its direction (R147): its receiver starts from its set, its transmitter drives the alignment pattern and joins at
0.40 µs (log entry 82). -/
def Hub.laneWakes (h : Hub) (p : Port) (l : Lane) : Hub :=
  let h := h.arm (.turnaround p l) (us 1)
  if h.receives p l then (h.loadSet p l).setLane p l fun s => { s with pads := { term := true } }
  else (h.arm (.joinAt p l) 400).setLane p l fun s => { s with pads := { drive := .alignment } }

/-- A lane QUIET in its direction. -/
def Hub.laneQuiet (h : Hub) (p : Port) (l : Lane) : Hub :=
  (h.toLane p l 3 (h.get (Obj.LANE_DIR p l))).bump (Obj.QUIET_ENTRIES (laneIx p l))

/-- A reversible lane takes the code in effect (R147, R216, R238). A lane whose retraining has ended takes its state now: ACTIVE, it
sends its alignment pattern, and its joining marker 0.40 µs later (R185, log entry 82). -/
def Hub.laneCode (h : Hub) (p : Port) (l : Lane) (code : Nat) : Hub :=
  let st := h.laneState p l
  let d1 := codeDir code l
  let q := codeQuiet code l
  let ready := st == 1 && h.links[p].trained.contains l.val
  if st != 2 && st != 3 && !ready then h
  else
    let h := h.setLink p fun k => { k with trained := k.trained.filter fun x => x != l.val }
    if h.get (Obj.LANE_DIR p l) = d1 then
      if q then (if st = 3 then h else (h.laneEnds p l).laneQuiet p l)
      else if st = 3 then h.laneWakes p l
      else if st = 2 then h
      else if h.receives p l then ((h.loadSet p l).toLane p l 2 d1)
      else ((h.toLane p l 2 d1).arm (.joinAt p l) 400).setLane p l fun s => { s with pads := { drive := .alignment } }
    else h.laneTurns p l d1 q

/-- Steps 2 and 3 of R157 at a lane that turns: the old transmitter's driver goes off and its receiver loads the set of the new direction; the
new transmitter turns its termination off and drives the alignment pattern from its FFE set. A lane that turns into QUIET is QUIET now
(R159). -/
def Hub.turnStep (h : Hub) (p : Port) (l : Lane) : Hub :=
  if !h.due (.turnStep p l) || h.laneState p l != 4 then h
  else
    let h := h.disarm (.turnStep p l)
    let h := if h.receives p l then h.loadSet p l else h
    if !h.armed (.turnaround p l) then h.laneQuiet p l
    else h.setLane p l fun s => { s with pads := if h.receives p l then { term := true } else { drive := .alignment } }

/-- The end that sends on a lane that turns or wakes sends its joining marker and is ACTIVE; without its FFE set it cannot (R158, R185). -/
def Hub.laneJoins (h : Hub) (p : Port) (l : Lane) : Hub :=
  if !h.due (.joinAt p l) then h
  else
    let h := h.disarm (.joinAt p l)
    if ((h.lane p l).ffe[dirNo (h.get (Obj.LANE_DIR p l))]).isSome then (h.laneJoined p l).joinStream p l else h

/-- The lanes that turn or wake, at this instant. -/
def Hub.lanesMove (h : Hub) : Hub :=
  (List.finRange 2).foldl (fun h p => (((h.turnStep p 1).turnStep p 2).laneJoins p 1).laneJoins p 2) h

/-- The allotment of the epoch that opens (R218, R231 step 9). -/
def Hub.allotBoundary (h : Hub) (p : Port) (n : Nat) : Hub :=
  let old := h.get (Obj.ALLOT_CURRENT p)
  let code := h.get (Obj.ALLOT_NEXT p)
  let h := (h.put (Obj.ALLOT_CURRENT p) code).put (Obj.ALLOT_NEXT p) (h.get (Obj.ALLOT_AFTER p))
  let h := if code = old then h else (h.bump (Obj.ALLOT_CHANGES p)).put (Obj.ALLOT_SINCE p) n
  let h := (h.bump (Obj.EPOCHS_AT_CODE p code)).setLink p fun k => { k with pats := ((n, codeAway code) :: k.pats).take 4 }
  let h := ((h.laneCode p 1 code).laneCode p 2 code)
  h.rescale p

/-- Demand sampled at the boundary (R219, R248). -/
def Hub.sampleDemand (h : Hub) (p : Nat) : Hub :=
  let h := (List.range 8).foldl (fun h c =>
    (h.put (Obj.OCC_LOCAL p c) (min 0xFFFF ((h.queueAt p).filter fun x => x.cls == c).length)).put (Obj.ENQ_LOCAL p c)
      (min 0xFFFF (((h.core.enq.find? fun e => e.1 == (p, c)).map (·.2)).getD 0))) h
  h.setCore fun k => { k with enq := k.enq.filter fun e => e.1.1 != p }

/-- The roles R19 would give, followed for `SWAP_HOLD` while `SWAP_AUTO` = 1 (R239). -/
def Hub.swapWatch (h : Hub) (p : Port) : Hub :=
  h.setLink p fun k => { k with
    swapSince := if !h.flag (Obj.SWAP_AUTO p) || h.evalEnd p == h.trunkEnd p then none else if k.swapSince.isSome then k.swapSince else some h.now }

/-- A swap command takes effect at the boundary, whatever the state of the link (R241, R249). -/
def Hub.swapCommanded (h : Hub) (p : Port) : Hub :=
  if h.links[p].swapCmd then (h.setLink p fun k => { k with swapCmd := false }).swapAsk p 0 else h

/-- The rest of the boundary of a link that stays up. -/
def Hub.openEpoch (h : Hub) (p : Port) (root : Bool) (n : Nat) : Hub :=
  let h := ((h.allotBoundary p n).phaseBoundary p n).swapCommanded p
  let h := h.swapWatch p
  if root then
    let h := (h.setLink p fun k => { k with
      announced := false, choice := none, late := false, reported := false, downAt := h.get (Obj.DOWN_COUNT p) })
    let h := (h.arm (.rootSend p) (us 50)).arm (.reportBound p) (us 5)
    if h.eff (Obj.ALLOT_MODE p) = 1 then h.disarm (.planDeadline p) else h.arm (.planDeadline p) (us (h.eff Obj.PLAN_DEADLINE))
  else (h.sendCtrl p (h.epochCell p h.links[p].ackDue false)).setLink p fun k => { k with ackDue := false }

/-- A boundary at an end of a link that is up; the first one counted comes at least 20 µs after LINK_UP (R403). -/
def Hub.linkBoundary (h : Hub) (p : Port) : Hub :=
  if !h.linkUp p || Nat.ble (h.now + 1) (h.links[p].upAt + us 20) then (h.sampleDemand p).swapCommanded p
  else
    let root := h.trunkEnd p == 1
    let h := h.bump (Obj.LINK_EPOCH_COUNT p)
    let n := h.get (Obj.LINK_EPOCH_COUNT p)
    let h := if root && !h.links[p].acked then h.bump (Obj.ANNOUNCE_UNACKED p) else h
    let h := (h.setLink p fun k => { k with ctrlGap := k.ctrlGap + 1, reportGap := k.reportGap + 1, acked := !k.announced }).sampleDemand p
    let swap := h.links[p].swapAt
    match swap with
    | some (b, e) => if b ≤ n then h.swapRetrain p e else h.openEpoch p root n
    | none => h.openEpoch p root n

end Sys2Proof.Machine
end

