-- ==== Sys2Proof/Machine/Camera.lean ====
section
/-! DEFINITION. Camera inputs (chapter 11): packets of the CSI-2 receivers, frames and lines of the streams, the frame-end marker,
and the camera triggers. -/

namespace Sys2Proof.Machine

/-! ### Receivers and streams (R341 to R344) -/

/-- Stream of a receiver's virtual channel. -/
def streamNo (c vc : Fin 4) : Fin 16 := ⟨4 * c.val + vc.val, by omega⟩

/-- The tunnel a stream feeds (R342). -/
def Hub.camTunnel (h : Hub) (s : Nat) : Option Nat :=
  firstBelow (fun t => h.tunUsed t && h.get (Obj.TUN_END_A t) == 4 + s / 4 && h.get (Obj.TUN_LOCAL t) % 4 == s % 4) 256

/-- An open frame of a stream set. -/
def Hub.setFrame (h : Hub) (s : Fin 16) (f : Option CamFrame) : Hub := { h with cam := h.cam.set s f }

/-- A frame is in progress on a receiver. -/
def Hub.camBusy (h : Hub) (c : Nat) : Bool := (List.finRange 16).any fun s => s.val / 4 == c && h.cam[s].isSome

/-- A receiver enabled with its lanes, their map and their inversions (R341). -/
def Hub.csiArrange (h : Hub) (c : Nat) : Hub :=
  h.emit (.csiRx c (some (h.get (Obj.CSI_LANES c), h.get (Obj.CSI_LANE_MAP c), h.get (Obj.CSI_POLARITY c))))

/-- Receivers follow `CAM_RX_ENABLE`: a set bit acts at once, a cleared one when no frame is in progress (R341). -/
def Hub.camFollow (h : Hub) : Hub :=
  (List.range 4).foldl (fun h c =>
    let on := bitOf (h.get Obj.CAM_RX_ENABLE) c
    let st := h.get (Obj.CSI_STATE c)
    if on && st == 0 then ((h.takeUnit .camEnable fun w => w.key / 256 == 0x5104 + c).put (Obj.CSI_STATE c) 1).csiArrange c
    else if !on && st != 0 && !h.camBusy c then (h.put (Obj.CSI_STATE c) 0).emit (.csiRx c none)
    else h) h

/-- A cell of a stream presented to the core at its receiver's attachment. -/
def Hub.camPresent (h : Hub) (s : Fin 16) (hdr body : List Byte) : Hub :=
  match h.camTunnel s with
  | some t => h.present ⟨4 + s.val / 4, h.get (Obj.TUN_LOCAL t), hdr, body, false, false⟩
  | none => h

/-! ### The frame-end marker (R349 to R351) -/

/-- The 32-byte trailer as the segmenter sends it (R350). -/
def Hub.trailer (h : Hub) (s : Fin 16) (f : CamFrame) (synth : Bool) : List Byte :=
  let flags := b2n (f.bad || f.cut || synth) + 4 * b2n f.bad + 8 * b2n synth + 32 * b2n f.cut
  [0xCF, BitVec.ofNat 8 flags] ++ toBE 2 f.num ++ toBE 4 f.fs ++ toBE 4 h.time32 ++ toBE 4 f.trig ++ toBE 2 f.lines ++ toBE 2 0 ++
    [BitVec.ofNat 8 s.val, BitVec.ofNat 8 (h.eff (Obj.STR_DATA_TYPE s))] ++ toBE 2 (f.first.getD 0) ++ toBE 8 Config.unitId.toNat

/-- A frame closed with its marker; `synth` for every end but FE. -/
def Hub.closeFrame (h : Hub) (s : Fin 16) (synth : Bool) : Hub :=
  match h.cam[s] with
  | none => h
  | some f =>
    let h := h.camPresent s (mkHdr 5 false true false 32) (h.trailer s f synth)
    let h := (h.bump (Obj.FRAMES s)).setFrame s none
    let h := if synth then h.bump (Obj.FE_SYNTHESISED s) else h
    ((h.put (Obj.STR_STATE s) 1).disarm (.feTimeout s)).camFollow

/-! ### Packets (R340, R344 to R346) -/

/-- A packet's header at an enabled receiver that has seen the stop state, has no lane fault and whose domain is on (R341): counted, and
whether the packet goes on. -/
def Hub.csiHeader (h : Hub) (c : Fin 4) (k : CsiPkt) : Bool × Hub :=
  if (h.get (Obj.CSI_STATE c) ≠ 2 ∧ h.get (Obj.CSI_STATE c) ≠ 3) ∨ !h.domOn 20 then (false, h)
  else
    let h := h.put (Obj.CSI_STATE c) 3
    let h := if k.sot then h.bump (Obj.SOT_ERRORS c) else h
    let h := if k.ecc = 1 then h.bump (Obj.PH_CORRECTED c) else h
    if k.ecc = 2 then (false, h.bump (Obj.PH_UNCORRECTABLE c))
    else if k.vcx then (false, h.bump (Obj.UNMAPPED c))
    else (true, h)

/-- FS: an open frame is closed first, which may be what a disabled receiver waited for (R341); the stream's settings take effect; a frame
opens (R344, R349). -/
def Hub.frameStart (h : Hub) (c vc : Fin 4) (num : Nat) : Hub :=
  let s := streamNo c vc
  let h := (h.closeFrame s true).takeUnit .fs fun w => w.key / 256 == 0x5110 + s.val
  if h.get (Obj.CSI_STATE c) = 0 then h
  else if h.eff (Obj.STR_ENABLE s) = 0 then (h.put (Obj.STR_STATE s) 0).bump (Obj.UNMAPPED c)
  else if (h.camTunnel s).isNone then (h.put (Obj.STR_STATE s) 1).bump (Obj.UNMAPPED c)
  else
    let tr := h.eff (Obj.STR_TRIGGER s)
    let h := h.setFrame s (some { num := num, fs := h.time32, trig := if tr < 8 then h.get (Obj.TRIG_LAST tr) else 0 })
    ((h.put (Obj.STR_FRAME_NUM s) num).put (Obj.STR_STATE s) 2).arm (.feTimeout s) (ms (h.eff (Obj.STR_FE_TIMEOUT s)))

/-- Meaning of CSI_FRAME_START. -/
def execCsiFrameStart (c vc : Fin 4) (k : CsiPkt) (num : W16) (s : State) : Host.Outcome State Fault Refusal := s.run fun h =>
  match h.csiHeader c k with
  | (true, h) => h.frameStart c vc num.toNat
  | (false, h) => h

/-- The cells of a line: the first has first set, none has last set (R346). -/
def Hub.lineCells (h : Hub) (s : Fin 16) (seg : Nat) : Nat → Bool → List Byte → Hub
  | 0, _, _ => h
  | fuel + 1, first, bs =>
    if bs.isEmpty then h
    else
      let b := bs.take seg
      (h.camPresent s (mkHdr 5 first false false b.length) b).lineCells s seg fuel false (bs.drop seg)

/-- A line of an open frame segmented and presented. -/
def Hub.line (h : Hub) (s : Fin 16) (f : CamFrame) (data : List Byte) : Hub :=
  let seg := if h.eff (Obj.STR_SEG_BYTES s) = 1 then 112 else 128
  let max := match h.camTunnel s with
    | some t => h.get (Obj.TUN_LINE_CELLS t)
    | none => 0
  let cut := Nat.ble (max * seg + 1) data.length
  let h := if cut then h.bump (Obj.LINES_TRUNCATED s) else h
  let h := h.setFrame s (some { f with lines := f.lines + 1, cut := f.cut || cut, first := some (f.first.getD data.length) })
  (h.bump (Obj.LINES_SENT s)).lineCells s seg max true data

/-- A long packet: a line of the stream, a line outside a frame, or unmapped (R344, R345). -/
def Hub.longPacket (h : Hub) (c vc : Fin 4) (dt : Nat) (data : List Byte) (crcOk : Bool) : Hub :=
  let s := streamNo c vc
  let h := if crcOk then h else h.bump (Obj.PAYLOAD_CRC c)
  if h.eff (Obj.STR_ENABLE s) = 0 ∨ (h.camTunnel s).isNone ∨ dt ≠ h.eff (Obj.STR_DATA_TYPE s) then h.bump (Obj.UNMAPPED c)
  else match h.cam[s] with
    | none => h.bump (Obj.OUTSIDE_FRAME s)
    | some f => if crcOk then h.line s f data else (h.bump (Obj.LINES_BAD_CRC s)).setFrame s (some { f with bad := true })

/-- Meaning of CSI_LINE_PACKET. -/
def execCsiLinePacket (c vc : Fin 4) (k : CsiPkt) (dt : Byte) (data : List Byte) (crcOk : Bool) (s : State) :
    Host.Outcome State Fault Refusal := s.run fun h =>
  match h.csiHeader c k with
  | (true, h) => h.longPacket c vc dt.toNat data crcOk
  | (false, h) => h

/-- FE closes the frame; on a channel whose stream is disabled or has no tunnel it is unmapped (R344, R349). -/
def Hub.frameEnd (h : Hub) (c vc : Fin 4) : Hub :=
  let s := streamNo c vc
  if h.cam[s].isSome then h.closeFrame s false
  else if h.eff (Obj.STR_ENABLE s) = 0 ∨ (h.camTunnel s).isNone then h.bump (Obj.UNMAPPED c)
  else h

/-- Meaning of CSI_FRAME_END. -/
def execCsiFrameEnd (c vc : Fin 4) (k : CsiPkt) (s : State) : Host.Outcome State Fault Refusal := s.run fun h =>
  match h.csiHeader c k with
  | (true, h) => h.frameEnd c vc
  | (false, h) => h

/-- Meaning of FE_TIMEOUT (R349). -/
def execFeTimeout (st : Fin 16) (s : State) : Host.Outcome State Fault Refusal := s.run fun h =>
  if h.due (.feTimeout st) then h.closeFrame st true else h

/-- The D-PHY lanes of a receiver (R341): stop state, lane fault, or high-speed reception, with the rate measured. -/
def Hub.csiLanes (h : Hub) (c : Fin 4) (stop fault : Bool) (rate : Nat) : Hub :=
  if h.get (Obj.CSI_STATE c) = 0 ∨ !h.domOn 20 then h
  else (h.put (Obj.CSI_STATE c) (if fault then 4 else if stop then 2 else 3)).put (Obj.CSI_RATE c) rate

/-- Meaning of CSI_STOP_STATE. -/
def execCsiStopState (c : Fin 4) (stop fault : Bool) (rate : W16) (s : State) : Host.Outcome State Fault Refusal :=
  s.run fun h => h.csiLanes c stop fault rate.toNat

/-! ### Triggers (R353 to R356) -/

/-- A trigger's own state set. -/
def Hub.setTrig (h : Hub) (t : Fin 8) (x : TrigSt) : Hub := { h with trig := h.trig.set t x }

/-- The instant of edge k in ns of network time, at the nearest whole ns (R354). -/
def Hub.trigAt (h : Hub) (t : Fin 8) (k : Nat) : Nat :=
  let per := h.get (Obj.TRIG_PERIOD t) * 65536 + h.get (Obj.TRIG_PERIOD_FRAC t)
  (h.trig[t]).e0 + (k * per + 32768) / 65536

/-- The ball at its active or inactive level (R353). -/
def Hub.trigBall (h : Hub) (t : Fin 8) (active : Bool) : Hub := h.emit (.camtrig t (active != h.flag (Obj.TRIG_POLARITY t)))

/-- A trigger group's check (R353): the width leaves 100 ns of the period. -/
def Hub.trigOk (h : Hub) (g : Staged) : Bool :=
  let t := g.leader / 256 - 0x5120
  Nat.ble (h.newVal g (Obj.TRIG_WIDTH t) + 100) (h.newVal g (Obj.TRIG_PERIOD t))

/-- The committed group takes effect and its schedule starts (R354). -/
def Hub.trigTake (h : Hub) (t : Fin 8) : Hub :=
  let h := h.takeUnit .trig fun w => w.key / 256 == 0x5120 + t.val && Nat.ble (us 10) (h.now - w.acc)
  let n := h.netNs
  let wait := (h.get (Obj.TRIG_START t) + 2 ^ 32 - n % 2 ^ 32) % 2 ^ 32
  let h := h.setTrig t { runs := h.get (Obj.TRIG_MODE t) != 0, e0 := n + wait, k := 0, pulse := false, waits := false }
  let h := h.trigBall t false
  match h.waiting.find? fun w => w.unit == .trig && w.key / 256 == 0x5120 + t.val with
  | some w => h.arm (.trigApply t) (w.acc + us 10 - h.now)
  | none => h.disarm (.trigApply t)

/-- Every trigger whose mode is in effect without a commit starts its schedule: at start-up, and after a reset of its block. -/
def Hub.trigStart (h : Hub) : Hub :=
  (List.finRange 8).foldl (fun h t => if h.get (Obj.TRIG_MODE t.val) = 0 then h else h.trigTake t) h

/-- The camera block after a start-up or a reset: its receivers wait for the stop state, its streams are between frames, and its triggers
have their schedules (R341, R343, R353). -/
def Hub.camStart (h : Hub) : Hub :=
  let h := (List.range 4).foldl (fun h c => if h.get (Obj.CSI_STATE c) = 0 then h else (h.put (Obj.CSI_STATE c) 0).put (Obj.CSI_RATE c) 0) h
  let h := (List.range 16).foldl (fun h s => h.put (Obj.STR_STATE s) (b2n (h.eff (Obj.STR_ENABLE s) == 1))) h
  h.camFollow.trigStart

/-- Meaning of TRIG_GROUP_APPLY. -/
def execTrigGroupApply (t : Fin 8) (s : State) : Host.Outcome State Fault Refusal := s.run fun h =>
  if !h.due (.trigApply t) then h
  else if (h.trig[t]).pulse then (h.disarm (.trigApply t)).setTrig t { h.trig[t] with waits := true }
  else h.trigTake t

/-- The next edge of a trigger whose instant has come (R354, R355). -/
def Hub.trigEdge (h : Hub) (t : Fin 8) : Hub :=
  let x := h.trig[t]
  if x.runs && !x.pulse && Nat.ble (h.trigAt t x.k) h.netNs && h.domOn 20 then
    let h := h.put (Obj.TRIG_LAST t) (h.trigAt t x.k)
    let h := h.setTrig t { x with k := x.k + 1, pulse := true, runs := h.get (Obj.TRIG_MODE t) == 2 }
    (h.trigBall t true).arm (.trigEnd t) (h.get (Obj.TRIG_WIDTH t))
  else h

/-- Meaning of TRIGGER_EDGE. -/
def execTriggerEdge (t : Fin 8) (s : State) : Host.Outcome State Fault Refusal := s.run fun h => h.trigEdge t

/-- The end of a pulse; a group that waited for it takes effect (R354, R355). -/
def Hub.trigDown (h : Hub) (t : Fin 8) : Hub :=
  let waits := (h.trig[t]).waits
  let h := ((h.setTrig t { h.trig[t] with pulse := false }).disarm (.trigEnd t)).trigBall t false
  if waits then h.trigTake t else h

/-- Meaning of TRIGGER_PULSE_END. -/
def execTriggerPulseEnd (t : Fin 8) (s : State) : Host.Outcome State Fault Refusal := s.run fun h =>
  if h.due (.trigEnd t) then h.trigDown t else h

/-- A step of network time forward to `new` ns: the edges it passes are skipped and counted; a step back repeats none (R356). -/
def Hub.trigStep (h : Hub) (new : Nat) : Hub :=
  (List.finRange 8).foldl (fun h t =>
    let x := h.trig[t]
    if !x.runs || Nat.ble new (h.trigAt t x.k) then h
    else
      let per := h.get (Obj.TRIG_PERIOD t) * 65536 + h.get (Obj.TRIG_PERIOD_FRAC t)
      let k := if h.get (Obj.TRIG_MODE t) = 2 then ceilDiv ((new - x.e0) * 65536 - 32768) per else 1
      let k := if h.get (Obj.TRIG_MODE t) = 2 ∧ h.trigAt t k < new then k + 1 else k
      (h.bumpBy (Obj.TRIG_SKIPPED t) (k - x.k)).setTrig t { x with k := k, runs := h.get (Obj.TRIG_MODE t) == 2 }) h

end Sys2Proof.Machine
end

