-- ==== Sys2Proof/Machine/Net.lean ====
section
/-! DEFINITION. Ethernet, network time and timestamps (chapter 13): the MACs, their gates, the time exchange across trunks, the servo,
steps of network time, and PPS. -/

namespace Sys2Proof.Machine

/-! ### Units of time (R394) -/

/-- A time as 12 bytes: seconds, nanoseconds, fraction. -/
def timeBytes (u : Nat) : List Byte :=
  let ns := u / 8192000
  toBE 6 (ns / 1000000000) ++ toBE 4 (ns % 1000000000) ++ toBE 2 (u % 8192000 / 125)

/-- 12 bytes as a time. -/
def timeOf (bs : List Byte) : Nat := (ofBE (bs.take 6) * 1000000000 + ofBE (slice bs 6 4)) * 8192000 + ofBE (slice bs 10 2) * 125

/-- An I32 object set to a number; outside its format the spec states no value (log entry 2). -/
def Hub.putI32 (h : Hub) (k : Nat) (v : Int) : Hub :=
  if -(2 ^ 31) ≤ v ∧ v < 2 ^ 31 then h.put k (unsigned 32 v) else (h.put k (h.free 32)).used

/-- A U32 object set to a number; outside its format the spec states no value. -/
def Hub.putU32 (h : Hub) (k : Nat) (v : Int) : Hub :=
  if 0 ≤ v ∧ v < 2 ^ 32 then h.put k v.toNat else (h.put k (h.free 32)).used

/-! ### Time valid (R401, R664) -/

/-- The hub has an uplink: it is the leaf end of a link that is up. -/
def Hub.hasUplink (h : Hub) : Bool := (List.range 2).any fun p => h.linkUp p && h.trunkEnd p == 2

/-- The time-valid flag; it is clear while TPLL is not locked (R401, R511, R664). -/
def Hub.timeValid (h : Hub) : Bool :=
  let s := h.get Obj.TIME_STATE
  let u := h.get Obj.TIME_SOURCE_IN_USE
  bitOf (h.get Obj.PLL_LOCK) 5 && ((h.get Obj.ROLE_ACTIVE == 0 && h.eff Obj.TIME_SOURCE == 0 && h.netRuns) ||
    ((s == 2 || s == 3) && (if u = 4 then (h.xchg[(0 : Fin 2)]).valid else if u = 5 then (h.xchg[(1 : Fin 2)]).valid else true)))

/-- `GM_IDENTITY`: the grandmaster in use, the hub itself where no other is known (R391). -/
def Hub.gmIdentity (h : Hub) : Nat := if h.get Obj.GM_IDENTITY = 0 then Config.unitId.toNat else h.get Obj.GM_IDENTITY

/-! ### Steps of network time (R402, R407) -/

/-- A step decided at this hub: announced at least 24 epochs before a boundary, which the spec leaves open (log entry 2). -/
def Hub.decideStep (h : Hub) (amount : Int) : Hub :=
  let b := (h.netNs / 125000 + 26 + h.free 12) * 125000
  { h.used with net := { h.net with step := some (amount, b) } }

/-- A step taken at its boundary. -/
def Hub.applyStep (h : Hub) (amount : Int) : Hub :=
  let new := ((h.netTime : Int) + amount * netUnit).toNat
  let ns := new / netUnit
  let h := if 0 ≤ amount then h.trigStep ns else h
  let h := { h with netTime := new, net := { h.net with step := none, skip := ns + 125000, last := some (ns / 125000), steps := h.net.steps + 1 } }
  (h.event 0x3B Obj.TIME_SEC).bump Obj.TIME_STEPS

/-- The step whose boundary has come. -/
def Hub.stepDue (h : Hub) : Hub :=
  match h.net.step with
  | some (a, b) => if Nat.ble b h.netNs then h.applyStep a else h
  | none => h

/-- The `TIME_SET` group: accepted at a cabinet root with source 0 or 2, where it decides a step (R407). -/
def Hub.timeSetOk (h : Hub) : Bool := h.get Obj.ROLE_ACTIVE == 0 && (h.eff Obj.TIME_SOURCE == 0 || h.eff Obj.TIME_SOURCE == 2)
def Hub.timeSetDone (h : Hub) : Hub :=
  h.decideStep ((h.get Obj.TIME_SET_SEC * 1000000000 + h.get Obj.TIME_SET_NS : Nat) - (h.netNs : Int))

/-! ### The servo (R401) -/

/-- Where a sample comes from. -/
inductive SampleKind where
  | trunk | gptp | pps
  deriving DecidableEq, Repr

/-- The rate taken from a sample: ff − (KP × θ + I), limited. θ in 1/8 192 000 ns, `ff` in 1/4 ppb. -/
def Hub.servoRate (h : Hub) (k : SampleKind) (theta ff : Int) : Hub :=
  let trunk := k == .trunk
  let kp : Int := if trunk then 100 * h.get Obj.SV_TRUNK_KP else h.get Obj.SV_GPTP_KP
  let ki : Int := if trunk then h.get Obj.SV_TRUNK_KI else h.get Obj.SV_GPTP_KI
  let integ := h.net.integ + 4 * ki * theta
  let adj := (if trunk then ff else 0) - (4 * kp * theta + integ).tdiv 819200000
  let m : Int := 4 * h.get Obj.SV_MAX_ADJ
  let lim := max (-m) (min m adj)
  let h := { h with net := { h.net with integ := integ } }
  let h := if lim = adj then h else h.bump Obj.SERVO_CLAMPED
  h.put Obj.RATE_ADJ (unsigned 32 lim)

/-- The limit without a sample, ns. -/
def Hub.sampleLimit (h : Hub) (k : SampleKind) : Nat :=
  match k with
  | .trunk => 3 * 125000
  | .gptp =>
    let e := if h.get Obj.TIME_SOURCE_IN_USE = 2 then 1 else 0
    let l := signed 32 (h.get (Obj.LOG_SYNC e))
    if l ≤ 0 then 3 * 1000000000 / 2 ^ (-l).toNat else 3 * 1000000000 * 2 ^ l.toNat
  | .pps => 1500000000

/-- Lock lost (R401). -/
def Hub.lockLost (h : Hub) : Hub := ((h.put Obj.TIME_STATE 1).bump Obj.LOCK_LOSSES).event 0x3C Obj.TIME_STATE

/-- A step under R402 for a sample that calls for one; none while one is to come. -/
def Hub.stepFor (h : Hub) (theta : Int) : Hub :=
  if h.net.step.isSome then h else h.decideStep (-((theta + 4096000).ediv 8192000))

/-- An accepted sample. -/
def Hub.sample (h : Hub) (k : SampleKind) (theta ff : Int) : Hub :=
  let h := (h.putI32 Obj.OFFSET_LAST (theta.tdiv 8192)).servoRate k theta ff
  let far := decide ((h.get Obj.SV_STEP_THRESHOLD : Int) * 8192000 < theta.natAbs)
  let near := decide ((theta.natAbs : Int) ≤ h.get Obj.SV_LOCK_THRESHOLD * 8192)
  let n := h.net
  let good := if near then n.good + 1 else 0
  let bad := if near then 0 else n.bad + 1
  let h := { h with net := { n with good := good, bad := bad } }
  let lim := h.get Obj.SV_LOCK_COUNT
  let clear := fun (h : Hub) => { h with net := { h.net with good := 0, bad := 0 } }
  let h := match h.get Obj.TIME_STATE with
    | 0 => clear (if far then (h.put Obj.TIME_STATE 1).stepFor theta else h.put Obj.TIME_STATE 1)
    | 1 => if Nat.ble lim good then clear (h.put Obj.TIME_STATE 2) else h
    | 2 => if far then clear (h.lockLost.stepFor theta) else if Nat.ble lim bad then clear h.lockLost else h
    | _ => clear ((h.put Obj.TIME_STATE 1).disarm .servoHold)
  h.arm .servoSample (h.sampleLimit k)

/-- Meaning of SERVO_SAMPLE_TIMEOUT. -/
def execServoSampleTimeout (s : State) : Host.Outcome State Fault Refusal := s.run fun h =>
  if !h.due .servoSample then h
  else
    let h := h.disarm .servoSample
    if h.get Obj.TIME_STATE = 1 ∨ h.get Obj.TIME_STATE = 2 then
      ((h.put Obj.TIME_STATE 3).bump Obj.HOLDOVERS).arm .servoHold (ms (h.get Obj.SV_HOLDOVER_LIMIT))
    else h

/-- Meaning of SERVO_HOLDOVER_LIMIT. -/
def execServoHoldoverLimit (s : State) : Host.Outcome State Fault Refusal := s.run fun h =>
  if h.due .servoHold && h.get Obj.TIME_STATE == 3 then (h.put Obj.TIME_STATE 0).disarm .servoHold else h

/-- The origin is the PTP engine. -/
def Hub.isPtp (h : Hub) (o : Origin) : Bool :=
  match o with
  | .se e => e.val == h.eff Obj.PTP_ENGINE
  | _ => false

/-- A sample comes: a `TIME_SOURCE` written before it is in effect, and a cabinet root told to run free does, its servo
in state 0 (R397, R407, R664). -/
def Hub.sampleSource (h : Hub) : Hub :=
  let h := h.takeUnit .sample fun w => w.key == Obj.TIME_SOURCE
  if h.get Obj.ROLE_ACTIVE = 0 ∧ h.eff Obj.TIME_SOURCE = 0 ∧ h.get Obj.TIME_SOURCE_IN_USE ≠ 0 then (h.timeSource 0).put Obj.TIME_STATE 0 else h

/-- A sample of the PTP engine taken at a cabinet root whose source is gPTP (R390). -/
def Hub.gptpTake (h : Hub) (v : Nat) (slave : Fin 2) : Hub :=
  let h := h.sampleSource
  if h.get Obj.ROLE_ACTIVE = 0 ∧ h.eff Obj.TIME_SOURCE = 1 then
    let free := h.get Obj.TIME_STATE == 0
    let h := h.timeSource (1 + slave.val)
    (if free then h.put Obj.TIME_STATE 0 else h).sample .gptp (8192 * signed 32 v) 0
  else h

/-- A root sample of the PTP engine (R390, R401): taken at a cabinet root whose source is gPTP. -/
def Hub.gptpSample (h : Hub) (o : Origin) (v : W32) (slave : Fin 2) : Hub :=
  if !h.isPtp o then h.violate o 3
  else h.guarded o Obj.GPTP_SAMPLE v.toNat fun h => (rcOk, h.gptpTake v.toNat slave)

/-- Meaning of GPTP_SAMPLE. -/
def execGptpSample (o : Origin) (v : W32) (slave : Fin 2) (s : State) : Host.Outcome State Fault Refusal :=
  s.run fun h => h.gptpSample o v slave

/-- The counter starts at 0 s when TPLL first locks after a release of PORn (R693). -/
def Hub.netStart (h : Hub) : Hub := if h.netRuns then h else { h with netRuns := true, netTime := 0 }

/-- Meaning of TIME_COUNTER_START. -/
def execTimeCounterStart (s : State) : Host.Outcome State Fault Refusal := s.run Hub.netStart

/-! ### Time across a trunk (R398 to R403) -/

/-- e_away and e_tow of a pattern, from the delays of R214 and the trim in effect (R398). -/
def Hub.eAway (h : Hub) (p away : Nat) : Int :=
  (((List.range away).map fun l => h.get (Obj.D_AWAY p l)).foldl max 0 : Nat) + signed 32 (h.eff (Obj.TT_ASYM_TRIM p))
def Hub.eTow (h : Hub) (p away : Nat) : Int :=
  ((((List.range 4).filter fun l => Nat.ble away l).map fun l => h.get (Obj.D_TOWARD p l)).foldl max 0 : Nat) -
    signed 32 (h.eff (Obj.TT_ASYM_TRIM p))

/-- Every entry of a port rebuilt. -/
def Hub.rebuildTimes (h : Hub) (p : Port) : Hub :=
  let h := ((h.putU32 (Obj.TT_E31_AWAY p) (h.eAway p 3)).putU32 (Obj.TT_E22_AWAY p) (h.eAway p 2)).putU32 (Obj.TT_E13_AWAY p) (h.eAway p 1)
  let h := ((h.putU32 (Obj.TT_E31_TOWARD p) (h.eTow p 3)).putU32 (Obj.TT_E22_TOWARD p) (h.eTow p 2)).putU32 (Obj.TT_E13_TOWARD p)
    (h.eTow p 1)
  h.setLink p fun k => { k with rebuild := false }

/-- The entries held, in 1/8 192 000 ns. -/
def Hub.entryAway (h : Hub) (p away : Nat) : Int :=
  8192 * h.get (if away = 3 then Obj.TT_E31_AWAY p else if away = 2 then Obj.TT_E22_AWAY p else Obj.TT_E13_AWAY p)
def Hub.entryTow (h : Hub) (p away : Nat) : Int :=
  8192 * h.get (if away = 3 then Obj.TT_E31_TOWARD p else if away = 2 then Obj.TT_E22_TOWARD p else Obj.TT_E13_TOWARD p)

/-- The exchange of the present link up; one of an earlier link up is forgotten. -/
def Hub.freshX (h : Hub) (p : Port) : Hub :=
  if (h.xchg[p]).since = some h.links[p].upAt then h else h.setX p fun x => { since := some h.links[p].upAt, heard := x.heard }

/-- `TT_ROLE` of a port (R408). -/
def Hub.ttRole (h : Hub) (p : Nat) : Nat :=
  if !h.linkUp p then 0 else if h.trunkEnd p = 1 then 1 else if h.get Obj.TIME_SOURCE_IN_USE = 4 + p then 2 else 3

/-- Grandmaster data a root end tells: bytes 39 to 57 and the flags [5:3] of byte 2, from the uplink or the gPTP slave port. Accuracy, variance and source of a hub's own
time are not stated by the spec (log entry 2). -/
def Hub.gmData (h : Hub) : List Byte × Nat × Hub :=
  if h.get Obj.ROLE_ACTIVE != 0 && !h.net.gm.isEmpty then
    let steps := (ofBE (slice h.net.gm 14 2) + 1) % 65536
    (overlay h.net.gm 14 (toBE 2 steps), h.net.gmFlags, h)
  else if (h.get Obj.TIME_SOURCE_IN_USE == 1 || h.get Obj.TIME_SOURCE_IN_USE == 2) && !h.net.gm.isEmpty then (h.net.gm, h.net.gmFlags, h)
  else
    let x := h.free 32
    let own := h.eff Obj.TIME_SOURCE != 1
    let bs := toBE 8 h.gmIdentity ++ [BitVec.ofNat 8 (h.eff Obj.PTP_PRIORITY1), BitVec.ofNat 8 (h.eff Obj.PTP_CLOCK_CLASS), BitVec.ofNat 8 x] ++
      toBE 2 (x / 256) ++ [BitVec.ofNat 8 (h.eff Obj.PTP_PRIORITY2)] ++ toBE 2 (h.get Obj.STEPS_REMOVED) ++
      [BitVec.ofNat 8 (x / 2 ^ 24)] ++ toBE 2 (h.get Obj.UTC_OFFSET)
    (bs, h.get Obj.LEAP % 4 + 4 * b2n own, h.used)

/-- The mean of the accepted d_raw. -/
def meanOf (l : List Int) : Int := l.foldl (· + ·) 0 / (max 1 l.length : Nat)

/-- A time exchange cell queued for its slot (R399). -/
def Hub.exchangeSend (h : Hub) (p : Port) : Hub :=
  let h := h.freshX p
  let x := h.xchg[p]
  let root := h.trunkEnd p == 1
  let (gm, fl, h) := if root then h.gmData else (List.replicate 19 0, 0, h)
  let stepping := h.net.step.isSome
  let epoch := h.get (Obj.LINK_EPOCH_COUNT p)
  let b2 := b2n root + 2 * b2n h.timeValid + 4 * b2n stepping + 8 * fl
  let stamp := fun (l : List XStamp) => match l with
    | t :: _ => timeBytes t.time
    | [] => List.replicate 12 0
  let (amount, at_) := h.net.step.getD (0, 0)
  let c := [2, 68, BitVec.ofNat 8 b2] ++ toBE 4 epoch ++ stamp x.tx ++ stamp x.rx ++
    toBE 4 (if root then unsigned 32 ((meanOf x.raw).tdiv 125) else 0) ++
    toBE 4 (if root then h.get Obj.RATE_ADJ else 0) ++ gm ++ toBE 8 (if stepping then unsigned 64 amount else 0) ++
    toBE 4 (if stepping then at_ % 2 ^ 32 else 0)
  let h := (h.sendCtrl p c).bump (Obj.XCHG_SENT p)
  (h.setX p fun x => { x with began := true }).disarm (.exchange p)

/-- Meaning of TIME_EXCHANGE_SEND: at its time in the epoch, or the root end's first cell after link up (R403). -/
def execTimeExchangeSend (p : Port) (s : State) : Host.Outcome State Fault Refusal := s.run fun h =>
  let first := h.trunkEnd p == 1 && ((h.xchg[p]).since != some h.links[p].upAt || !(h.xchg[p]).began)
  if h.linkUp p && (h.due (.exchange p) || first) then h.exchangeSend p else h

/-- The stamp of an epoch. -/
def stampOf (l : List XStamp) (n : Nat) : Option XStamp := l.find? fun x => x.epoch == n

/-- Exchanges up to `n`: `n` itself is settled here, those before it that never were are discarded (R400). -/
def Hub.settleX (h : Hub) (p : Port) (n : Nat) (ok : Bool) : Hub :=
  let lost := match (h.xchg[p]).done with
    | some d => n - d - 1
    | none => 0
  let h := (h.bumpBy (Obj.XCHG_DISCARDED p) lost).setX p fun x => { x with done := some n }
  h.bump (if ok then Obj.XCHG_ACCEPTED p else Obj.XCHG_DISCARDED p)

/-- The root end settles exchange `n` (R400). -/
def Hub.rootExchange (h : Hub) (p : Port) (n : Nat) (t3 : Nat) : Hub :=
  let x := h.xchg[p]
  if x.done.any (Nat.ble n) then h
  else match stampOf x.tx n, stampOf x.rx n, x.t2.find? (fun y => y.1 == n) with
    | some a, some b, some (_, t2) =>
      let rt : Int := ((b.time : Int) - a.time) - ((t3 : Int) - t2)
      let raw := (rt - h.entryAway p a.away - h.entryTow p b.away) / 2
      let delta := meanOf x.raw
      let ok := h.links[p].mismAt != some n && a.steps == b.steps && t3 != 0 &&
        (x.raw.isEmpty || decide ((raw - delta).natAbs ≤ 2 * 8192000))
      let h := h.settleX p n ok
      if ok then
        let l := (raw :: x.raw).take 16
        (h.setX p fun x => { x with raw := l }).putI32 (Obj.TT_DELTA p) ((meanOf l).tdiv 8192)
      else h
    | _, _, _ => h.settleX p n false

/-- The leaf end settles exchange `n`, and takes θ where the port is its time source (R397, R400). -/
def Hub.leafExchange (h : Hub) (p : Port) (n : Nat) (t1 delta ff : Int) : Hub :=
  let x := h.xchg[p]
  if x.done.any (Nat.ble n) then h
  else match stampOf x.tx n, stampOf x.rx n with
    | some a, some b =>
      let ok := h.links[p].mismAt != some n && a.steps == b.steps && t1 != 0
      let h := h.settleX p n ok
      if ok && h.get Obj.TIME_SOURCE_IN_USE == 4 + p.val then
        h.sample .trunk ((b.time : Int) - t1 - h.entryAway p b.away - delta) ff
      else h
    | _, _ => h.settleX p n false

/-- At link up the leaf end sets its network time from the root end's first cell (R403). Its receive delay is the time since the cell's
receive timestamp (log entry 91). `t1` is the cell's own transmit timestamp, which it does not carry. -/
def Hub.setFromRoot (h : Hub) (p : Port) (t1 : Nat) (delay : Int) : Hub :=
  let u := ((t1 : Int) + 8192 * h.eAway p (h.lanesAway p) + delay).toNat
  let new := u * 15625 / 32
  let h := if Nat.ble h.netTime new then h.trigStep (new / netUnit) else h
  { h with netTime := new, netRuns := true, net := { h.net with steps := h.net.steps + 1, last := some (new / netUnit / 125000) } }

/-- Announced step and grandmaster data of the uplink's cell. -/
def Hub.fromUplink (h : Hub) (p : Port) (c : List Byte) : Hub :=
  if h.get Obj.TIME_SOURCE_IN_USE ≠ 4 + p.val then h
  else
    let h := (h.put Obj.GM_IDENTITY (ofBE (slice c 39 8))).put Obj.STEPS_REMOVED ((ofBE (slice c 53 2) + 1) % 65536)
    let n := h.net
    let wait := (ofBE (slice c 66 4) + 2 ^ 32 - h.time32) % 2 ^ 32
    let step := if bitOf (byteAt c 2) 2 then some (signed 64 (ofBE (slice c 58 8)), h.netNs + wait) else n.step
    { h with net := { n with step := step, gm := slice c 39 19, gmFlags := field (byteAt c 2) 5 3 } }

/-- A time exchange cell received (R399, R400, R403). -/
def Hub.exchangeRx (h : Hub) (p : Port) (c : List Byte) (sent : BitVec 96) (at_ : XStamp) : Hub :=
  if !h.linkUp p then h
  else
    let h := h.freshX p
    let delay : Int := (h.netU : Int) - at_.time
    let fromRoot := bitOf (byteAt c 2) 0
    let e := ofBE (slice c 3 4)
    let prev := timeOf (slice c 7 12)
    let h := h.setX p fun x => { x with valid := bitOf (byteAt c 2) 1 }
    if h.trunkEnd p = 2 ∧ fromRoot then
      let h := h.fromUplink p c
      let set := prev == 0 && (h.xchg[p]).rx.isEmpty && h.get Obj.TIME_SOURCE_IN_USE == 4 + p.val
      let h := if set then h.setFromRoot p (timeOf (toBE 12 sent.toNat)) delay
        else if e = 0 then h
        else h.leafExchange p (e - 1) prev (125 * signed 32 (ofBE (slice c 31 4))) (signed 32 (ofBE (slice c 35 4)))
      h.setX p fun x => { x with rx := (⟨e, (if set then h.netU else at_.time), (if set then h.net.steps else at_.steps), at_.away⟩ :: x.rx).take 4 }
    else if h.trunkEnd p = 1 ∧ !fromRoot then
      let h := if e = 0 then h else h.rootExchange p (e - 1) prev
      let t2 := timeOf (slice c 19 12)
      let told := t2 == 0 || ((h.xchg[p]).t2.any fun y => y.2 == t2)
      h.setX p fun x => { x with
        rx := (⟨e, at_.time, at_.steps, at_.away⟩ :: x.rx).take 4
        t2 := if told then x.t2 else ((e, t2) :: x.t2).take 4 }
    else h

/-- Meaning of TIME_EXCHANGE_RX. -/
def execTimeExchangeRx (p : Port) (content : Option (List Byte)) (sent : BitVec 96) (s : State) : Host.Outcome State Fault Refusal :=
  s.run fun h =>
    let now : XStamp := ⟨0, h.netU, h.net.steps, h.lanesAway p⟩
    let at_ := if content.isSome then now else (h.xchg[p]).heard.headD now
    match h.ctrlTake p 2 content with
    | (some c, h) =>
      (if content.isSome then h else h.setX p fun x => { x with heard := x.heard.drop 1 }).exchangeRx p c sent at_
    | (none, h) => h

/-- Meaning of REF_RELOCK: holdover, or the hub's own clock of R145, ends by locking to this port's L0 (R143). -/
def execRefRelock (p : Port) (s : State) : Host.Outcome State Fault Refusal := s.run fun h =>
  let r := h.get (Obj.TK_REF_SOURCE p)
  if r == 4 || r == 1 || r == 5 then h.l0Locked p else h

/-! ### PPS (R406) -/

/-- The pulse ends at its width, and at once when the time-valid flag clears. -/
def Hub.ppsDown (h : Hub) : Hub :=
  if h.net.pps && (h.due .ppsEnd || !h.timeValid) then (({ h with net := { h.net with pps := false } }).disarm .ppsEnd).emit (.ppsOut false)
  else h

/-- A whole second of network time reached, and the end of the pulse. -/
def Hub.ppsEdge (h : Hub) : Hub :=
  let h := h.ppsDown
  let sec := h.netNs / 1000000000
  if !h.netRuns || h.net.second == some sec then h
  else
    let h := { h with net := { h.net with second := some sec } }
    let h := (h.takeUnit .second fun _ => true).icSet 7
    if h.eff Obj.PPS_OUT_ENABLE = 1 ∧ h.timeValid then
      (({ h with net := { h.net with pps := true } }).arm .ppsEnd (h.eff Obj.PPS_WIDTH)).emit (.ppsOut true)
    else h

/-- Meaning of PPS_OUT_EDGE. -/
def execPpsOutEdge (s : State) : Host.Outcome State Fault Refusal := s.run Hub.ppsEdge

/-- A rising edge on PPS_IN. -/
def Hub.ppsIn (h : Hub) : Hub :=
  let h := (h.put Obj.PPS_IN_TIME h.time32).sampleSource
  if h.get Obj.ROLE_ACTIVE = 0 ∧ h.eff Obj.TIME_SOURCE = 2 then
    let second : Int := 8192000 * 1000000000
    let x := (h.netU : Int) % second
    let free := h.get Obj.TIME_STATE == 0
    let h := h.timeSource 3
    (if free then h.put Obj.TIME_STATE 0 else h).sample .pps (if 2 * x < second then x else x - second) 0
  else h

/-- Meaning of PPS_IN_EDGE. -/
def execPpsInEdge (s : State) : Host.Outcome State Fault Refusal := s.run Hub.ppsIn

/-! ### IEEE 802.1Qbv (R392, R393) -/

/-- A gate group would be legal. -/
def Hub.etsOk (h : Hub) (g : Staged) : Bool :=
  let e := g.leader / 256 - 0x5308
  let v := h.newVal g
  let n := v (Obj.ETS_ENTRIES e)
  ((List.range n).map fun i => v (Obj.ETS_GCL e i) / 256).sum == v (Obj.ETS_CYCLE e) && Nat.ble (v (Obj.ETS_CYCLE_EXT e)) (v (Obj.ETS_CYCLE e))

/-- The config change time of a committed group. -/
def Hub.etsCommit (h : Hub) (e : Fin 2) (g : Staged) : Hub :=
  let v := h.newVal g
  let base := v (Obj.ETS_BASE_SEC e) * 1000000000 + v (Obj.ETS_BASE_NS e)
  let soon := h.netNs + 5000
  let at_ := if soon < base then base else base + ceilDiv (soon - base) (v (Obj.ETS_CYCLE e)) * v (Obj.ETS_CYCLE e)
  ({ h with eth := h.eth.set e { h.eth[e] with change := some at_ } }).put (Obj.ETS_PENDING e) 1

/-- The intervals and gates of the list in effect. -/
def Hub.gcl (h : Hub) (e : Nat) : List (Nat × Nat) :=
  (List.range (h.get (Obj.ETS_ENTRIES e))).map fun i => (h.get (Obj.ETS_GCL e i) / 256, h.get (Obj.ETS_GCL e i) % 256)

/-- The entry at an offset in the cycle, and the rest of its interval. -/
def gclAt : List (Nat × Nat) → Nat → Nat → Nat × Nat
  | [], i, _ => (i, 0)
  | (d, _) :: t, i, x => if x < d ∨ t.isEmpty then (i, d - x) else gclAt t (i + 1) (x - d)

/-- The entry in effect at a network time, and the ns until its interval ends; the last old cycle is extended where it would leave less
than `ETS_CYCLE_EXT` before the config change time. -/
def Hub.etsAt (h : Hub) (e : Fin 2) (ns : Nat) : Nat × Nat :=
  let cyc := h.get (Obj.ETS_CYCLE e)
  let base := h.get (Obj.ETS_BASE_SEC e) * 1000000000 + h.get (Obj.ETS_BASE_NS e)
  let x := (((ns : Int) - base) % (cyc : Int)).toNat
  match (h.eth[e]).change with
  | some c =>
    let start := ns - x
    if Nat.ble ns c && Nat.ble (c - start + 1) (h.get (Obj.ETS_CYCLE_EXT e)) then (h.get (Obj.ETS_ENTRIES e) - 1, c - ns)
    else
      let (i, r) := gclAt (h.gcl e) 0 x
      let stop := start + cyc
      let long := Nat.ble stop c && Nat.ble (c - stop + 1) (h.get (Obj.ETS_CYCLE_EXT e)) && i + 1 == h.get (Obj.ETS_ENTRIES e)
      (i, if Nat.ble c ns then r else if long then c - ns else min r (c - ns))
  | none => gclAt (h.gcl e) 0 x

/-- `ETS_CURRENT`: the entry in effect at the network time (R393). -/
def Hub.etsCurrent (h : Hub) (e : Fin 2) : Nat := if h.get (Obj.ETS_ENABLE e) = 1 then (h.etsAt e h.netNs).1 else 0xFF

/-- The same held in the object. -/
def Hub.etsNow (h : Hub) (e : Fin 2) : Hub := h.put (Obj.ETS_CURRENT e) (h.etsCurrent e)

/-- How long a queue stays open from entry `i`, of which `r` ns are left: its run of open entries, once round the list. -/
def openRun (l : List (Nat × Nat)) (q i r : Nat) : Nat :=
  let rest := l.drop (i + 1) ++ l.take (i + 1)
  if bitOf ((l.map (·.2)).getD i 0) q then r + ((rest.takeWhile fun x => bitOf x.2 q).map (·.1)).sum else 0

/-- The longest open interval of a queue in the cycle. -/
def longestOpen (l : List (Nat × Nat)) (q : Nat) : Nat :=
  ((List.range l.length).map fun i => openRun l q i ((l.map (·.1)).getD i 0)).foldl max 0

/-- Mbit/s of a speed code (R384). -/
def ethMbps (code : Nat) : Nat := ([0, 10000, 5000, 2500, 1000, 100, 10] : List Nat).getD code 0

/-- A frame's time on the wire, preamble and gap included, ns: 64 bytes with its FCS at the least (R383). -/
def Hub.wireNs (h : Hub) (e : Nat) (frame : List Byte) : Nat := ceilDiv ((max 60 frame.length + 24) * 8000) (max 1 (ethMbps (h.get (Obj.ETH_LINK e))))

/-- A MAC's own state set. -/
def Hub.setMac (h : Hub) (e : Fin 2) (f : MacSt → MacSt) : Hub := { h with eth := h.eth.set e (f h.eth[e]) }

/-- A value as it will be in effect at the config change time: the one that waits, else the present one. -/
def Hub.etsNext (h : Hub) (k : Nat) : Nat :=
  match h.waiting.find? fun w => w.key == k && w.unit == .etsChange with
  | some w => w.val
  | none => h.get k

/-- How long a queue stays open from the config change time on; `n` is taken where its gates are not used. -/
def Hub.openAfter (h : Hub) (e : Fin 2) (q n : Nat) : Nat :=
  if h.etsNext (Obj.ETS_ENABLE e) = 0 then n
  else
    let l := (List.range (h.etsNext (Obj.ETS_ENTRIES e))).map fun i => (h.etsNext (Obj.ETS_GCL e i) / 256, h.etsNext (Obj.ETS_GCL e i) % 256)
    openRun l q 0 ((l.map (·.1)).headD 0)

/-- The frame may start now: its gate is open until after its end, across a config change too (R392). -/
def Hub.etsFits (h : Hub) (e : Fin 2) (q : Nat) (frame : List Byte) : Bool :=
  let n := h.wireNs e frame
  let ns := h.netNs
  let run := if h.get (Obj.ETS_ENABLE e) = 0 then n else
    let (i, r) := h.etsAt e ns
    openRun (h.gcl e) q i r
  match (h.eth[e]).change with
  | none => Nat.ble n run
  | some c => if Nat.ble (ns + run + 1) c || Nat.ble c ns then Nat.ble n run
    else Nat.ble n (c - ns) || Nat.ble n (c - ns + h.openAfter e q n)

/-- The EtherType after an optional IEEE 802.1Q tag, and where the payload begins. -/
def etherType (f : List Byte) : Nat × Nat := if ofBE (slice f 12 2) = 0x8100 then (ofBE (slice f 16 2), 18) else (ofBE (slice f 12 2), 14)

/-- A PTP frame of the domain in `PTP_DOMAIN` (R385). -/
def Hub.ptpOwn (h : Hub) (f : List Byte) : Bool :=
  let (ty, at_) := etherType f
  ty == 0x88F7 && byteAt f (at_ + 4) == h.eff Obj.PTP_DOMAIN

/-- A PTP event message (R391): Sync, Delay_Req, Pdelay_Req or Pdelay_Resp. -/
def ptpEvent (f : List Byte) : Bool := Nat.ble (byteAt f (etherType f).2 % 16) 3

/-- The PTP engine executes: it is neither off, halted nor frozen (R390). -/
def Hub.ptpRuns (h : Hub) : Bool :=
  let st := h.get (Obj.ENG_STATE (h.eff Obj.PTP_ENGINE))
  st == 2 || st == 3

/-- A message of the PTP engine's firmware queued at a port: addresses and header of IEEE 802.1AS, which the spec names and does not repeat
(R389; log entry 29). `corr` is in 1/65 536 ns. -/
def Hub.ptpSend (h : Hub) (e : Fin 2) (type flags corr seq ctrl interval : Nat) (body : List Byte) : Hub :=
  let f := toBE 6 0x0180C200000E ++ toBE 6 (h.get (Obj.ETH_MAC_ADDR e)) ++ toBE 2 0x88F7 ++ [BitVec.ofNat 8 (0x10 + type), 0x12] ++
    toBE 2 (34 + body.length) ++ [BitVec.ofNat 8 (h.eff Obj.PTP_DOMAIN), 0] ++ toBE 2 flags ++ toBE 8 corr ++ toBE 4 0 ++
    toBE 8 Config.unitId.toNat ++ toBE 2 (e.val + 1) ++ toBE 2 seq ++ [BitVec.ofNat 8 ctrl, BitVec.ofNat 8 interval] ++ body
  h.setMac e fun m => { m with queue := m.queue ++ [(0, f)] }

/-- A timestamp as a message holds it, and the fraction of a nanosecond in 1/65 536. -/
def ptpTime (t : Int) : List Byte × Nat :=
  let ns := t.toNat / 8192000
  (toBE 6 (ns / 1000000000) ++ toBE 4 (ns % 1000000000), t.toNat % 8192000 / 125)

/-- A timestamp's message follows the event message it is of: Follow_Up with its information TLV, or Pdelay_Resp_Follow_Up (R389). -/
def Hub.ptpFollowUp (h : Hub) (e : Fin 2) (f : List Byte) (t : Int) : Hub :=
  let at_ := (etherType f).2
  let type := byteAt f at_ % 16
  let seq := ofBE (slice f (at_ + 30) 2)
  let (ts, frac) := ptpTime t
  if slice f (at_ + 20) 8 ≠ toBE 8 Config.unitId.toNat then h
  else if type = 0 then
    h.ptpSend e 8 0x0008 frac seq 2 (byteAt f (at_ + 33)) (ts ++ [0, 3, 0, 28, 0, 0x80, 0xC2, 0, 0, 1] ++ List.replicate 22 0)
  else if type = 3 then h.ptpSend e 10 0x0008 frac seq 5 0x7F (ts ++ slice f (at_ + 44) 10)
  else h

/-- An event frame of the domain that starts is stamped at its first bit after the start-of-frame delimiter, plus the PHY's delay
(R391). -/
def Hub.ptpTx (h : Hub) (e : Fin 2) (f : List Byte) : Hub :=
  if h.ptpOwn f && ptpEvent f then
    let t : Int := (h.netU : Int) + (64 * 8192000 * 1000 / max 1 (ethMbps (h.get (Obj.ETH_LINK e))) : Nat) + 8192 * h.get (Obj.TX_PHY_DELAY e)
    (h.setMac e fun m => { m with ptp := m.ptp ++ [⟨true, some t, f⟩] }).ptpFollowUp e f t
  else h

/-- The MAC starts the next frame: the highest queue whose oldest frame may start (R388, R392). No PTP frame of the domain goes out while the
PTP engine does not run (R390). -/
def Hub.macSend (h : Hub) (e : Fin 2) : Hub :=
  let m := h.eth[e]
  if !h.domOn 21 || h.get (Obj.ETH_LINK e) == 0 || Nat.ble (h.now + 1) m.busy || Nat.ble (h.now + 1) m.paused then h
  else
    let lost := if h.get (Obj.ETS_ENABLE e) = 0 then [] else
      m.queue.filter fun x => Nat.ble (longestOpen (h.gcl e) x.1 + 1) (h.wireNs e x.2)
    let h := (h.bumpBy (Obj.GATE_OVERSIZE e) lost.length).setMac e fun m => { m with queue := m.queue.filter fun x => !lost.contains x }
    let h := if h.ptpRuns then h else h.setMac e fun m => { m with queue := m.queue.filter fun x => !h.ptpOwn x.2 }
    let heads := (List.range 8).filterMap fun k => ((h.eth[e]).queue.find? fun x => x.1 == 7 - k)
    match heads.find? fun x => h.etsFits e x.1 x.2 with
    | none => h
    | some x =>
      let h := (h.ptpTx e x.2).setMac e fun m => { m with queue := m.queue.erase x, busy := h.now + h.wireNs e x.2 }
      let f := if x.2.length < 60 then padTo 60 x.2 else x.2
      (h.emit (.ethFrame e (f ++ toLE 4 (crc32 f)))).bump (Obj.TX_FRAMES e)

/-- Meaning of ETS_CONFIG_CHANGE: the committed list applies. -/
def Hub.etsChange (h : Hub) (e : Fin 2) : Hub :=
  match (h.eth[e]).change with
  | some c =>
    if Nat.ble c h.netNs then
      let h := h.takeUnit .etsChange fun w => w.key / 256 == 0x5308 + e.val
      let h := ((h.setMac e fun m => { m with change := none }).put (Obj.ETS_PENDING e) 0).event 0x3E (Obj.ETS_ENABLE e)
      (h.etsNow e).macSend e
    else h
  | none => h
def execEtsConfigChange (e : Fin 2) (s : State) : Host.Outcome State Fault Refusal := s.run fun h => h.etsChange e

/-- Meaning of ETS_GATE_ENTRY_CHANGE. -/
def execEtsGateEntryChange (e : Fin 2) (s : State) : Host.Outcome State Fault Refusal := s.run fun h => (h.etsNow e).macSend e

/-! ### The MACs (R383 to R388) -/

/-- The VID of a frame, 0 when it is untagged or priority-tagged. -/
def frameVid (f : List Byte) : Nat := if ofBE (slice f 12 2) = 0x8100 then ofBE (slice f 14 2) % 4096 else 0

/-- A tunnel group at E0 or E1 would be legal (R386). -/
def Hub.ethTunOk (h : Hub) (g : Staged) : Bool :=
  let t := tunOf g.leader
  let v := h.newVal g
  let ends := fun (e : Nat) => v (Obj.TUN_END_A t) == e || (v (Obj.TUN_END_A t) != 0xFF && bitOf (v (Obj.TUN_END_B t)) e)
  let cls := v (Obj.TUN_CLASS t)
  let loc := v (Obj.TUN_LOCAL t)
  [8, 9].all fun e => !ends e || ((cls == 1 || cls == 6) && (List.range 256).all fun u =>
    u == t || !h.tunUsed u || !h.hasEnd u e ||
      (h.get (Obj.TUN_LOCAL u) % 4096 != loc % 4096 && !(bitOf loc 12 && bitOf (h.get (Obj.TUN_LOCAL u)) 12)))

/-- The tunnel a frame is carried in. -/
def Hub.frameTunnel (h : Hub) (e : Nat) (f : List Byte) : Option Nat :=
  let at_ := fun t => h.tunUsed t && h.hasEnd t (8 + e)
  match firstBelow (fun t => at_ t && h.get (Obj.TUN_LOCAL t) % 4096 == frameVid f) 256 with
  | some t => some t
  | none => firstBelow (fun t => at_ t && bitOf (h.get (Obj.TUN_LOCAL t)) 12) 256

/-- A frame cut into cells and presented (R387). -/
def Hub.frameCells (h : Hub) (e : Fin 2) (t size : Nat) : Nat → Bool → List Byte → Hub
  | 0, _, _ => h
  | fuel + 1, first, bs =>
    let last := Nat.ble bs.length size
    let h := h.present ⟨8 + e.val, h.get (Obj.TUN_LOCAL t), mkHdr (h.get (Obj.TUN_CLASS t)) first last false (min size bs.length),
      bs.take size, false, false⟩
    if last then h else h.frameCells e t size fuel false (bs.drop size)

/-- Frame bytes per cell of a tunnel: 112 where a link it leaves by encrypts its class. -/
def Hub.frameStep (h : Hub) (t : Nat) : Nat :=
  if (List.range 2).any fun p => h.hasEnd t p && h.encrypts p (h.get (Obj.TUN_CLASS t)) then 112 else 128

/-- One's-complement sum of 16-bit words (the Internet checksum). -/
def inetSum (bs : List Byte) : Nat :=
  let s := ((List.range ((bs.length + 1) / 2)).map fun i => byteAt bs (2 * i) * 256 + byteAt bs (2 * i + 1)).sum
  let s := s % 65536 + s / 65536
  65535 - (s % 65536 + s / 65536) % 65536

/-- A frame of the HOP endpoint put in an egress queue. -/
def Hub.localSend (h : Hub) (e : Fin 2) (f : List Byte) : Hub := (h.setMac e fun m => { m with queue := m.queue ++ [(0, f)] }).macSend e

/-- The frame back to its sender: addresses swapped, the tag dropped. -/
def Hub.replyTo (h : Hub) (e : Fin 2) (f : List Byte) (type : Nat) (payload : List Byte) : List Byte :=
  slice f 6 6 ++ toBE 6 (h.get (Obj.ETH_MAC_ADDR e)) ++ toBE 2 type ++ payload

/-- A frame for the HOP endpoint: an ARP request, an ICMP echo request or UDP to its address; none where it is not one (R385). -/
def Hub.localFrame (h : Hub) (e : Fin 2) (f : List Byte) : Option Hub :=
  let ip := h.get Obj.HOP_IPV4_ADDR
  let (ty, at_) := etherType f
  let b := f.drop at_
  let ihl := 4 * (byteAt b 0 % 16)
  if ip = 0 then none
  else if ty = 0x0806 ∧ ofBE (slice b 24 4) = ip then
    some (if ofBE (slice b 6 2) = 1 then
        h.localSend e (h.replyTo e f 0x0806 ([0, 1, 8, 0, 6, 4, 0, 2] ++ toBE 6 (h.get (Obj.ETH_MAC_ADDR e)) ++ toBE 4 ip ++ slice b 8 10))
      else h)
  else if ty = 0x0800 ∧ byteAt b 0 / 16 = 4 ∧ ofBE (slice b 16 4) = ip then
    let p := (b.take (ofBE (slice b 2 2))).drop ihl
    if byteAt b 9 = 1 ∧ byteAt p 0 = 8 then
      let m := [(0 : Byte), 0, 0, 0] ++ p.drop 4
      let m := overlay m 2 (toBE 2 (inetSum m))
      let hd := overlay (overlay (b.take ihl) 10 [0, 0]) 12 (toBE 4 ip ++ slice b 12 4)
      let hd := overlay hd 10 (toBE 2 (inetSum hd))
      some (h.localSend e (h.replyTo e f 0x0800 (hd ++ m)))
    else if byteAt b 9 = 17 then
      some (if ofBE (slice p 2 2) = h.get Obj.HOP_UDP_PORT then
          { h with hopIn := h.hopIn ++ [(.udp e (BitVec.ofNat 32 (ofBE (slice b 12 4))) (BitVec.ofNat 16 (ofBE (p.take 2))),
            (p.take (ofBE (slice p 4 2))).drop 8)] }
        else h)
    else none
  else none

/-- A PTP frame handed to the engine (R385, R391): an event frame carries the timestamp of its first bit after the start-of-frame delimiter,
less the PHY's delay. A Pdelay_Req is answered (R389). -/
def Hub.ptpRx (h : Hub) (e : Fin 2) (f : List Byte) : Hub :=
  let t : Int := (h.netU : Int) - ((f.length + 4) * 8 * 8192000 * 1000 / max 1 (ethMbps (h.get (Obj.ETH_LINK e))) : Nat) -
    8192 * h.get (Obj.RX_PHY_DELAY e)
  let at_ := (etherType f).2
  let h := (h.bump (Obj.PTP_RX e)).setMac e fun m => { m with ptp := m.ptp ++ [⟨false, if ptpEvent f then some t else none, f⟩] }
  if byteAt f at_ % 16 = 2 ∧ h.ptpRuns ∧ h.eff (Obj.PTP_PORT_ENABLE e) = 1 then
    let (ts, frac) := ptpTime t
    h.ptpSend e 3 0x0208 ((2 ^ 64 - frac) % 2 ^ 64) (ofBE (slice f (at_ + 30) 2)) 5 0x7F (ts ++ slice f (at_ + 20) 10)
  else h

/-- The state of a port by its enable and the external configuration, else the one given; the BMCA never has an E port slave while
the hub has an uplink, and announces there as master (R389, R391, R407). -/
def Hub.ptpState (h : Hub) (e : Fin 2) (given : Nat) : Hub :=
  let st := if h.eff (Obj.PTP_PORT_ENABLE e) = 0 then 0 else if h.eff Obj.PTP_EXT_CONFIG = 1 then h.eff (Obj.PTP_EXT_STATE e) else given
  h.put (Obj.PTP_PORT_STATE e) (if st = 2 ∧ h.hasUplink ∧ h.eff Obj.PTP_EXT_CONFIG = 0 then 1 else st)

/-- What the firmware of the PTP engine publishes after a PTP frame, while that engine runs (R390). -/
def Hub.ptpPublish (h : Hub) (e : Fin 2) (x : PtpOut) : Hub :=
  if !h.ptpRuns then h
  else
    let h := h.ptpState e x.port.val
    let h := ((h.put (Obj.MEAN_LINK_DELAY e) x.delay.toNat).put (Obj.AS_CAPABLE e) (b2n x.capable)).setMac e fun m => { m with
      ptp := [], ptpSeen := h.now }
    let gm := toBE 19 x.gm.toNat
    if h.hasUplink then h
    else
      let h := (h.put Obj.GM_IDENTITY (ofBE (gm.take 8))).put Obj.STEPS_REMOVED (ofBE (slice gm 14 2))
      { h with net := { h.net with gm := gm, gmFlags := x.flags.val } }

/-- A message interval of a port, ns: 2 to the power of the object, in seconds. -/
def Hub.ptpInterval (h : Hub) (k : Nat) : Nat :=
  let l := signed 32 (h.get k)
  if l < 0 then 1000000000 / 2 ^ (-l).toNat else 1000000000 * 2 ^ l.toNat

/-- A message of kind `i` that is due: its sequence number, and the hub with the next one timed. -/
def Hub.ptpNext (h : Hub) (e : Fin 2) (i : Fin 3) (k : Nat) : Nat × Hub :=
  let s := h.eth[e].ptpSeq[i]
  (s, h.setMac e fun m => { m with ptpAt := m.ptpAt.set i (h.now + h.ptpInterval k), ptpSeq := m.ptpSeq.set i ((s + 1) % 65536) })

/-- The BMCA's run and the Announce of a master port (R389, R391): a port of which nothing has been published for three intervals is
master. -/
def Hub.ptpAnnounce (h : Hub) (e : Fin 2) : Hub :=
  let (seq, h) := h.ptpNext e 2 (Obj.LOG_ANNOUNCE e)
  let h := (h.takeUnit .bmca fun w => w.key / 256 == 0x5306 || w.key / 256 == 0x5304 + e.val).takeUnit .announce fun _ => true
  let st := h.get (Obj.PTP_PORT_STATE e)
  let h := h.ptpState e (if st = 0 ∨ h.eth[e].ptpSeen + 3 * h.ptpInterval (Obj.LOG_ANNOUNCE e) < h.now then 1 else st)
  if h.get (Obj.PTP_PORT_STATE e) ≠ 1 then h
  else
    let (gm, fl, h) := h.gmData
    h.ptpSend e 11 (8 + fl) 0 seq 5 (h.get (Obj.LOG_ANNOUNCE e) % 256) (List.replicate 10 0 ++ slice gm 17 2 ++ [0] ++ slice gm 8 6 ++
      gm.take 8 ++ slice gm 14 3 ++ [0, 8, 0, 8] ++ toBE 8 Config.unitId.toNat)

/-- What the firmware of the PTP engine sends of itself at a port whose link is up, while that engine runs (R389, R390). -/
def Hub.ptpGo (h : Hub) (e : Fin 2) : Hub :=
  if !h.ptpRuns || !h.domOn 21 || h.get (Obj.ETH_LINK e) == 0 then h
  else
    let due := fun (h : Hub) (i : Fin 3) => Nat.ble (h.eth[e].ptpAt[i]) h.now
    let h := if due h 2 then h.ptpAnnounce e else h
    let h := if due h 1 && h.eff (Obj.PTP_PORT_ENABLE e) == 1 then
        let (seq, h) := h.ptpNext e 1 (Obj.LOG_PDELAY_REQ e)
        h.ptpSend e 2 0x0008 0 seq 5 (h.get (Obj.LOG_PDELAY_REQ e) % 256) (List.replicate 20 0)
      else h
    if due h 0 && h.get (Obj.PTP_PORT_STATE e) == 1 then
      let (seq, h) := h.ptpNext e 0 (Obj.LOG_SYNC e)
      h.ptpSend e 0 0x0208 0 seq 0 (h.get (Obj.LOG_SYNC e) % 256) (List.replicate 10 0)
    else h

/-- A PTP frame of the domain, and what the engine makes of it. -/
def Hub.ptpFrame (h : Hub) (e : Fin 2) (f : List Byte) (x : Option PtpOut) : Hub :=
  match x with
  | none => h.ptpRx e f
  | some x => (h.ptpRx e f).ptpPublish e x

/-- A received frame, from DA through its last payload byte (R385). -/
def Hub.frameRx (h : Hub) (e : Fin 2) (fcsOk : Bool) (f : List Byte) (x : Option PtpOut) : Hub :=
  if h.get (Obj.ETH_LINK e) = 0 ∨ !h.domOn 21 then h
  else if !fcsOk || Nat.ble (f.length + 5) 64 || Nat.ble (h.get (Obj.ETH_MAX_FRAME e) + 1) (f.length + 4) then h.bump (Obj.RX_ERRORS e)
  else
    let (ty, at_) := etherType f
    if ty = 0x8808 ∧ ofBE (slice f at_ 2) = 1 ∧ h.get (Obj.ETH_PAUSE e) = 1 ∧
        (ofBE (f.take 6) = 0x0180C2000001 ∨ ofBE (f.take 6) = h.get (Obj.ETH_MAC_ADDR e)) then
      let ns := ofBE (slice f (at_ + 2) 2) * 512 * 1000 / max 1 (ethMbps (h.get (Obj.ETH_LINK e)))
      h.setMac e fun m => { m with paused := h.now + ns }
    else if h.ptpOwn f then h.ptpFrame e f x
    else match h.localFrame e f with
      | some h => h.bump (Obj.LOCAL_RX e)
      | none => match h.frameTunnel e f with
        | some t => (h.bump (Obj.RX_FRAMES e)).frameCells e t (h.frameStep t) 90 true f
        | none => h.bump (Obj.RX_UNMATCHED e)

/-- Meaning of ETH_FRAME_RX. -/
def execEthFrameRx (e : Fin 2) (fcsOk : Bool) (frame : List Byte) (ptp : Option PtpOut) (s : State) :
    Host.Outcome State Fault Refusal := s.run fun h => h.frameRx e fcsOk frame ptp

/-- The egress queue of a frame (R388). -/
def Hub.frameQueue (h : Hub) (e t : Nat) (f : List Byte) : Nat :=
  if ofBE (slice f 12 2) = 0x8100 then
    let pcp := byteAt f 14 / 32
    field (h.get (Obj.ETH_PCP_MAP e)) (3 * pcp + 2) (3 * pcp)
  else h.get (Obj.TUN_CLASS t)

/-- A cell at an egress MAC (R388). -/
def Hub.reassemble (h : Hub) (e : Fin 2) (t : Nat) (hdr body : List Byte) (gap : Bool) : Hub :=
  let old := (h.eth[e]).parts.find? fun x => x.1 == t
  let bs := body.take (hdrLen hdr)
  let keep := h.setMac e fun m => { m with parts := m.parts.filter fun x => x.1 != t }
  let lost := keep.bump (Obj.TX_REASSEMBLY_DROP e)
  let put := fun (h : Hub) (f : List Byte) =>
    if hdrLast hdr then (h.setMac e fun m => { m with queue := m.queue ++ [(h.frameQueue e t f, f)] }).macSend e
    else h.setMac e fun m => { m with parts := (t, f) :: m.parts }
  match old with
  | some (_, f) => if hdrFirst hdr then put lost bs else if gap then lost else put keep (f ++ bs)
  | none => if hdrFirst hdr then put keep bs else if gap then lost else h

/-- Meaning of ETH_EGRESS_REASSEMBLY: a cell of a tunnel, or, with none given, the oldest that waits at the egress. -/
def execEthEgressReassembly (e : Fin 2) (cell : Option (Tunnel × CellIn)) (s : State) : Host.Outcome State Fault Refusal :=
  s.run fun h => match cell with
    | some (t, c) => h.reassemble e t.val c.hdr c.body c.gap
    | none => match h.inboxTake (8 + e.val) fun _ => true with
      | some (c, h) => h.reassemble e c.tun c.hdr c.body c.gap
      | none => h

/-! ### MDIO and the PHY (R384) -/

/-- An MDIO frame starts, its reserved bits [29:26] ignored: busy until it ends (R10, R384). -/
def Hub.mdioStart (h : Hub) (e : Fin 2) (v : W32) : Hub := (h.put (Obj.MDIO_DATA e) (2 ^ 16)).emit (.mdio e (v &&& 0xC3FFFFFF))

/-- A write of `MDIO_CMD`. -/
def Hub.mdioCmd (h : Hub) (o : Origin) (e : Fin 2) (v : W32) : Hub :=
  h.guarded o (Obj.MDIO_CMD e) v.toNat fun h => (rcOk, h.mdioStart e v)

/-- Meaning of MDIO_READ: `[30]` is set. -/
def execMdioRead (o : Origin) (e : Fin 2) (v : W32) (s : State) : Host.Outcome State Fault Refusal :=
  s.run fun h => h.mdioCmd o e (v ||| 0x40000000)

/-- Meaning of MDIO_WRITE: `[30]` is clear. -/
def execMdioWrite (o : Origin) (e : Fin 2) (v : W32) (s : State) : Host.Outcome State Fault Refusal :=
  s.run fun h => h.mdioCmd o e (v &&& 0xBFFFFFFF)

/-- Meaning of MDIO_COMPLETE: read data, or no response. -/
def execMdioComplete (e : Fin 2) (data : Option W16) (s : State) : Host.Outcome State Fault Refusal := s.run fun h =>
  if !bitOf (h.get (Obj.MDIO_DATA e)) 16 then h
  else h.put (Obj.MDIO_DATA e) (match data with
    | some d => d.toNat
    | none => 2 ^ 17)

/-- The PHY signals its link: the speed it negotiated in band, which `ETH_SPEED` overrides; a speed the mode does not have gives no link
(R383, R384). -/
def Hub.phyLink (h : Hub) (e : Fin 2) (speed : Nat) : Hub :=
  let h := if speed = 0 then h else h.takeUnit .phyUp fun w => w.key / 256 == 0x5302 + e.val
  let mode := h.eff (Obj.ETH_MODE e)
  let set := h.eff (Obj.ETH_SPEED e)
  let code := if set = 0 then speed else set
  let up := speed != 0 && (if mode = 1 then Nat.ble code 4 else mode == 2 && Nat.ble 4 code)
  let h := h.put (Obj.ETH_LINK e) (if up then code else 0)
  if up then h.startWake 21 5 4 else (h.setMac e fun m => { m with parts := [], queue := [] }).egressLost (8 + e.val)

/-- Meaning of ETH_PHY_LINK_CHANGE. -/
def execEthPhyLinkChange (e : Fin 2) (speed : Fin 7) (s : State) : Host.Outcome State Fault Refusal := s.run fun h => h.phyLink e speed

end Sys2Proof.Machine
end

