-- ==== Sys2Proof/Machine/Motion.lean ====
section
/-! DEFINITION. The motion tunnel and the axis links (chapter 14): motion cycles, link cycles, motion cells, missed cycles, safe stop
and the notices of R634. -/

namespace Sys2Proof.Machine

/-! ### Configuration of links and image links (R439 to R441) -/

/-- Drops of an image link, present ones in ascending order. -/
def Hub.drops (h : Hub) (L : Nat) : List Nat :=
  (List.range 8).filter fun d => bitOf (h.get (if L < 8 then Obj.AXL_DROPS L else Obj.IL_DROPS (L - 8))) d

/-- Command and response bytes of a drop. -/
def Hub.dropBytes (h : Hub) (L d : Nat) : Nat := h.get (if L < 8 then Obj.DROP_BYTES L d else Obj.IL_DROP_BYTES (L - 8) d)
def Hub.cmdBytes (h : Hub) (L d : Nat) : Nat := h.dropBytes L d % 256
def Hub.respBytes (h : Hub) (L d : Nat) : Nat := h.dropBytes L d / 256

/-- Seed of a drop's section CRC (R435). -/
def Hub.dropTag (h : Hub) (L d : Nat) : Nat := h.get (if L < 8 then Obj.DROP_TAG L d else Obj.IL_DROP_TAG (L - 8) d)

/-- The period P in ns (R421). -/
def Hub.motPeriod (h : Hub) : Nat := 31250 * 2 ^ h.get Obj.MOT_PERIOD

/-- Busy time from the bytes of the present drops (R419). -/
def busyNs (bytes : List Nat) : Nat := 5650 + (bytes.map fun b => 1280 + 40 * (b % 256 + b / 256)).sum

/-- Length of the command frame. -/
def frameNs (bytes : List Nat) : Nat := 400 + (bytes.map fun b => 40 * (b % 256 + 4)).sum

/-- Bytes of the present drops of a local link. -/
def Hub.linkBytes (h : Hub) (n : Nat) : List Nat := (h.drops n).map (h.dropBytes n)

/-- Response offset of a drop, ns. -/
def Hub.respOffset (h : Hub) (n d : Nat) : Nat :=
  5640 + (((h.drops n).filter fun x => Nat.ble (x + 1) d).map fun x => 640 + 40 * (12 + h.respBytes n x)).sum

/-- End of a drop's response slot, which is a gap and then the response frame, ns from the link start. -/
def Hub.slotEnd (h : Hub) (n d : Nat) : Nat := frameNs (h.linkBytes n) + h.respOffset n d + 40 * (12 + h.respBytes n d)

/-- `AXL_BUSY` and `AXL_APPLY` of the group in effect. -/
def Hub.axlTimes (h : Hub) (n : Nat) : Hub :=
  (h.put (Obj.AXL_BUSY n) (busyNs (h.linkBytes n))).put (Obj.AXL_APPLY n) (h.get (Obj.AXL_START n) + frameNs (h.linkBytes n) + 2500)

/-- The hub is the cycle master. -/
def Hub.isMaster (h : Hub) : Bool := h.flag Obj.MOT_MASTER

/-- An image link beyond the local ones is enabled. -/
def Hub.ilOn (h : Hub) (L : Nat) : Bool := Nat.ble 8 L && h.get (Obj.IL_DROPS (L - 8)) != 0

/-- Every configured drive, by what the hub observes: its enabled local links, and in the master its image links. -/
def Hub.drives (h : Hub) : List Nat :=
  (List.range (if h.isMaster then 32 else 8)).flatMap fun L =>
    if (if L < 8 then h.get (Obj.AXL_STATE L) != 0 else h.ilOn L) then (h.drops L).map (8 * L + ·) else []

/-! ### Commit checks and effects (R419, R427, R438 to R440) -/

/-- A link start and a busy time meet R419. -/
def linkFits (start busy per : Nat) : Bool := Nat.ble busy per && Nat.ble 1000 start && Nat.ble (start + 1000) per

/-- `MOT_STATE` as it reads (R637). -/
def Hub.motState (h : Hub) : Nat := if h.get Obj.SAFE_STATE = 1 then h.get Obj.MOT_STATE else 3

/-- The motion group would be legal. -/
def Hub.motGroupOk (h : Hub) (g : Staged) : Bool :=
  let v := h.newVal g
  let per := 31250 * 2 ^ v Obj.MOT_PERIOD
  h.motState != 2 && h.motState != 3 && Nat.ble (v Obj.MOT_OFFSET + 1) per &&
  Nat.ble 1000 (v Obj.MOT_RESP_DEADLINE) && Nat.ble (v Obj.MOT_RESP_DEADLINE) (2 * per) &&
  ((List.range 8).all fun n => h.get (Obj.AXL_ENABLE n) == 0 || linkFits (h.get (Obj.AXL_START n)) (busyNs (h.linkBytes n)) per) &&
  ((List.range 24).all fun i => h.get (Obj.IL_DROPS i) == 0 || Nat.ble (h.get (Obj.IL_CMD_DEADLINE i) + 1) per)

/-- A link group would be legal. -/
def Hub.axlGroupOk (h : Hub) (g : Staged) : Bool :=
  let n := g.leader / 256 - 0x5420
  let v := h.newVal g
  linkFits (v (Obj.AXL_START n))
    (busyNs (((List.range 8).filter fun d => bitOf (v (Obj.AXL_DROPS n)) d).map fun d => v (Obj.DROP_BYTES n d))) h.motPeriod

/-- An image-link group would be legal. -/
def Hub.ilGroupOk (h : Hub) (g : Staged) : Bool :=
  Nat.ble (h.newVal g (Obj.IL_CMD_DEADLINE (g.leader / 256 - 0x5448)) + 1) h.motPeriod

/-- A tunnel group at attachment 10 would be legal (R427). -/
def Hub.motTunOk (h : Hub) (g : Staged) : Bool :=
  let t := tunOf g.leader
  let v := h.newVal g
  let link := v (Obj.TUN_LOCAL t) % 32
  let ends := v (Obj.TUN_END_A t) == 10 || (v (Obj.TUN_END_A t) != 0xFF && bitOf (v (Obj.TUN_END_B t)) 10)
  !ends || (v (Obj.TUN_CLASS t) == 7 && (if h.isMaster then Nat.ble 8 link else Nat.ble link 7) &&
    (List.range 256).all fun u => u == t || !h.tunUsed u || !h.hasEnd u 10 || h.get (Obj.TUN_LOCAL u) % 32 != link)

/-- A local link's own state set. -/
def Hub.setAxl (h : Hub) (n : Fin 8) (f : AxlSt → AxlSt) : Hub := { h with axl := h.axl.set n (f h.axl[n]) }

/-- A link switched off (R420): its waiting group is taken. -/
def Hub.axlOff (h : Hub) (n : Fin 8) : Hub :=
  let h := (h.takeUnit .motCycle fun w => w.key / 256 == 0x5420 + n.val).axlTimes n
  (h.put (Obj.AXL_STATE n) 0).setAxl n fun _ => {}

/-- A link group committed (R420, R439). -/
def Hub.axlCommit (h : Hub) (n : Fin 8) (enable : Bool) : Hub :=
  if enable then (if h.get (Obj.AXL_STATE n) = 0 ∧ h.domOn 24 then h.put (Obj.AXL_STATE n) 1 else h).setAxl n fun x => { x with off := false }
  else if (h.axl[n]).runs then h.setAxl n fun x => { x with off := true }
  else h.axlOff n

/-- The AXL domain has come on: enabled links are idle. It is off: every link is off (R420). -/
def Hub.axlDomain (h : Hub) (on : Bool) : Hub :=
  (List.finRange 8).foldl (fun h (n : Fin 8) =>
    if on then (if h.get (Obj.AXL_STATE n) = 0 ∧ h.get (Obj.AXL_ENABLE n) = 1 then (h.axlTimes n).put (Obj.AXL_STATE n) 1 else h)
    else (h.put (Obj.AXL_STATE n) 0).setAxl n fun _ => {}) h

/-- The value of a link object at the link's next start: a group committed at least 10 µs before it counts. -/
def Hub.axlNext (h : Hub) (k at_ : Nat) : Nat :=
  match h.waiting.find? fun w => w.key == k && Nat.ble (w.acc + us 10) (h.now + (at_ - h.netNs)) with
  | some w => w.val
  | none => h.get k

/-- The drops present in the frame of a link's cycle that starts at `sk`. -/
def Hub.dropsNext (h : Hub) (n sk : Nat) : List Nat :=
  (List.range 8).filter fun d => bitOf (h.axlNext (Obj.AXL_DROPS n) (sk + h.get (Obj.AXL_START n))) d

/-- T_L of a link in the cycle that starts at `sk`. -/
def Hub.linkStart (h : Hub) (n sk : Nat) : Nat := h.axlNext (Obj.AXL_START n) (sk + h.get (Obj.AXL_START n))

/-! ### Missed cycles (R434, R436) -/

/-- The object an integrity event names. -/
def Hub.driveKey (h : Hub) (s : Nat) : Nat := if h.isMaster then Obj.DRIVE_STATUS (s / 8) (s % 8) else Obj.CMD_MISSING (s / 8)

/-- A drive missed a cycle, or did not. Its count starts at its first valid cycle (R638, R665). -/
def Hub.cycleSeen (h : Hub) (s : Nat) (missed : Bool) : Hub :=
  let m := h.mot
  if !missed then { h with mot := { m with
    misses := m.misses.filter (fun x => x.1 != s)
    seen := s :: m.seen.filter (· != s)
    faulted := m.faulted.filter (· != s) } }
  else if !m.seen.contains s then h
  else
    let n := assoc m.misses s + 1
    let h := { h with mot := { m with misses := assocSet m.misses s n } }
    if h.eff Obj.MOT_MISS_LIMIT ≤ n ∧ !m.faulted.contains s then
      let h := { h with mot := { h.mot with faulted := s :: h.mot.faulted } }
      ((h.report 7 s).bump Obj.MOT_INTEGRITY_FAULTS).event 0x3F (h.driveKey s)
    else h

/-- Every configured drive misses a cycle. -/
def Hub.allMiss (h : Hub) : Hub := h.drives.foldl (fun h s => h.cycleSeen s true) h

/-! ### Frames of the links (R412 to R415) -/

/-- One byte through the additive scrambler x^15 + x^14 + 1, most significant bit first. -/
def scrambleByte (st : Nat) (b : Byte) : Nat × Byte :=
  (byteBits b).foldl (fun (x : Nat × Byte) bit =>
    let f := Bool.xor (bitOf x.1 14) (bitOf x.1 13)
    ((x.1 * 2 + b2n f) % 2 ^ 15, (x.2 <<< 1) ||| BitVec.ofNat 8 (b2n (Bool.xor f bit)))) (st, 0)

/-- Bytes scrambled or descrambled from the seed. -/
def scramble : Nat → List Byte → List Byte
  | _, [] => []
  | st, b :: bs =>
    let (st, x) := scrambleByte st b
    x :: scramble st bs

/-- Preamble and start byte. -/
def preamble : List Byte := [0x55, 0x55, 0x55, 0x55, 0x55, 0xD5]

/-- The link CRC. -/
def crc16 (bs : List Byte) : Nat := crcMsb 16 0x1021 0xFFFF bs

/-- A frame put on a link. -/
def Hub.axlSend (h : Hub) (n : Fin 8) (bytes : List Byte) : Hub := h.emit (.axl n (preamble ++ scramble 0x7FFF bytes))

/-- The bytes of a command frame after the start byte: type, mask, count, and a section for each present drop. -/
def Hub.commandFrame (h : Hub) (n k : Nat) (secs : List (Nat × List Byte)) : List Byte :=
  let ds := h.drops n
  let got := fun d => (secs.find? fun x => x.1 == d).map (·.2)
  let mask := (ds.map fun d => if (got d).isSome then 2 ^ d else 0).sum
  let head : List Byte := [0x1C, BitVec.ofNat 8 mask] ++ toBE 2 (k % 65536)
  head ++ ds.flatMap fun d =>
    let body := padTo (h.cmdBytes n d) ((got d).getD []) ++ toBE 2 (h.respOffset n d / 10)
    body ++ toBE 2 (crc16 (head ++ body))

/-- A safe-stop frame on a link, which enters state 3 (R437). -/
def Hub.safeFrame (h : Hub) (n : Fin 8) (k : Nat) : Hub :=
  let head : List Byte := [0x5A, 0] ++ toBE 2 (k % 65536)
  (((h.axlSend n (head ++ toBE 2 (crc16 head))).bump (Obj.SAFE_STOP_FRAMES n)).put (Obj.AXL_STATE n) 3).setAxl n fun x => { x with runs := false }

/-! ### Motion cells (R425, R426, R435) -/

/-- CRC-32C of a section. -/
def sectionCrc (tag k : Nat) (bs : List Byte) : Nat := crcLsb 0x82F63B78 tag (toBE 2 (k % 65536) ++ bs) ^^^ 0xFFFFFFFF

/-- A section with its CRC. -/
def mkSection (tag k b0 status : Nat) (data : List Byte) : List Byte :=
  let bs := [BitVec.ofNat 8 b0, BitVec.ofNat 8 data.length, BitVec.ofNat 8 status] ++ data
  bs ++ toBE 4 (sectionCrc tag k bs)

/-- Greedy packing by length, from the front. -/
def packFrom (room : Nat) : Nat → List (List Byte) → List (List Byte) → List (List (List Byte))
  | _, [], [] => []
  | _, g, [] => [g]
  | used, g, s :: t =>
    if used + s.length ≤ room ∨ g.isEmpty then packFrom room (used + s.length) (g ++ [s]) t
    else g :: packFrom room s.length [s] t

/-- The payload of a motion cell. -/
def motionCell (deadline k b6 : Nat) (secs : List (List Byte)) : List Byte :=
  toBE 4 (deadline % 2 ^ 32) ++ toBE 2 (k % 65536) ++ [BitVec.ofNat 8 b6, BitVec.ofNat 8 secs.length] ++ secs.flatten

/-- Room for sections in a cell of the tunnel that names a link: 104 bytes where a trunk it leaves this hub by encrypts SC7; what trunks
further along the path do, this hub is not told (log entry 92). -/
def Hub.motRoom (h : Hub) (L : Nat) : Nat :=
  match firstBelow (fun t => h.tunUsed t && h.hasEnd t 10 && h.get (Obj.TUN_LOCAL t) % 32 == L) 256 with
  | some t => if (List.range 2).any fun p => h.hasEnd t p && h.encrypts p 7 then 104 else 120
  | none => 120

/-- A motion cell presented at attachment 10. -/
def Hub.motPresent (h : Hub) (L : Nat) (body : List Byte) : Hub :=
  h.present ⟨10, L, mkHdr 7 true true true body.length, body, false, false⟩

/-- Command data of a drive from the image in effect (R441). -/
def Hub.imageData (h : Hub) (s n : Nat) : List Byte :=
  ((List.range 16).flatMap fun w => toLE 4 (h.get (Obj.CMD_IMAGE (s / 4) (16 * (s % 4) + w)))).take n

/-! ### The cycle start (R421 to R424) -/

/-- The time since an epoch of cycles: the number of the cycle whose start was last reached, and that start. -/
def Hub.cycleNow (h : Hub) : Nat × Nat :=
  let k := (h.netNs - h.get Obj.MOT_OFFSET) / h.motPeriod
  (k, h.get Obj.MOT_OFFSET + k * h.motPeriod)

/-- The start of cycle `k`. -/
def Hub.cycleStart (h : Hub) (k : Nat) : Nat := h.get Obj.MOT_OFFSET + k * h.motPeriod

/-- Anything to run cycles for. -/
def Hub.motAny (h : Hub) : Bool :=
  ((List.range 8).any fun n => h.get (Obj.AXL_STATE n) != 0) || (h.isMaster && (List.range 24).any fun i => h.get (Obj.IL_DROPS i) != 0)

/-- The command cells of a remote image link presented (R424). -/
def Hub.sendCommands (h : Hub) (L k sk : Nat) : Hub :=
  let secs := (h.drops L).map fun d => mkSection (h.dropTag L d) k (d + 8) 0 (h.imageData (8 * L + d) (h.cmdBytes L d))
  let deadline := sk + h.get (Obj.IL_CMD_DEADLINE (L - 8))
  (packFrom (h.motRoom L) 0 [] secs).foldl (fun h g => h.motPresent L (motionCell deadline k (2 * b2n h.mot.safe) g)) h

/-- `MOT_STATE` has left 2: a running link with no link cycle in progress is idle (R420). -/
def Hub.linksIdle (h : Hub) : Hub :=
  (List.finRange 8).foldl (fun h (n : Fin 8) =>
    if h.get (Obj.AXL_STATE n) = 2 ∧ !(h.axl[n]).runs then h.put (Obj.AXL_STATE n) 1 else h) h

/-- A cycle starts, with `MOT_STATE` as R422 gives it. A master in a safe stop goes on sending its command cells (R437). -/
def Hub.cycleBegin (h : Hub) (k sk : Nat) : Hub :=
  let valid := h.timeValid
  let old := fun (d : Nat) (w : Waiting) => Nat.ble (w.acc + d) h.now
  let idx := fun (w : Waiting) => w.key / 256
  let h := h.takeUnit .motCycle fun w => Nat.ble 0x5448 (idx w) && Nat.ble (idx w) 0x545F && old (us 10) w
  let h := h.takeUnit .motCycle fun w => Nat.ble 0x54C0 (idx w) && Nat.ble (idx w) 0x54FF && old (us 2) w
  let h := { h with mot := { h.mot with last := some k } }
  let h := if h.motState = 3 then h
    else h.put Obj.MOT_STATE (if h.eff Obj.MOT_ENABLE = 0 then 0 else if valid && h.motAny then 2 else 1)
  let h := if 2 ≤ h.motState then h else h.linksIdle
  if h.eff Obj.MOT_ENABLE = 0 then h
  else
    let h := (h.put Obj.MOT_CYCLE (k % 65536)).icSet 3
    if h.motState = 1 then (if valid then h else h.allMiss)
    else
      let h := (List.finRange 8).foldl (fun h n => h.setAxl n fun x => { x with secs := [], built := none }) h
      if !h.isMaster ∨ (h.motState = 3 ∧ !h.mot.safe) then h
      else
        let h := (List.range 8).foldl (fun h n => if hn : n < 8 then h.setAxl ⟨n, hn⟩ fun x => { x with
            secs := (List.range 8).map fun d => (d, h.imageData (8 * n + d) 64) } else h) h
        let h := (List.range 32).foldl (fun h L => if h.ilOn L then h.sendCommands L k sk else h) h
        if h.motState = 2 then { h with mot := { h.mot with resp := h.mot.resp ++ [⟨k, sk, []⟩] } } else h

/-- MOTION_CYCLE_START: the next cycle start that has been reached; a count that has run is not run again (R435). -/
def Hub.cycleStartDue (h : Hub) : Hub :=
  let (k, sk) := h.cycleNow
  let again := match h.mot.last with
    | some l => Nat.ble k l
    | none => false
  if !h.netRuns || Nat.ble (h.netNs + 1) (h.get Obj.MOT_OFFSET) || again then h
  else
    -- a period or offset that takes effect here numbers the starts anew: the next start is the first of the new schedule (R421, R438)
    let h := h.takeUnit .motCycle fun w => w.key / 256 == 0x5400 || w.key / 65536 == 0x21
    let (k', sk') := h.cycleNow
    if sk' = sk then h.cycleBegin k' sk else { h with mot := { h.mot with last := some k' } }

/-- Meaning of MOTION_CYCLE_START. -/
def execMotionCycleStart (s : State) : Host.Outcome State Fault Refusal := s.run Hub.cycleStartDue

/-- A forward step of network time: the cycle starts it passes over are not run (R435). -/
def Hub.motStep (h : Hub) (before : Nat) : Hub :=
  let per := h.motPeriod
  let off := h.get Obj.MOT_OFFSET
  let a := (before - off) / per
  let b := (h.netNs - off) / per
  if h.eff Obj.MOT_ENABLE = 0 ∨ b ≤ a then h
  else
    let h := { h.bumpBy Obj.CYCLES_SKIPPED (b - a) with mot := { h.mot with last := some b } }
    -- more misses than the limit change nothing further (R436)
    (List.range (min (b - a) 3)).foldl (fun h _ => h.allMiss) h

/-! ### The link cycle (R416, R418, R433) -/

/-- The command frame of a link is built from the sections held at the command due instant. -/
def Hub.buildFrame (h : Hub) (n : Fin 8) (k : Nat) : Hub :=
  let x := h.axl[n]
  let missing := (h.dropsNext n (h.cycleStart k)).filter fun d => !(x.secs.any fun y => y.1 == d)
  let h := (h.bumpBy (Obj.CMD_MISSING n) missing.length).setAxl n fun x => { x with built := some (k, x.secs), secs := [] }
  if h.isMaster then h else missing.foldl (fun h d => h.cycleSeen (8 * n.val + d) true) h

/-- Meaning of COMMAND_DUE: every link whose command due instant has come. -/
def Hub.commandDue (h : Hub) : Hub :=
  match h.mot.last with
  | none => h
  | some k => if h.motState != 2 then h else
    let sk := h.cycleStart k
    (List.finRange 8).foldl (fun h (n : Fin 8) =>
      let x := h.axl[n]
      if (h.get (Obj.AXL_STATE n) == 1 || h.get (Obj.AXL_STATE n) == 2) && x.built.isNone && x.started != some k && Nat.ble (sk + h.linkStart n sk) (h.netNs + 1000)
      then h.buildFrame n k else h) h
def execCommandDue (s : State) : Host.Outcome State Fault Refusal := s.run Hub.commandDue

/-- The response of a drop as its section tells it; a drop that has not answered has none. -/
def respOf (x : AxlSt) (d : Nat) : RespSec :=
  match x.resp.find? fun y => y.1 == d with
  | some (_, r) => r
  | none => ⟨false, x.noCmd.contains d, false, 0, []⟩

/-- The end of a link cycle: missing drops counted, a head's misses taken (R418, R436), the state of R420. -/
def Hub.axlEnd (h : Hub) (n : Fin 8) : Hub :=
  let x := h.axl[n]
  if !x.runs || !Nat.ble (x.start + x.tl + busyNs (h.linkBytes n)) h.netNs then h
  else
    let missing := (h.drops n).filter fun d => !(x.resp.any fun y => y.1 == d)
    let h := (h.bump (Obj.LINK_CYCLES n)).bumpBy (Obj.DROP_MISSING n) missing.length
    let h := if h.isMaster then h else (h.drops n).foldl (fun h d =>
      if x.noCmd.contains d then h else h.cycleSeen (8 * n.val + d) (!(respOf x d).valid)) h
    let h := h.setAxl n fun x => { x with runs := false }
    if x.off then h.axlOff n
    else if h.motState < 2 ∧ h.get (Obj.AXL_STATE n) = 2 then h.put (Obj.AXL_STATE n) 1 else h

/-- A link start: a link cycle that has run its time has ended, the group committed for it takes effect, and the command frame, or in a safe stop its frame, is sent. -/
def Hub.axlStartCycle (h : Hub) (n : Fin 8) : Hub :=
  let h := h.axlEnd n
  match h.mot.last with
  | none => h
  | some k =>
    let sk := h.cycleStart k
    let tl := h.linkStart n sk
    let st := h.get (Obj.AXL_STATE n)
    if st = 0 ∨ !h.domOn 24 ∨ h.eff Obj.MOT_ENABLE = 0 ∨ (h.axl[n]).started = some k ∨ !Nat.ble (sk + tl) h.netNs then h
    else
      let had := h.waiting.any fun w => w.key / 256 == 0x5420 + n.val && Nat.ble (us 10) (h.now - w.acc)
      let h := h.takeUnit .motCycle fun w => w.key / 256 == 0x5420 + n.val && Nat.ble (us 10) (h.now - w.acc)
      let h := if had then h.axlTimes n else h
      let h := h.setAxl n fun x => { x with started := some k, start := sk, tl := tl, resp := [], sent := 0 }
      if h.motState = 3 ∨ st = 3 then h.safeFrame n k
      else if h.motState ≠ 2 then h
      else
        let h := if (h.axl[n]).built.isSome then h else h.buildFrame n k
        let secs := match (h.axl[n]).built with
          | some (_, s) => s
          | none => []
        let gone := (h.drops n).filter fun d => !(secs.any fun y => y.1 == d)
        let h := (h.put (Obj.AXL_STATE n) 2).axlSend n (h.commandFrame n k secs)
        h.setAxl n fun x => { x with runs := true, noCmd := gone }

/-- Meaning of AXL_LINK_START. -/
def execAxlLinkStart (n : Fin 8) (s : State) : Host.Outcome State Fault Refusal := s.run fun h => h.axlStartCycle n

/-- A response put where the master keeps them, where this hub is the master. -/
def Hub.masterResp (h : Hub) (k s : Nat) (r : RespSec) : Hub :=
  { h with mot := { h.mot with resp := h.mot.resp.map fun c =>
      if c.k % 65536 == k % 65536 then { c with secs := (s, r) :: c.secs.filter fun x => x.1 != s } else c } }

/-- A response of a drop recorded. -/
def Hub.dropResp (h : Hub) (n : Fin 8) (d : Nat) (r : RespSec) : Hub :=
  let k := (h.axl[n]).started.getD 0
  let h := h.setAxl n fun x => { x with resp := (d, r) :: x.resp.filter fun y => y.1 != d }
  if h.isMaster then h.masterResp k (8 * n.val + d) r else h

/-- A response frame in the slot of a drop, starting `late` ns after its expected instant (R418). -/
def Hub.axlResponse (h : Hub) (n slot : Fin 8) (late : Int) (frame : List Byte) : Hub :=
  let x := h.axl[n]
  let d := slot.val
  let f := scramble 0x7FFF (frame.drop 6)
  let r := h.respBytes n d
  let noCmd := x.noCmd.contains d
  if !x.runs || !(h.drops n).contains d || (x.resp.any fun y => y.1 == d) then h
  else if late < 0 ∨ 400 < late then h
  else if f.length ≠ 6 + r ∨ crc16 (f.take (4 + r)) ≠ ofBE (slice f (4 + r) 2) then
    (h.bump (Obj.LINK_CRC n)).dropResp n d ⟨false, noCmd, true, 0, []⟩
  else if byteAt f 0 ≠ 0x2E ∨ byteAt f 1 % 8 ≠ d ∨ ofBE (slice f 2 2) ≠ x.started.getD 0 % 65536 then h
  else (h.put (Obj.DROP_RTT n d) late.toNat).dropResp n d ⟨true, noCmd, false, byteAt f 1 / 8, slice f 4 r⟩

/-- Meaning of AXL_RESPONSE_FRAME_RX. -/
def execAxlResponseFrameRx (n slot : Fin 8) (late : W32) (frame : List Byte) (s : State) : Host.Outcome State Fault Refusal :=
  s.run fun h => h.axlResponse n slot late.toInt frame

/-- The drops of each response cell of a link, by the lengths its sections have (R426). -/
def Hub.respCells (h : Hub) (n : Nat) : List (List Nat) :=
  let secs := (h.drops n).map fun d => BitVec.ofNat 8 d :: List.replicate (6 + h.respBytes n d) (0 : Byte)
  (packFrom (h.motRoom n) 0 [] secs).map fun g => g.map fun s => byteAt s 0

/-- The next response cell of a head's link, 0.1 µs after the slot of its last section has ended, and at once for the link's last (R426). What bit [2] tells is not stated
(log entry 2). -/
def Hub.respCell (h : Hub) (n : Fin 8) : Hub :=
  let x := h.axl[n]
  match (h.respCells n)[x.sent]?, x.started with
  | some ds, some k =>
    let wait := if x.sent + 1 = (h.respCells n).length then 0 else 100
    if h.isMaster || h.get (Obj.AXL_STATE n) != 2 || !(ds.all fun d => Nat.ble (x.start + x.tl + h.slotEnd n d + wait) h.netNs) then h
    else
      let secs := ds.map fun d =>
        let r := respOf x d
        mkSection (h.dropTag n d) k (d + 8 * b2n r.valid + 16 * b2n r.noCmd + 32 * b2n r.crcBad) r.status r.data
      let body := motionCell (x.start + h.get Obj.MOT_RESP_DEADLINE) k (1 + 2 * b2n h.mot.safe + 4 * h.free 1) secs
      (h.used.setAxl n fun x => { x with sent := x.sent + 1 }).motPresent n body
  | _, _ => h

/-- Meaning of RESPONSE_CELL_PRESENT. -/
def execResponseCellPresent (n : Fin 8) (s : State) : Host.Outcome State Fault Refusal := s.run fun h => h.respCell n

/-- Meaning of AXL_LINK_CYCLE_END. -/
def execAxlLinkCycleEnd (n : Fin 8) (s : State) : Host.Outcome State Fault Refusal := s.run fun h => h.axlEnd n

/-! ### Responses at the master (R434) -/

/-- The response words and the status of a drive of a cycle. -/
def Hub.publishDrive (h : Hub) (c : RespCyc) (s : Nat) : Hub :=
  let r := (c.secs.find? fun x => x.1 == s).map (·.2)
  let v := match r with
    | some r => r.valid
    | none => false
  let bad := match r with
    | some r => r.crcBad
    | none => false
  let no := match r with
    | some r => r.noCmd
    | none => false
  let st := match r with
    | some r => if r.valid then r.status else 0
    | none => 0
  let data := match r with
    | some r => if r.valid then padTo 64 r.data else List.replicate 64 0
    | none => List.replicate 64 0
  let h := (List.range 16).foldl (fun h w => h.put (Obj.RESP_IMAGE (s / 4) (16 * (s % 4) + w)) (ofLE (slice data (4 * w) 4))) h
  let h := h.cycleSeen s (!v || no)
  let n := assoc h.mot.misses s
  let (n, h) := if n < 256 then (n, h) else (h.free 8, h.used)
  h.put (Obj.DRIVE_STATUS (s / 8) (s % 8)) (b2n v + 2 * b2n (!v) + 4 * b2n bad + 8 * b2n no + 256 * st + 65536 * n)

/-- Meaning of RESPONSE_DUE: the oldest cycle whose responses are due is published. -/
def Hub.responseDue (h : Hub) : Hub :=
  match h.mot.resp with
  | c :: rest =>
    if !Nat.ble (c.start + h.get Obj.MOT_RESP_DEADLINE) h.netNs then h
    else
      let h := { h with mot := { h.mot with resp := rest } }
      let h := h.drives.foldl (fun h s => h.publishDrive c s) h
      (h.put Obj.MOT_RESP_CYCLE (c.k % 65536)).icSet 4
  | [] => h
def execResponseDue (s : State) : Host.Outcome State Fault Refusal := s.run Hub.responseDue

/-! ### Motion cells received (R431, R432, R635) -/

/-- The hub is in a safe-stop episode. -/
def Hub.inEpisode (h : Hub) : Bool := h.get Obj.SAFE_STATE == 2 || h.get Obj.SAFE_STATE == 3 || h.safety.episode

/-- A notice presented for every SC7 tunnel toward each of its trunk ends whose link is up, but for tunnels a notice came by (R634). -/
def Hub.sendNotices (h : Hub) : Hub :=
  let k := (h.mot.last.getD 0) % 65536
  let body := motionCell (h.time32 + us 100) k 2 [mkSection 0 k 0 0 []]
  (List.range 256).foldl (fun h t =>
    if !h.tunUsed t || h.get (Obj.TUN_CLASS t) != 7 || h.safety.noticeFrom.contains t then h
    else (List.range 2).foldl (fun h p =>
      if h.hasEnd t p && h.linkUp p then
        let hdr := setByte (mkHdr 7 true true true body.length) 5 (routeTag 10 t)
        (h.store t 7 ⟨10, t, hdr, body, false, false⟩ hdr body [p] false false).2.bump Obj.NOTICES_SENT
      else h) h) h

/-- The notices of an episode are presented once (R634). -/
def Hub.noticesOnce (h : Hub) : Hub :=
  if h.safety.noticed then h
  else let h := h.sendNotices
    { h with safety := { h.safety with noticed := true } }

/-- Byte 6 [1] of a cell that reached the engine over tunnel `t` for link `L`. -/
def Hub.noticeRx (h : Hub) (t L : Nat) : Hub :=
  if h.inEpisode then h
  else
    let h := if hL : L < 8 then
        (if (h.get (Obj.AXL_STATE L) = 1 ∨ h.get (Obj.AXL_STATE L) = 2) ∧ !h.isMaster then h.safeFrame ⟨L, hL⟩ (h.mot.last.getD 0) else h)
      else h
    let h := h.report 15 L
    if h.flag Obj.SAFE_REMOTE_SPREAD then
      ({ h with safety := { h.safety with noticeFrom := t :: h.safety.noticeFrom } }).noticesOnce
    else h

/-- The sections of a cell whose CRC passes, and how many fail. -/
def Hub.sectionsOf (h : Hub) (L k : Nat) : Nat → List Byte → List (Nat × List Byte) × Nat
  | 0, _ => ([], 0)
  | f + 1, bs =>
    let n := byteAt bs 1
    let s := bs.take (3 + n)
    let (l, bad) := h.sectionsOf L k f (bs.drop (7 + n))
    if ofBE (slice bs (3 + n) 4) = sectionCrc (h.dropTag L (byteAt bs 0 % 8)) k s then ((byteAt bs 0, s) :: l, bad) else (l, bad + 1)

/-- A command section held for its drop. -/
def Hub.holdCommand (h : Hub) (n : Fin 8) (b0 : Nat) (s : List Byte) : Hub :=
  let d := b0 % 8
  if bitOf b0 3 && (h.axl[n]).built.isNone then
    h.setAxl n fun x => { x with secs := (d, s.drop 3) :: x.secs.filter fun y => y.1 != d }
  else h

/-- A motion cell at the motion engine. A cell with byte 6 [1] set acts as a notice and is discarded as one (R634, R635). -/
def Hub.motionRx (h : Hub) (t L : Nat) (hdr body : List Byte) : Hub :=
  let b6 := byteAt body 6
  let k := ofBE (slice body 4 2)
  if h.late hdr body then h.bump Obj.CELLS_LATE
  else
    if bitOf b6 1 then (h.noticeRx t L).bump Obj.NOTICES_RECEIVED
    else
      let resp := bitOf b6 0
      let serving := if resp then h.mot.resp.any fun c => c.k % 65536 == k
        else h.mot.last.any fun l => l % 65536 == k
      if !serving then h.bump Obj.CYCLE_MISMATCH
      else
        let (secs, bad) := h.sectionsOf L k (byteAt body 7) (body.drop 8)
        let h := h.bumpBy Obj.SECTION_CRC bad
        secs.foldl (fun h s =>
          if resp then
            if h.isMaster then h.masterResp k (8 * L + s.1 % 8)
              ⟨bitOf s.1 3, bitOf s.1 4, bitOf s.1 5, byteAt s.2 2 % 32, s.2.drop 3⟩ else h
          else if hL : L < 8 then h.holdCommand ⟨L, hL⟩ s.1 s.2 else h) h

/-- Meaning of MOTION_CELL_RX: a cell of a tunnel, or, with none given, the oldest that waits at the egress. -/
def execMotionCellRx (cell : Option (Tunnel × CellIn)) (s : State) : Host.Outcome State Fault Refusal :=
  s.run fun h => if !h.domOn 24 then h else match cell with
    | some (t, c) => h.motionRx t.val (h.get (Obj.TUN_LOCAL t.val) % 32) c.hdr c.body
    | none => match h.inboxTake 10 fun _ => true with
      | some (c, h) => h.motionRx c.tun (c.chan % 32) c.hdr c.body
      | none => h

/-! ### Safe stop (R437, R638) -/

/-- Meaning of MOTION_SAFE_STOP: a requested stop is carried out. -/
def Hub.motionStop (h : Hub) : Hub :=
  if !h.mot.request then h
  else
    let h := { h with mot := { h.mot with request := false, safe := true } }
    let h := (List.finRange 8).foldl (fun h (n : Fin 8) =>
      if h.get (Obj.AXL_STATE n) = 1 ∨ h.get (Obj.AXL_STATE n) = 2 then h.safeFrame n (h.mot.last.getD 0) else h) h
    (h.put Obj.MOT_STATE 3).event 0x40 Obj.MOT_STATE
def execMotionSafeStop (s : State) : Host.Outcome State Fault Refusal := s.run Hub.motionStop

/-- The end of a safe stop (R420, R638). -/
def Hub.motionResume (h : Hub) : Hub :=
  let h := (List.finRange 8).foldl (fun h n => if h.get (Obj.AXL_STATE n) = 3 then h.put (Obj.AXL_STATE n) 1 else h) h
  let h := { h with mot := { h.mot with request := false, safe := false, seen := [], misses := [], faulted := [] } }
  h.put Obj.MOT_STATE 1

end Sys2Proof.Machine
end

