-- ==== Sys2Proof/Machine/Periph.lean ====
section
/-! DEFINITION. Peripheral blocks and USB (chapter 15): GPIO, I2C and SPI lists, UARTs, the peripheral region, the USB hub and its device
function. -/

namespace Sys2Proof.Machine

/-! ### Messages (R444, R445) -/

/-- The tunnel of a block and instance at attachment 11. -/
def Hub.blockTunnel (h : Hub) (block inst : Nat) : Option Nat :=
  firstBelow (fun t => h.tunUsed t && h.hasEnd t 11 && h.get (Obj.TUN_LOCAL t) / 4096 == block && h.get (Obj.TUN_LOCAL t) % 4 == inst) 256

/-- A tunnel group at attachment 11 would be legal. -/
def Hub.periphTunOk (h : Hub) (g : Staged) : Bool :=
  let t := tunOf g.leader
  let v := h.newVal g
  let ends := v (Obj.TUN_END_A t) == 11 || (v (Obj.TUN_END_A t) != 0xFF && bitOf (v (Obj.TUN_END_B t)) 11)
  let loc := v (Obj.TUN_LOCAL t)
  let b := loc / 4096
  let i := loc % 4
  let cls := v (Obj.TUN_CLASS t)
  let exists_ := if b = 2 ∨ b = 4 then true else if b = 3 then Nat.ble i 1 else (b == 1 || b == 5) && i == 0
  !ends || (exists_ && Nat.ble cls 3 && (b != 5 || cls == 3) && (List.range 256).all fun u =>
    u == t || !h.tunUsed u || !h.hasEnd u 11 || h.get (Obj.TUN_LOCAL u) / 4096 != b || h.get (Obj.TUN_LOCAL u) % 4 != i)

/-- A message sent on a block's tunnel. -/
def Hub.sendMsg (h : Hub) (block inst type b1 word : Nat) (data : List Byte) : Hub :=
  match h.blockTunnel block inst with
  | none => h
  | some t =>
    let body := [BitVec.ofNat 8 (16 * block + type), BitVec.ofNat 8 b1] ++ toBE 2 data.length ++ toBE 4 word ++ data
    h.present ⟨11, h.get (Obj.TUN_LOCAL t), mkHdr (h.get (Obj.TUN_CLASS t)) true true false body.length, body, false, false⟩

/-- A message fits: block, type, and n within bounds and within the body. -/
def msgOk (block type lo hi : Nat) (body : List Byte) : Bool :=
  let n := ofBE (slice body 2 2)
  byteAt body 0 == 16 * block + type && Nat.ble lo n && Nat.ble n hi && Nat.ble (8 + n) body.length

/-- A message that does not fit. -/
def Hub.malformed (h : Hub) : Hub := h.bump Obj.MSG_MALFORMED

/-- The content of the message that comes next for a block: the given one, or the oldest that waits at the egress, unless it is one of
the block's other type (first byte `other`). -/
def Hub.msgTake (h : Hub) (block inst other : Nat) (content : Option (List Byte)) : Option (List Byte × Hub) :=
  match content with
  | some b => some (b, h)
  | none => match h.inboxTake 11 fun c => c.chan / 4096 == block && c.chan % 4 == inst with
    | some (c, n) => if byteAt c.body 0 = other then none else some (c.bytes, n)
    | none => none

/-- A region access wakes a retained FAB domain (R523). -/
def Hub.regionWake (h : Hub) (o : Origin) : Hub := h.accessWake o 0x5500

/-- A write to the peripheral region by an origin: a frozen one is refused; the block must be powered (R60, R443). -/
def Hub.regionGuard (h : Hub) (o : Origin) (off : Nat) (act : Hub → Hub) : Hub :=
  if h.frozen o then h.ret o rcFrozen else if !(h.regionWake o).domOn 2 && (h.regionWake o).domState 2 != 3 then h.ret o rcDomainOff
  else (act ((h.regionWake o).dropBlock 2 0 off)).ret o rcOk

/-! ### GPIO (R446 to R448) -/

/-- The GPIO state set. -/
def Hub.setGpio (h : Hub) (f : GpioSt → GpioSt) : Hub := { h with gpio := f h.gpio }

/-- Levels and directions of the pins: the suspend pin is driven high over its OUT bit (R459), and the converter codes of the trunk ports
override level and direction (R543). -/
def Hub.gpioLines (h : Hub) : Nat × Nat :=
  let x := match h.gpio.susp with
    | some k => (setBit h.gpio.out.toNat k, setBit h.gpio.dir.toNat k)
    | none => (h.gpio.out.toNat, h.gpio.dir.toNat)
  (List.finRange 2).foldl (fun (x : Nat × Nat) p =>
    let g := h.eff (Obj.PD_VSEL_GPIO p.val)
    if 28 < g then x
    else (x.1 - field x.1 (g + 3) g * 2 ^ g + (h.pd[p]).code % 16 * 2 ^ g, x.2 - field x.2 (g + 3) g * 2 ^ g + 15 * 2 ^ g)) x

/-- The pins shown at the balls: levels, directions, and the pulls (R446, R448). -/
def Hub.gpioShow (h : Hub) : Hub :=
  let x := h.gpioLines
  h.emit (.gpio (BitVec.ofNat 32 x.1) (BitVec.ofNat 32 x.2) h.gpio.pullEn h.gpio.pullUp)

/-- OUT bits set and cleared. -/
def Hub.gpioMasks (h : Hub) (set clr : W32) : Hub := (h.setGpio fun g => { g with out := (g.out ||| set) &&& ~~~clr }).gpioShow

/-- Meanings of GPIO_OUT_WRITE, GPIO_SET and GPIO_CLR. -/
def execGpioOutWrite (o : Origin) (v : W32) (s : State) : Host.Outcome State Fault Refusal :=
  s.run fun h => h.regionGuard o 4 fun h => (h.setGpio fun g => { g with out := v }).gpioShow
def execGpioSet (o : Origin) (v : W32) (s : State) : Host.Outcome State Fault Refusal :=
  s.run fun h => h.regionGuard o 8 fun h => h.gpioMasks v 0
def execGpioClr (o : Origin) (v : W32) (s : State) : Host.Outcome State Fault Refusal :=
  s.run fun h => h.regionGuard o 12 fun h => h.gpioMasks 0 v

/-- One pin of a sample. -/
def Hub.samplePin (h : Hub) (pins k : Nat) : Hub :=
  let g := h.gpio
  let lvl := bitOf pins k
  if lvl == bitOf g.input.toNat k then h.setGpio fun g => { g with run := g.run.filter fun x => x.1 != k }
  else
    let (n, t) := match g.run.find? fun x => x.1 == k with
      | some (_, n, t) => (n + 1, t)
      | none => (1, h.time32)
    if n < h.eff Obj.GPIO_FILTER then h.setGpio fun g => { g with run := (k, n, t) :: g.run.filter fun x => x.1 != k }
    else
      let seen := bitOf (h.eff (if lvl then Obj.GPIO_EDGE_RISE else Obj.GPIO_EDGE_FALL)) k
      h.setGpio fun g => { g with
        input := BitVec.ofNat 32 (if lvl then setBit g.input.toNat k else clrBit g.input.toNat k)
        run := g.run.filter fun x => x.1 != k
        changed := if seen then BitVec.ofNat 32 (setBit g.changed.toNat k) else g.changed
        since := if !seen then g.since else if g.changed = 0 then t
          else if time32Reached g.since t then t else g.since }

/-- Directions and pulls take effect at a sample (R448). -/
def Hub.gpioConfig (h : Hub) : Hub :=
  let h := h.takeUnit .sample fun w => w.key / 256 == 0x5500
  let w := fun k => BitVec.ofNat 32 (h.eff k)
  let g := { h.gpio with dir := w Obj.GPIO_DIR, pullEn := w Obj.GPIO_PULL_EN, pullUp := w Obj.GPIO_PULL_UP }
  if g = h.gpio then h else (h.setGpio fun _ => g).gpioShow

/-- Meaning of GPIO_SAMPLE. -/
def Hub.gpioSample (h : Hub) (pins : W32) : Hub :=
  if !h.domOn 2 then h
  else (List.range 32).foldl (fun h k => h.samplePin pins.toNat k) h.gpioConfig
def execGpioSample (pins : W32) (s : State) : Host.Outcome State Fault Refusal := s.run fun h => h.gpioSample pins

/-- A change report leaves. -/
def Hub.gpioReport (h : Hub) : Hub :=
  let g := h.gpio
  let t := if g.changed = 0 then h.time32 else g.since
  let h := if (h.blockTunnel 1 0).isSome then
      (h.sendMsg 1 0 1 0 t (toBE 4 g.input.toNat ++ toBE 4 g.changed.toNat)).bump Obj.GPIO_REPORTS else h
  let h := h.setGpio fun g => { g with changed := 0, last := some h.now }
  if h.get Obj.GPIO_REPORT_PERIOD = 0 then h.disarm .gpioReport else h.arm .gpioReport (ms (h.get Obj.GPIO_REPORT_PERIOD))

/-- A report may leave: 10 µs since the last one. -/
def Hub.gpioMay (h : Hub) : Bool := match h.gpio.last with
  | some t => Nat.ble (us 10) (h.now - t)
  | none => true

/-- Meaning of GPIO_CHANGE_REPORT_SEND. -/
def execGpioChangeReportSend (s : State) : Host.Outcome State Fault Refusal := s.run fun h =>
  if h.domOn 2 && h.gpio.changed != 0 && h.gpioMay then h.gpioReport else h

/-- Meaning of GPIO_REPORT_PERIOD: the period has passed, counted from its first look where no report has left. -/
def execGpioReportPeriod (s : State) : Host.Outcome State Fault Refusal := s.run fun h =>
  if !h.domOn 2 then h
  else if h.due .gpioReport then h.gpioReport
  else if h.armed .gpioReport || h.get Obj.GPIO_REPORT_PERIOD == 0 then h else h.arm .gpioReport (ms (h.get Obj.GPIO_REPORT_PERIOD))

/-- A change report: the mirrored bits (R448). -/
def Hub.gpioMirror (h : Hub) (body : List Byte) : Hub :=
  if !msgOk 1 1 8 8 body then h.malformed
  else
    let m := h.get Obj.GPIO_MIRROR_MASK
    let v := ofBE (slice body 8 4)
    h.gpioMasks (BitVec.ofNat 32 (v &&& m)) (BitVec.ofNat 32 ((v ^^^ 0xFFFFFFFF) &&& m))

/-- Meaning of GPIO_CHANGE_REPORT_RX. -/
def execGpioChangeReportRx (content : Option (List Byte)) (s : State) : Host.Outcome State Fault Refusal :=
  s.run fun h => if !h.domOn 2 then h else match h.msgTake 1 0 0x12 content with
    | some (body, h) => h.gpioMirror body
    | none => h

/-- An output command (R448). -/
def Hub.gpioCmd (h : Hub) (body : List Byte) : Hub :=
  let t := ofBE (slice body 4 4)
  let set := ofBE (slice body 8 4)
  let clr := ofBE (slice body 12 4)
  let now := h.gpioMasks (BitVec.ofNat 32 set) (BitVec.ofNat 32 clr)
  if !msgOk 1 2 8 8 body then h.malformed
  else if !bitOf (byteAt body 1) 0 then now
  else if time32Reached h.time32 t then now.bump Obj.GPIO_LATE_CMDS
  else if Nat.ble 16 h.gpio.cmds.length then h.malformed
  else h.setGpio fun g => { g with cmds := g.cmds ++ [(t, set, clr)] }

/-- Meaning of GPIO_OUTPUT_CMD_RX. -/
def execGpioOutputCmdRx (content : Option (List Byte)) (s : State) : Host.Outcome State Fault Refusal :=
  s.run fun h => if !h.domOn 2 then h else match h.msgTake 1 0 0x11 content with
    | some (body, h) => h.gpioCmd body
    | none => h

/-- The held commands whose instant has come, in the order of their receipt. -/
def Hub.gpioTimed (h : Hub) : Hub :=
  let go := h.gpio.cmds.filter fun c => time32Reached h.time32 c.1
  go.foldl (fun h c => (h.setGpio fun g => { g with cmds := g.cmds.erase c }).gpioMasks (BitVec.ofNat 32 c.2.1) (BitVec.ofNat 32 c.2.2)) h

/-- Meaning of GPIO_TIMED_CMD_APPLY. -/
def execGpioTimedCmdApply (s : State) : Host.Outcome State Fault Refusal := s.run fun h => if h.domOn 2 then h.gpioTimed else h

/-! ### Transaction lists (R449, R450) -/

/-- The list is well formed for its block: the bytes it reads up to 0x00; none where it is not. -/
def listReads (spi : Bool) : Nat → List Byte → Option Nat
  | 0, _ => none
  | f + 1, bs =>
    let c := byteAt bs 0
    let n := byteAt bs 1
    let fits := Nat.ble (2 + n) bs.length
    let small := Nat.ble 1 n && Nat.ble n 64
    if bs.isEmpty then none
    else if c = 0 then some 0
    else if c = 0x50 then if n = 0 then none else listReads spi f (bs.drop 2)
    else if spi then
      if c = 0x11 then if n ≤ 1 ∧ 2 ≤ bs.length then listReads spi f (bs.drop 2) else none
      else if c = 0x21 then if fits then listReads spi f (bs.drop (2 + n)) else none
      else if c = 0x31 then (listReads spi f (bs.drop 2)).map (n + ·)
      else if c = 0x61 then if fits then (listReads spi f (bs.drop (2 + n))).map (n + ·) else none
      else if c = 0x41 then listReads spi f (bs.drop 1)
      else none
    else
      if c = 0x10 then if 2 ≤ bs.length then listReads spi f (bs.drop 2) else none
      else if c = 0x20 then if fits && small then listReads spi f (bs.drop (2 + n)) else none
      else if c = 0x30 then if small then (listReads spi f (bs.drop 2)).map (n + ·) else none
      else if c = 0x40 then listReads spi f (bs.drop 1)
      else none

/-- The list may run. -/
def listOk (m : Nat) (src : ListSrc) (l : List Byte) : Bool :=
  match listReads (Nat.ble 4 m) 257 l with
  | none => false
  | some n => match src with
    | .go => Nat.ble l.length 256 && Nat.ble n 256
    | _ => Nat.ble l.length 104 && Nat.ble n 103

/-- A master's state set. -/
def Hub.setMaster (h : Hub) (m : Fin 6) (f : MasterSt → MasterSt) : Hub := { h with masters := h.masters.set m (f h.masters[m]) }

/-- Block code and instance of a master. -/
def masterBlock (m : Nat) : Nat × Nat := if m < 4 then (2, m) else (3, m - 4)

/-- The result of a list goes where the list came from (R450, R452). -/
def Hub.listResult (h : Hub) (m : Fin 6) (src : ListSrc) (code : Nat) (bytes : List Byte) : Hub :=
  let data := BitVec.ofNat 8 code :: bytes
  let (b, i) := masterBlock m
  match src with
  | .go => h.setMaster m fun x => { x with result := bytes, status := 3 + 16 * code + 65536 * bytes.length }
  | .request id => h.sendMsg b i 2 id h.time32 data
  | .poll s =>
    let k := Obj.POLL_RESULT (4 * m.val + s)
    let tell := (h.masters[m]).first.contains s || h.get (Obj.POLL_REPORT (4 * m.val + s)) == 1 || h.oct k != data
    let h := (h.putOct k data).setMaster m fun x => { x with first := x.first.filter fun y => y != s }
    if tell then h.sendMsg b i 3 s h.time32 data else h

/-- The settings a master's next list runs with (R451, R452): kHz, and the longest stretch in ms of an I2C master or CPOL and CPHA of an
SPI master. -/
def Hub.busSetting (h : Hub) (m : Nat) : Nat × Nat :=
  if m < 4 then ([100, 400, 1000].getD (h.get (Obj.I2C_SPEED m)) 400, h.get (Obj.I2C_STRETCH_MAX m))
  else (1000 * h.get (Obj.SPI_CLOCK (m - 4)), h.get (Obj.SPI_MODE (m - 4)) % 4)

/-- The master starts the list in front; one that may not run ends with result 4. -/
def Hub.masterNext (h : Hub) (m : Fin 6) : Nat → Hub
  | 0 => h
  | f + 1 =>
    let x := h.masters[m]
    match x.queue with
    | [] => h
    | (src, l) :: rest =>
      if x.runs then h
      else if listOk m src l then
        let h := h.setMaster m fun x => { x with runs := true, status := if src = .go then 2 else x.status }
        h.emit (.busList m (h.busSetting m).1 (h.busSetting m).2 l)
      else ((h.setMaster m fun x => { x with queue := rest }).listResult m src 4 []).masterNext m f

/-- A list enters a master's FIFO; a ninth is refused. -/
def Hub.listEnter (h : Hub) (m : Fin 6) (src : ListSrc) (l : List Byte) : Hub :=
  if Nat.ble 8 (h.masters[m]).queue.length then (h.bump Obj.XFER_QUEUE_FULL).listResult m src 5 []
  else (h.setMaster m fun x => { x with queue := x.queue ++ [(src, l)], status := if src = .go then 1 else x.status }).masterNext m 9

/-- GO written (R443, R450). -/
def Hub.periphGo (h : Hub) (m : Fin 6) (v : Nat) : Hub :=
  let x := h.masters[m]
  if v ≠ 1 then h
  else if x.status % 16 = 1 ∨ x.status % 16 = 2 then h.bump Obj.GO_IGNORED
  else h.listEnter m .go x.cmd

/-- The offset of a master's GO in the peripheral region. -/
def goOffset (m : Fin 6) : Nat := (if m.val < 4 then 65536 + 4096 * m.val else 131072 + 4096 * (m.val - 4)) + 0x100

/-- Meaning of PERIPH_GO. -/
def execPeriphGo (o : Origin) (m : Fin 6) (v : W32) (s : State) : Host.Outcome State Fault Refusal :=
  s.run fun h => h.regionGuard o (goOffset m) fun h => h.periphGo m v.toNat

/-- Meaning of PERIPH_REQUEST_RX. -/
def Hub.periphRequest (h : Hub) (m : Fin 6) (body : List Byte) : Hub :=
  if !msgOk (masterBlock m).1 1 0 104 body then h.malformed
  else h.listEnter m (.request (byteAt body 1)) (slice body 8 (ofBE (slice body 2 2)))
def execPeriphRequestRx (m : Fin 6) (content : Option (List Byte)) (s : State) : Host.Outcome State Fault Refusal :=
  s.run fun h => if !h.domOn 2 then h else match h.msgTake (masterBlock m).1 (masterBlock m).2 0 content with
    | some (body, h) => h.periphRequest m body
    | none => h

/-- A run of a poll slot falls due (R452). -/
def Hub.pollRun (h : Hub) (i : Fin 24) : Hub :=
  let m : Fin 6 := ⟨i.val / 4, by omega⟩
  let s := i.val % 4
  let per := h.get (Obj.POLL_PERIOD i)
  if per = 0 then h.disarm (.poll i)
  else
    let h := h.arm (.poll i) (us per)
    let x := h.masters[m]
    if ((if x.runs then x.queue.drop 1 else x.queue).any fun x => x.1 == .poll s) then h.bump Obj.POLL_SKIPPED
    else h.listEnter m (.poll s) (h.oct (Obj.POLL_LIST i))

/-- A committed slot runs at the commit and reports its first run. -/
def Hub.pollCommit (h : Hub) (i : Fin 24) : Hub :=
  let m : Fin 6 := ⟨i.val / 4, by omega⟩
  (h.setMaster m fun x => { x with first := (i.val % 4) :: x.first.filter fun y => y != i.val % 4 }).pollRun i

/-- Meaning of POLL_DUE. -/
def execPollDue (i : Fin 24) (s : State) : Host.Outcome State Fault Refusal := s.run fun h =>
  if h.due (.poll i) && h.domOn 2 then h.pollRun i else h

/-- The list that runs ends: 0 OK, 1 not acknowledged, 2 stretched, 3 bus fault. A failed one ends with STOP, or CS deasserted (R450). -/
def Hub.listDone (h : Hub) (m : Fin 6) (code : Nat) (bytes : List Byte) : Hub :=
  let x := h.masters[m]
  match x.queue, x.runs with
  | (src, _) :: rest, true =>
    let n := (listReads (Nat.ble 4 m.val) 257 ((x.queue.headD (src, [])).2)).getD 0
    let bytes := bytes.take (n + b2n (code == 1))
    let h := if code = 0 then h else h.emit (.busStop m)
    let h := if code = 2 ∨ code = 3 then (h.bump Obj.XFER_ERRORS).event 0x42 Obj.XFER_ERRORS else h
    let h := h.setMaster m fun x => { x with queue := rest, runs := false }
    (h.listResult m src code bytes).masterNext m 9
  | _, _ => h

/-- Meaning of TRANSACTION_LIST_COMPLETE. -/
def execTransactionListComplete (m : Fin 6) (code : Fin 4) (bytes : List Byte) (s : State) : Host.Outcome State Fault Refusal :=
  s.run fun h => h.listDone m code.val bytes

/-- Every list of a master aborted with result 6: the block was reset, or FAB left on (R450). -/
def Hub.abortLists (h : Hub) : Hub :=
  (List.finRange 6).foldl (fun h (m : Fin 6) =>
    let q := (h.masters[m]).queue
    q.foldl (fun h x => h.listResult m x.1 6 []) (h.setMaster m fun x => { x with queue := [], runs := false })) h

/-! ### UARTs (R453 to R455) -/

/-- A UART's state set. -/
def Hub.setUart (h : Hub) (n : Fin 4) (f : UartSt → UartSt) : Hub := { h with uarts := h.uarts.set n (f h.uarts[n]) }

/-- A credit message. -/
def Hub.uartCredit (h : Hub) (n : Fin 4) : Hub :=
  let u := h.uarts[n]
  (h.sendMsg 4 n 2 0 (u.used % 2 ^ 32) []).setUart n fun u => { u with told := u.used }

/-- A credit message is due: 256 bytes consumed, or the TX FIFO has emptied. -/
def Hub.uartCredits (h : Hub) (n : Fin 4) (emptied : Bool) : Hub :=
  let u := h.uarts[n]
  if h.get (Obj.UART_BIND n) = 1 ∧ (u.told + 256 ≤ u.used ∨ emptied) then h.uartCredit n else h

/-- RTS/CTS is on. -/
def Hub.rtsCts (h : Hub) (n : Nat) : Bool := bitOf (h.get (Obj.UART_FORMAT n)) 3

/-- The transmitter takes the next byte of its TX FIFO, which then counts as consumed. -/
def Hub.uartKick (h : Hub) (n : Fin 4) : Hub :=
  let u := h.uarts[n]
  match u.tx with
  | b :: rest =>
    if u.shift || (h.rtsCts n && !u.cts) then h
    else ((h.setUart n fun u => { u with tx := rest, shift := true, used := u.used + 1 }).emit (.uartTx n b (h.get (Obj.UART_BAUD n)) (h.get (Obj.UART_FORMAT n)))).uartCredits n rest.isEmpty
  | [] => h

/-- Bytes put into the TX FIFO, as far as it has room. -/
def Hub.uartPush (h : Hub) (n : Fin 4) (bs : List Byte) : Hub :=
  (h.setUart n fun u => { u with tx := u.tx ++ bs.take (2048 - u.tx.length) }).uartKick n

/-- The parity bit of a byte under a format: even or odd (R453). -/
def parityBit (f : Nat) (b : Byte) : Bool := Bool.xor (f % 4 == 2) ((byteBits b).foldl Bool.xor false)

/-- Nanoseconds of one character. -/
def Hub.charNs (h : Hub) (n : Nat) : Nat :=
  let f := h.get (Obj.UART_FORMAT n)
  (10 + (if f % 4 = 0 then 0 else 1) + b2n (bitOf f 2)) * 1000000000 / max 1 (h.get (Obj.UART_BAUD n))

/-- RTSn follows the RX FIFO. -/
def Hub.uartRts (h : Hub) (n : Fin 4) (before : Nat) : Hub :=
  let now := (h.uarts[n]).rx.length
  if h.rtsCts n && (Nat.ble 1792 before != Nat.ble 1792 now) then h.emit (.uartRts n (Nat.ble (now + 1) 1792)) else h

/-- Data messages leave while 104 bytes are held, or fewer after the idle time, as far as credit allows. -/
def Hub.uartSend (h : Hub) (n : Fin 4) : Nat → Hub
  | 0 => h
  | f + 1 =>
    let u := h.uarts[n]
    let k := min 104 u.rx.length
    if h.get (Obj.UART_BIND n) ≠ 1 ∨ k = 0 ∨ (k < 104 ∧ !u.flush) then h.setUart n fun u => { u with flush := u.flush && !u.rx.isEmpty }
    else if 2048 < (u.sent + 2 ^ 32 - u.credit) % 2 ^ 32 + k then
      (if u.stalled then h else (h.bump Obj.UART_CREDIT_STALLS).setUart n fun u => { u with stalled := true })
    else
      let h := h.sendMsg 4 n 1 0 u.sent (u.rx.take k)
      let h := h.setUart n fun u => { u with rx := u.rx.drop k, sent := (u.sent + k) % 2 ^ 32, stalled := false }
      (h.uartRts n u.rx.length).uartSend n f

/-- A byte arrives, with the parity bit where the format has one, and the level of its stop bits (R454). -/
def Hub.uartByte (h : Hub) (n : Fin 4) (b : Byte) (parity stop : Bool) : Hub :=
  let u := h.uarts[n]
  let f := h.get (Obj.UART_FORMAT n)
  if !stop || ((f % 4 == 1 || f % 4 == 2) && parity != parityBit f b) then h.bump Obj.UART_FRAMING
  else if Nat.ble 2048 u.rx.length then h.bump Obj.UART_OVERRUN
  else
    let h := (h.setUart n fun u => { u with rx := u.rx ++ [b], flush := false }).uartRts n u.rx.length
    (h.arm (.uartIdle n) (h.get (Obj.UART_IDLE n) * h.charNs n)).uartSend n 20

/-- Meaning of UART_BYTE_RX. -/
def execUartByteRx (n : Fin 4) (b : Byte) (parity stop : Bool) (s : State) : Host.Outcome State Fault Refusal :=
  s.run fun h => if h.domOn 2 then h.uartByte n b parity stop else h

/-- Meaning of UART_IDLE_FLUSH. -/
def execUartIdleFlush (n : Fin 4) (s : State) : Host.Outcome State Fault Refusal := s.run fun h =>
  if h.domOn 2 && h.due (.uartIdle n) then ((h.disarm (.uartIdle n)).setUart n fun u => { u with flush := true }).uartSend n 20 else h

/-- A data message for the TX FIFO (R455). -/
def Hub.uartData (h : Hub) (n : Fin 4) (body : List Byte) : Hub :=
  if !msgOk 4 1 1 104 body then h.malformed
  else
    let len := ofBE (slice body 2 2)
    let off := ofBE (slice body 4 4)
    let gap : Nat := (off + 2 ^ 32 - (h.uarts[n]).expect) % 2 ^ 32
    let lost := if gap < 2 ^ 31 then gap else 0
    let h := if lost = 0 then h else (h.bumpBy Obj.UART_LOST_BYTES lost).event 0x43 Obj.UART_LOST_BYTES
    let h := (h.setUart n fun u => { u with used := u.used + lost, expect := (off + len) % 2 ^ 32 }).uartCredits n false
    h.uartPush n (slice body 8 len)

/-- Meaning of UART_DATA_MESSAGE_RX. -/
def execUartDataMessageRx (n : Fin 4) (content : Option (List Byte)) (s : State) : Host.Outcome State Fault Refusal :=
  s.run fun h => if !h.domOn 2 then h else match h.msgTake 4 n 0x42 content with
    | some (body, h) => if h.get (Obj.UART_BIND n) = 1 then h.uartData n body else h
    | none => h

/-- Meaning of UART_CREDIT_MESSAGE_RX. -/
def Hub.uartCreditRx (h : Hub) (n : Fin 4) (body : List Byte) : Hub :=
  if h.get (Obj.UART_BIND n) ≠ 1 then h
  else if !msgOk 4 2 0 0 body then h.malformed
  else (h.setUart n fun u => { u with credit := ofBE (slice body 4 4) }).uartSend n 20
def execUartCreditMessageRx (n : Fin 4) (content : Option (List Byte)) (s : State) : Host.Outcome State Fault Refusal :=
  s.run fun h => if !h.domOn 2 then h else match h.msgTake 4 n 0x41 content with
    | some (body, h) => h.uartCreditRx n body
    | none => h

/-- Meaning of UART_CHARACTER_SENT: the level of CTSn decides whether the next character starts. -/
def execUartCharacterSent (n : Fin 4) (cts : Bool) (s : State) : Host.Outcome State Fault Refusal := s.run fun h =>
  let h := h.setUart n fun u => { u with shift := false, cts := cts }
  if h.domOn 2 then h.uartKick n else h

/-- Meaning of UART_GROUP_APPLY: both shift registers are idle. -/
def execUartGroupApply (n : Fin 4) (rxIdle : Bool) (s : State) : Host.Outcome State Fault Refusal := s.run fun h =>
  if rxIdle && !(h.uarts[n]).shift then
    let h := h.takeUnit .uart fun w => w.key / 256 == 0x550C + n.val
    if h.rtsCts n then h.emit (.uartRts n (Nat.ble ((h.uarts[n]).rx.length + 1) 1792)) else h
  else h

/-- The counts of a UART tunnel start at the commit of its group. -/
def Hub.uartTunnel (h : Hub) (t : Nat) : Hub :=
  let l := h.get (Obj.TUN_LOCAL t)
  if h.tunUsed t && h.hasEnd t 11 && l / 4096 == 4 then
    h.setUart ⟨l % 4, Nat.mod_lt _ (by decide)⟩ fun u => { u with sent := 0, credit := 0, expect := 0, used := 0, told := 0, stalled := false }
  else h

/-- A region read of UART_DATA: the value, and the FIFO after it (R443, R453). -/
def Hub.uartPop (h : Hub) (n : Fin 4) : Nat × Hub :=
  if h.get (Obj.UART_BIND n) ≠ 0 then (0, h.bump Obj.REGION_REFUSED)
  else match (h.uarts[n]).rx with
    | [] => (0, h)
    | b :: rest => (256 + b.toNat, (h.setUart n fun u => { u with rx := rest }).uartRts n (rest.length + 1))

/-- A region write of UART_DATA. -/
def Hub.uartPoke (h : Hub) (n : Fin 4) (v : Nat) : Hub :=
  if h.get (Obj.UART_BIND n) ≠ 0 then h.bump Obj.REGION_REFUSED else h.uartPush n [BitVec.ofNat 8 v]

/-- Meaning of UART_DATA_READ. -/
def execUartDataRead (o : Origin) (n : Fin 4) (s : State) : Host.Outcome State Fault Refusal := s.run fun h =>
  if h.frozen o then h.emit (.data o rcFrozen 0)
  else if !(h.regionWake o).domOn 2 && (h.regionWake o).domState 2 != 3 then h.emit (.data o rcDomainOff 0)
  else
    let (v, h) := (h.regionWake o).uartPop n
    h.emit (.data o rcOk v)

/-- Meaning of UART_DATA_WRITE. -/
def execUartDataWrite (o : Origin) (n : Fin 4) (v : W32) (s : State) : Host.Outcome State Fault Refusal :=
  s.run fun h => h.regionGuard o (3 * 65536 + 4096 * n.val) fun h => h.uartPoke n v.toNat

/-! ### The peripheral region (R443) -/

/-- A master's buffer word read. -/
def wordAt (bs : List Byte) (i : Nat) : Nat := ofLE (slice (padTo 256 bs) i 4)

/-- A read at a byte offset of the region: result code, value, and the region after it. -/
def Hub.regionRead (h : Hub) (off : Nat) : Nat × Nat × Hub :=
  if off % 4 ≠ 0 then (rcTypeMismatch, 0, h)
  else
    let b := off / 65536
    let i := off % 65536 / 4096
    let r := off % 4096
    let mm : Nat := if b = 1 then i else 4 + i
    if b = 0 then
      (if off = 0 then (rcOk, h.gpio.input.toNat, h) else if off = 4 then (rcOk, h.gpio.out.toNat, h)
        else if off = 8 ∨ off = 12 then (rcWriteOnly, 0, h) else (rcNoObject, 0, h))
    else if (b = 1 ∧ i < 4) ∨ (b = 2 ∧ i < 2) then
      (if hm : mm < 6 then
        let x := h.masters[(⟨mm, hm⟩ : Fin 6)]
        if r < 0x100 then (rcOk, wordAt x.cmd r, h)
        else if r = 0x100 then (rcWriteOnly, 0, h)
        else if r = 0x104 then (rcOk, x.status, h)
        else if 0x200 ≤ r ∧ r < 0x300 then (rcOk, wordAt x.result (r - 0x200), h)
        else (rcNoObject, 0, h)
      else (rcNoObject, 0, h))
    else if hb : b = 3 ∧ i < 4 then
      let n : Fin 4 := ⟨i, hb.2⟩
      (if r = 0 then
        let (v, h) := h.uartPop n
        (rcOk, v, h)
      else if r = 4 then (rcOk, (h.uarts[n]).rx.length % 4096 + 65536 * (2048 - (h.uarts[n]).tx.length), h)
      else (rcNoObject, 0, h))
    else (rcNoObject, 0, h)

/-- A write at a byte offset of the region. -/
def Hub.regionWrite (h : Hub) (off v : Nat) : Nat × Hub :=
  if off % 4 ≠ 0 then (rcTypeMismatch, h)
  else
    let b := off / 65536
    let i := off % 65536 / 4096
    let r := off % 4096
    let mm : Nat := if b = 1 then i else 4 + i
    if b = 0 then
      (if off = 0 then (rcReadOnly, h)
        else if off = 4 then (rcOk, (h.setGpio fun g => { g with out := BitVec.ofNat 32 v }).gpioShow)
        else if off = 8 then (rcOk, h.gpioMasks (BitVec.ofNat 32 v) 0)
        else if off = 12 then (rcOk, h.gpioMasks 0 (BitVec.ofNat 32 v))
        else (rcNoObject, h))
    else if (b = 1 ∧ i < 4) ∨ (b = 2 ∧ i < 2) then
      (if hm : mm < 6 then
        let m : Fin 6 := ⟨mm, hm⟩
        if r < 0x100 then (rcOk, h.setMaster m fun x => { x with cmd := overlay (padTo 256 x.cmd) r (toLE 4 v) })
        else if r = 0x100 then (rcOk, h.periphGo m v)
        else if r = 0x104 ∨ (0x200 ≤ r ∧ r < 0x300) then (rcReadOnly, h)
        else (rcNoObject, h)
      else (rcNoObject, h))
    else if hb : b = 3 ∧ i < 4 then
      (if r = 0 then (rcOk, h.uartPoke ⟨i, hb.2⟩ v) else if r = 4 then (rcReadOnly, h) else (rcNoObject, h))
    else (rcNoObject, h)

/-! ### The USB hub (R456 to R459) -/

/-- The USB state set. -/
def Hub.setUsb (h : Hub) (f : UsbSt → UsbSt) : Hub := { h with usb := f h.usb }

/-- Upstream is attached and the hub is active. -/
def Hub.usbOn (h : Hub) : Bool := Nat.ble 2 (h.get Obj.USB_STATE)

/-- A port's status and change bits set and cleared. -/
def Hub.usbPort (h : Hub) (p : Fin 3) (set clr : Nat) : Hub :=
  h.put (Obj.PORT_STATUS p) ((h.get (Obj.PORT_STATUS p) ||| set) &&& (clr ^^^ 0xFFFFFFFF))

/-- Power of a port switched: off clears everything but the change bits. -/
def Hub.usbPwr (h : Hub) (p : Fin 3) (on : Bool) : Hub :=
  (if on then h.usbPort p 0x100 8 else h.usbPort p 0 0xFFFF).emit (.usbPower p on)

/-- An event of the device function (R463). -/
def Hub.devEvent (h : Hub) (code : Nat) (aborted : Bool) : Hub :=
  h.put Obj.DEV_EVENT (code + 256 * b2n aborted + 65536 * (h.usb.seq % 65536))

/-- A bus event of U3 as a proxy, told to the hub behind it while it is connected (R457). -/
def Hub.proxyTell (h : Hub) (m : UsbMsg) : Hub :=
  if h.eff Obj.USB_U3_BIND = 1 ∧ bitOf (h.get (Obj.PORT_STATUS 2)) 0 then h.emit (.usbTunnel m) else h

/-- The hub resumes: states before suspend, the suspend pin released, RESUME told. -/
def Hub.usbResume (h : Hub) : Hub :=
  if h.get Obj.USB_STATE ≠ 5 then h
  else
    let h := (h.put Obj.USB_STATE h.usb.before.1).put Obj.DEV_STATE (if h.get Obj.DEV_STATE = 5 then h.usb.before.2 else h.get Obj.DEV_STATE)
    let h := ((h.setGpio fun g => { g with susp := none }).gpioShow).proxyTell .resume
    if 2 ≤ h.usb.before.2 then h.devEvent 3 false else h

/-- A host-driven K while a remote wake is pending withdraws the request (R463). -/
def Hub.wakeLost (h : Hub) : Hub :=
  if h.get Obj.DEV_WAKE_STATUS = 1 then
    (((h.put Obj.DEV_WAKE_STATUS 4).disarm .wakeStart).devEvent 5 false).bump Obj.WAKE_SUPERSEDED
  else h

/-- Meaning of USB_RESUME: the host drives the resume. -/
def execUsbResume (s : State) : Host.Outcome State Fault Refusal := s.run fun h => h.wakeLost.usbResume

/-- The upstream bus has been idle for 3 ms. -/
def Hub.usbSuspend (h : Hub) : Hub :=
  if !h.usbOn || h.get Obj.USB_STATE == 5 then h
  else
    let d := h.get Obj.DEV_STATE
    let h := h.setUsb fun u => { u with before := (h.get Obj.USB_STATE, d), suspAt := h.now }
    let h := ((h.put Obj.USB_STATE 5).put Obj.DEV_STATE (if 2 ≤ d then 5 else d)).bump Obj.SUSPENDS
    let pin := h.get Obj.USB_SUSP_GPIO
    let h := (if pin < 32 then (h.setGpio fun g => { g with susp := some pin }).gpioShow else h).proxyTell .suspend
    if 2 ≤ d then h.devEvent 2 false else h

/-- Meaning of USB_SUSPEND. -/
def execUsbSuspend (s : State) : Host.Outcome State Fault Refusal := s.run Hub.usbSuspend

/-- A reset of U4, or of the upstream bus (R462). -/
def Hub.usbReset (h : Hub) (upstream : Bool) : Hub :=
  let cut := h.usb.ctl
  let h := if upstream && h.usbOn then
      (List.finRange 3).foldl (fun h p => h.usbPwr p (h.eff Obj.USB_PWR_MODE == 1))
        (((h.setGpio fun g => { g with susp := none }).put Obj.USB_STATE 2))
    else h
  if h.get Obj.DEV_CONNECT = 0 ∨ !h.usbOn then h
  else
    let h := h.setUsb fun u => { u with open_ := none, ctl := false, halts := [], toggle := [], ep1In := [], ep1Out := [], wakeOk := false }
    let h := ((h.put Obj.DEV_STATE 2).devEvent 1 cut).bump Obj.BUS_RESETS
    let h := if cut then h.bump Obj.ABORTED_CONTROL else h
    let w := h.get Obj.DEV_WAKE_STATUS
    let h := if w = 1 ∨ w = 2 then h.put Obj.DEV_WAKE_STATUS 0 else h
    (h.disarm .wakeStart).disarm .wakeEnd

/-- Meaning of USB_BUS_RESET. -/
def execUsbBusReset (upstream : Bool) (s : State) : Host.Outcome State Fault Refusal := s.run fun h => h.usbReset upstream

/-- The hub off its upstream bus: unattached while it is enabled, the suspend pin released (R457, R459, R511). -/
def Hub.usbOff (h : Hub) : Hub :=
  let h := (h.put Obj.USB_STATE (min 1 (h.get Obj.USB_STATE))).put Obj.DEV_STATE (min 1 (h.get Obj.DEV_STATE))
  ((h.setGpio fun g => { g with susp := none }).gpioShow).setUsb fun u => { seq := u.seq }

/-- An upstream attach or detach, on USB_UP_VBS or the USB tunnel (R459). -/
def Hub.usbAttach (h : Hub) (tunnel present : Bool) : Hub :=
  let h := h.startWake 22 5 5
  let h := if present then h.takeUnit .usbAttach fun _ => true else h
  let on := h.eff Obj.USB_ENABLE == 1
  if (h.eff Obj.USB_UP_SOURCE == 1) != tunnel then h
  else if present && on then
    (List.finRange 3).foldl (fun h p => if h.eff Obj.USB_PWR_MODE = 1 then h.usbPwr p true else h) (h.put Obj.USB_STATE 2)
  else h.usbOff.put Obj.USB_STATE (b2n on)

/-- Meaning of USB_UPSTREAM_ATTACH. -/
def execUsbUpstreamAttach (tunnel present : Bool) (s : State) : Host.Outcome State Fault Refusal :=
  s.run fun h => h.usbAttach tunnel present

/-- A connection or disconnection seen at a powered port: speed 0 full, 1 low, 2 high (R456). -/
def Hub.usbConnect (h : Hub) (p : Fin 3) (connected : Bool) (speed : Nat) : Hub :=
  if !bitOf (h.get (Obj.PORT_STATUS p)) 8 then h
  else if connected then h.usbPort p (0x10001 + 0x200 * b2n (speed == 1) + 0x400 * b2n (speed == 2)) 0
  else h.usbPort p 0x10000 0x0607

/-- Meaning of USB_PORT_CONNECT_CHANGE: of a port that is no proxy. -/
def execUsbPortConnectChange (port : Fin 3) (connected : Bool) (speed : Fin 3) (s : State) : Host.Outcome State Fault Refusal :=
  s.run fun h => if port = 2 ∧ h.eff Obj.USB_U3_BIND = 1 then h else h.usbConnect port connected speed.val

/-- The path of the USB tunnel is up. -/
def Hub.usbPath (h : Hub) : Bool := match h.blockTunnel 5 0 with
  | some t => !(h.dests t 11 (routeTag 11 t)).isEmpty
  | none => false

/-- U3 as a proxy follows the tunnel's path (R457). -/
def Hub.usbFollow (h : Hub) : Hub :=
  if h.eff Obj.USB_U3_BIND = 1 ∧ h.usbOn ∧ bitOf (h.get (Obj.PORT_STATUS 2)) 0 ≠ h.usbPath then
    (h.usbConnect 2 h.usbPath 2).setUsb fun u => { u with flight := [], back := [] }
  else h

/-- Meaning of USB_OVERCURRENT: OCn low for 10 ms (R458). -/
def Hub.usbOver (h : Hub) (p : Fin 3) : Hub :=
  ((((h.usbPort p 0x80008 0x0107)).emit (.usbPower p false)).bump Obj.OVERCURRENT).event 0x41 (Obj.PORT_STATUS p)
def execUsbOvercurrent (port : Fin 3) (s : State) : Host.Outcome State Fault Refusal := s.run fun h => if h.usbOn then h.usbOver port else h

/-- A transaction of the host at the proxy port U3 (R457). -/
def Hub.usbProxy (h : Hub) (tok : UsbTok) (key : W16) (bytes : List Byte) : Hub :=
  if h.eff Obj.USB_U3_BIND ≠ 1 ∨ !h.usbOn then h
  else
    let send := fun (h : Hub) => (h.setUsb fun u => { u with flight := u.flight ++ [(key.toNat, tok == .setup)] }).emit (.usbTunnel (.forward key bytes))
    let nak := fun (h : Hub) => (h.bump Obj.PROXY_NAKS).emit .usbNak
    let room := Nat.ble (h.usb.flight.length + 1) 16
    match tok with
    | .iso => h.bump Obj.PROXY_ISO_DISCARDED
    | .setup => if room then (send h).emit .usbAck else nak h
    | _ =>
      match h.usb.back.find? fun x => x.1 == key.toNat with
      | some (_, d) => (h.setUsb fun u => { u with back := u.back.filter (fun x => x.1 != key.toNat), flight := u.flight.filter fun x => x.1 != key.toNat }).emit
          (.usbData d)
      | none => if (h.usb.flight.any fun x => x.1 == key.toNat) || !room then nak h else nak (send h)

/-- Meaning of USB_PROXY_TRANSACTION. -/
def execUsbProxyTransaction (tok : UsbTok) (key : W16) (bytes : List Byte) (s : State) : Host.Outcome State Fault Refusal :=
  s.run fun h => h.usbProxy tok key bytes

/-- A message of the USB tunnel: at the far hub a transaction or bus event, or the answer of its own tree on its way back; at the proxy hub
an answer, which the host's next retry gets unless the proxy has acknowledged a SETUP for it (R457). A message takes the oldest cell that
waits for the block, whose layout is not stated (log entry 92). -/
def Hub.usbMessage (h : Hub) (m : UsbMsg) : Hub :=
  let far := h.eff Obj.USB_UP_SOURCE == 1
  let h := match h.inboxTake 11 fun c => c.chan / 4096 == 5 with
    | some (_, n) => n
    | none => h
  match m with
  | .forward key bytes => if far then h.emit (.usbTree key bytes) else h
  | .back key bytes =>
    match h.usb.flight.find? fun x => x.1 == key.toNat with
    | some (_, true) => h.setUsb fun u => { u with flight := u.flight.filter fun x => x.1 != key.toNat }
    | some (_, false) => h.setUsb fun u => { u with back := (key.toNat, bytes) :: u.back.filter fun x => x.1 != key.toNat }
    | none => if far then h.emit (.usbTunnel (.back key bytes)) else h
  | .reset => if far then h.usbReset true else h
  | .suspend => if far then h.usbSuspend else h
  | .resume => if far then h.wakeLost.usbResume else h

/-- Meaning of USB_TUNNEL_MESSAGE_RX. -/
def execUsbTunnelMessageRx (m : UsbMsg) (s : State) : Host.Outcome State Fault Refusal := s.run fun h => h.usbMessage m

/-! ### The device function (R460 to R463) -/

/-- Endpoint addresses of an interface, an IN endpoint with [7] set (R460). -/
def interfaceEps (i : Nat) : List Nat := [[0x01, 0x81], [0x82], [0x03, 0x83], [0x84], [0x05, 0x85]].getD i []

/-- The endpoint address in a request's index: [7] and [3:0]. -/
def epOf (index : Nat) : Nat := index % 16 + index / 128 % 2 * 128

/-- An endpoint's data toggle after `n` packets. -/
def Hub.usbToggle (h : Hub) (ep n : Nat) : Hub :=
  if n % 2 = 0 then h
  else h.setUsb fun u => { u with toggle := if u.toggle.contains ep then u.toggle.filter (· != ep) else ep :: u.toggle }

/-- Packets of a high-speed bulk transfer of `n` bytes that ends with a short packet. -/
def usbPackets (n : Nat) : Nat := n / 512 + 1

/-- A descriptor asked for, of at most `most` bytes: R456 and R460 name what the hub and the device function present and give no descriptor,
so its length and bytes are free values (log entry 97). -/
def Hub.usbDescriptor (h : Hub) (most : Nat) : Hub :=
  let n := h.free 16 % (most + 1)
  (h.used.emit (.usbData (toLE n (h.used.free (8 * n))))).used

/-- The status of a device: self-powered or not, which the spec does not state, and remote wakeup (USB 2.0; log entry 97). -/
def Hub.usbStatus (h : Hub) (wake : Bool) : Hub := h.used.emit (.usbData [BitVec.ofNat 8 (h.free 1 + 2 * b2n wake), 0])

/-- A request to the hub: addresses, configurations, status and port features (USB 2.0, R456, R458). -/
def Hub.hubRequest (h : Hub) (rtype req value index len : Nat) : Hub :=
  if req = 5 then h.put Obj.USB_STATE (if value = 0 then 2 else 3)
  else if req = 9 then h.put Obj.USB_STATE (if value = 0 then 3 else 4)
  else if req = 6 then h.usbDescriptor len
  else if req = 8 then h.emit (.usbData [BitVec.ofNat 8 (b2n (h.get Obj.USB_STATE == 4))])
  else if req = 0 ∧ rtype = 0x80 then h.usbStatus false
  else if req = 0 ∧ rtype = 0xA0 then h.used.emit (.usbData [BitVec.ofNat 8 (h.free 1), 0, 0, 0])
  else if hp : 1 ≤ index ∧ index ≤ 3 then
    let p : Fin 3 := ⟨index - 1, by omega⟩
    let u3 := p == 2 && h.eff Obj.USB_U3_BIND == 1
    let tell := fun (h : Hub) (m : UsbMsg) => if u3 then h.emit (.usbTunnel m) else h
    if req = 0 then h.emit (.usbData (toLE 4 (h.get (Obj.PORT_STATUS p))))
    else if req = 3 then
      if value = 8 then h.usbPwr p true
      else if value = 4 then tell (h.usbPort p 0x100002 0) .reset
      else if value = 2 then tell (h.usbPort p 4 0) .suspend
      else h
    else if req = 1 then
      if value = 8 then (if h.eff Obj.USB_PWR_MODE = 1 then h else h.usbPwr p false)
      else if value = 1 then h.usbPort p 0 2
      else if value = 2 then tell (h.usbPort p 0x40000 4) .resume
      else if 16 ≤ value ∧ value ≤ 20 then h.usbPort p 0 (2 ^ value)
      else h
    else h
  else h

/-- A standard request to the device function, answered in hardware (R461). -/
def Hub.devRequest (h : Hub) (rtype req value index len : Nat) : Hub :=
  let clear := fun (h : Hub) (eps : List Nat) => h.setUsb fun u => { u with
    halts := u.halts.filter (fun e => !eps.contains e), toggle := u.toggle.filter fun e => !eps.contains e }
  if req = 5 then h.put Obj.DEV_STATE (if value = 0 then 2 else 3)
  else if req = 9 then clear (h.put Obj.DEV_STATE (if value = 0 then 3 else 4)) ((List.range 5).flatMap interfaceEps)
  else if req = 11 then clear h (interfaceEps index)
  else if req = 0 then (if rtype % 32 = 0 then h.usbStatus h.usb.wakeOk
    else h.emit (.usbData [BitVec.ofNat 8 (b2n (rtype % 32 == 2 && h.usb.halts.contains (epOf index))), 0]))
  else if req = 6 then h.usbDescriptor len
  else if req = 8 then h.emit (.usbData [BitVec.ofNat 8 (b2n (h.get Obj.DEV_STATE == 4))])
  else if req = 10 then h.emit (.usbData [0])
  else if req = 1 ∧ rtype % 32 = 2 ∧ value = 0 then clear h [epOf index]
  else if req = 1 ∧ rtype % 32 = 0 ∧ value = 1 then h.setUsb fun u => { u with wakeOk := false }
  else if req = 3 ∧ rtype % 32 = 2 ∧ value = 0 then h.setUsb fun u => { u with halts := epOf index :: u.halts.filter fun e => e != epOf index }
  else if req = 3 ∧ rtype % 32 = 0 ∧ value = 1 then h.setUsb fun u => { u with wakeOk := true }
  else h

/-- A SETUP packet, its first byte in bits [7:0]. -/
def Hub.usbSetup (h : Hub) (toHub : Bool) (pkt : W64) : Hub :=
  let b := toLE 8 pkt.toNat
  let value := ofLE (slice b 2 2)
  let index := ofLE (slice b 4 2)
  if !h.usbOn || h.get Obj.USB_STATE == 5 then h
  else if toHub then h.hubRequest (byteAt b 0) (byteAt b 1) value index (ofLE (slice b 6 2))
  else if h.get Obj.DEV_CONNECT = 0 then h
  else if byteAt b 0 / 32 % 4 = 0 then
    (h.setUsb fun u => { u with open_ := none, ctl := true }).devRequest (byteAt b 0) (byteAt b 1) value index (ofLE (slice b 6 2))
  else
    let cut := h.usb.open_.isSome
    let n := (h.usb.seq + 1) % 65536
    ((h.setUsb fun u => { u with seq := n, open_ := some n, ctl := true, eng := h.get Obj.DEV_ENGINE }).put Obj.DEV_SETUP pkt.toNat).devEvent 4 cut

/-- Meaning of USB_SETUP_RX. -/
def execUsbSetupRx (toHub : Bool) (pkt : W64) (s : State) : Host.Outcome State Fault Refusal := s.run fun h => h.usbSetup toHub pkt

/-- The UART bound as an ACM interface. -/
def Hub.acmUart (h : Hub) (i : Nat) : Option (Fin 4) := (List.finRange 4).find? fun n => h.get (Obj.UART_BIND n) == 2 + i

/-- The endpoint a transfer uses. -/
def xferEp : UsbXfer → Nat
  | .hopOut _ _ => 0x01
  | .hopIn => 0x81
  | .acmOut i _ => 0x03 + 2 * i.val
  | .acmIn i => 0x83 + 2 * i.val
  | .ep0Reply _ _ => 0
  | .ep0Status => 0

/-- The engine that the request was passed to runs or sleeps and is not frozen (R485). -/
def Hub.devServed (h : Hub) : Bool := [2, 3].contains (h.get (Obj.ENG_STATE h.usb.eng))

/-- A transfer on an endpoint of the device function: a request whose engine does not serve answers STALL in its data or status stage; a halted one answers STALL, one without room or data NAK. -/
def Hub.usbTransfer (h : Hub) (x : UsbXfer) : Hub :=
  let on := Nat.ble 2 (h.get Obj.DEV_STATE) && h.get Obj.DEV_STATE != 5
  let open_ := xferEp x == 0 || h.get Obj.DEV_STATE == 4
  if !on || !open_ then h
  else if h.usb.halts.contains (xferEp x) then h.emit .usbStall
  else match x with
    | .hopOut bs short =>
      let hop := if h.usb.ep1Out.isEmpty then h.get Obj.DEV_HOP_ENABLE == 1 else h.usb.ep1Hop
      let f := h.usb.ep1Out ++ bs
      let h := (h.usbToggle 0x01 1).setUsb fun u => { u with ep1Out := if short then [] else f, ep1Hop := hop }
      if short && hop then { h with hopIn := h.hopIn ++ [(.usb, f)] } else h
    | .hopIn => match h.usb.ep1In with
      | f :: rest => ((h.usbToggle 0x81 (usbPackets f.length)).setUsb fun u => { u with ep1In := rest }).emit (.usbData f)
      | [] => h.emit .usbNak
    | .acmOut i bs => match h.acmUart i with
      | some n =>
        if h.domOn 2 && Nat.ble ((h.uarts[n]).tx.length + bs.length) 2048 then (h.usbToggle (xferEp x) 1).uartPush n bs else h.emit .usbNak
      | none => h.emit .usbNak
    | .acmIn i => match h.acmUart i with
      | some n =>
        let u := h.uarts[n]
        if u.rx.isEmpty then h.emit .usbNak
        else (((h.usbToggle (xferEp x) 1).setUart n fun u => { u with rx := u.rx.drop 512 }).uartRts n u.rx.length).emit (.usbData (u.rx.take 512))
      | none => h.emit .usbNak
    | .ep0Reply seq bs =>
      if h.usb.open_.isSome && !h.devServed then (h.setUsb fun u => { u with open_ := none, ctl := false }).emit .usbStall
      else if h.usb.open_ = some seq.toNat then h.emit (.usbData bs) else h.bump Obj.STALE_REPLIES
    | .ep0Status =>
      let n := h.setUsb fun u => { u with open_ := none, ctl := false }
      if h.usb.open_.isSome && !h.devServed then n.emit .usbStall else n

/-- Meaning of USB_DEVICE_TRANSFER. -/
def execUsbDeviceTransfer (x : UsbXfer) (s : State) : Host.Outcome State Fault Refusal := s.run fun h => h.usbTransfer x

/-- `DEV_WAKE` = 1 (R463). -/
def Hub.wakeAsk (h : Hub) : Hub :=
  let w := h.get Obj.DEV_WAKE_STATUS
  let ok := h.get Obj.DEV_STATE == 5 && h.usb.wakeOk
  if w = 1 ∨ w = 2 then h
  else if ok then (h.put Obj.DEV_WAKE_STATUS 1).arm .wakeStart (h.usb.suspAt + ms 5 - h.now)
  else if w = 0 then h.put Obj.DEV_WAKE_STATUS 5 else h

/-- Meaning of DEV_WAKE. -/
def execDevWake (o : Origin) (v : W32) (s : State) : Host.Outcome State Fault Refusal :=
  s.run fun h => h.guarded o Obj.DEV_WAKE v.toNat fun h => (rcOk, h.wakeAsk)

/-- Meaning of WAKE_DRIVE_START. -/
def execWakeDriveStart (s : State) : Host.Outcome State Fault Refusal := s.run fun h =>
  if h.due .wakeStart && h.get Obj.DEV_WAKE_STATUS == 1 then
    (((h.put Obj.DEV_WAKE_STATUS 2).disarm .wakeStart).arm .wakeEnd (ms 2)).emit (.usbWake true)
  else h

/-- Meaning of WAKE_DRIVE_END: the line is released and the resume goes upstream. -/
def execWakeDriveEnd (s : State) : Host.Outcome State Fault Refusal := s.run fun h =>
  if h.due .wakeEnd && h.get Obj.DEV_WAKE_STATUS == 2 then
    (((h.put Obj.DEV_WAKE_STATUS 3).disarm .wakeEnd).emit (.usbWake false)).usbResume
  else h

/-- Meaning of WAKE_SUPERSEDED: a host-driven K while the request is pending. -/
def execWakeSuperseded (s : State) : Host.Outcome State Fault Refusal := s.run Hub.wakeLost

/-- `DEV_CONNECT` written (R460). -/
def Hub.devConnect (h : Hub) : Hub :=
  if h.get Obj.DEV_CONNECT = 1 then (if h.get Obj.DEV_STATE = 0 then h.put Obj.DEV_STATE 1 else h)
  else (h.put Obj.DEV_STATE 0).setUsb fun u => { u with open_ := none, ctl := false, ep1In := [], ep1Out := [], halts := [], toggle := [] }

end Sys2Proof.Machine
end

