-- ==== Sys2Proof/Machine/Fw.lean ====
section
/-! DEFINITION. The Steep engines as units (R471 to R487): their start, halt, fault and reset, cell queues, and firmware images. -/

namespace Sys2Proof.Machine

/-! ### Engines -/

/-- A change of an engine's own state. -/
def Hub.setEng (h : Hub) (e : Engine) (f : EngSt → EngSt) : Hub := { h with engs := h.engs.set e (f h.engs[e]) }

/-- The engine runs sandbox code (R481). -/
def Hub.sandboxed (h : Hub) (e : Nat) : Bool := Nat.ble 10 e && h.eff (Obj.ENG_MODE e) == 1

/-- The state an engine that is not halted shows: frozen, sleeping or running (R483, R486). -/
def Hub.engShow (h : Hub) (e : Engine) : Hub :=
  h.put (Obj.ENG_STATE e.val) (if h.frozen (.se e) then 6 else if (h.engs[e]).asleep then 3 else 2)

/-- The engine executes or sleeps. -/
def Hub.engLive (h : Hub) (e : Nat) : Bool := [2, 3, 6].contains (h.get (Obj.ENG_STATE e))

/-- Release of an engine at an entry address, with reset registers; a cleared `ENG_RUN` holds it halted. -/
def Hub.engStart (h : Hub) (e : Engine) (entry : Nat) : Hub :=
  let h := h.setEng e fun _ => { pc := BitVec.ofNat 32 entry, loaded := true }
  if h.flag (Obj.ENG_RUN e.val) then h.engShow e else h.put (Obj.ENG_STATE e.val) 4

/-- A fault of an engine: it halts in state 5 until `ENG_RESET` (R484). -/
def Hub.engFault (h : Hub) (e : Engine) (cause : Nat) : Hub :=
  let h := ((h.put (Obj.ENG_STATE e.val) 5).put (Obj.ENG_FAULT_PC e.val) (h.engs[e]).pc.toNat).put (Obj.ENG_FAULT_CAUSE e.val) cause
  ((h.setEng e fun s => { s with asleep := false, stall := none }).disarm (.wdog e)).event 0x45 (Obj.ENG_STATE e.val)

/-- Memory cells of a range zeroed. -/
def Hub.memZero (h : Hub) (lo n : Nat) : Hub :=
  ((h.mem.base ++ h.mem.dirty).filter fun c => Nat.ble lo c.1 && Nat.ble (c.1 + 1) (lo + n)).foldl (fun h c => h.memPut c.1 0) h

/-- The TCM of an engine zeroed. -/
def Hub.tcmZero (h : Hub) (e : Engine) : Hub := h.memZero (tcmAddr e 0) 65536

/-! ### Images (R476, R477) -/

/-- A segment of an image: destination, offset in it, its bytes. -/
structure Segment where
  dest : Nat
  at_  : Nat
  data : List Byte
  deriving DecidableEq, Repr

/-- Four bytes of an image, least significant first. -/
def word4 (b : List Byte) (i : Nat) : Nat := ofLE (slice b i 4)

/-- Length of an image. -/
def imageLen (b : List Byte) : Nat := word4 b 60

/-- Version of an image. -/
def imageVersion (b : List Byte) : Nat := word4 b 4

/-- Entry address of an engine. -/
def imageEntry (b : List Byte) (e : Nat) : Nat := word4 b (12 + 4 * e)

/-- The segments of an image. -/
def imageSegments (b : List Byte) : List Segment :=
  (List.range (byteAt b 9)).map fun i =>
    let r := 64 + 16 * i
    ⟨word4 b r, word4 b (r + 4), slice b (word4 b (r + 12)) (word4 b (r + 8))⟩

/-- Size of a segment's destination; none where there is no such destination. -/
def destSize (d : Nat) : Option Nat := if d ≤ 0xB then some 65536 else if d = 0x10 then some 524288 else none

/-- The header and the segment table are well formed. -/
def imageFormat (kind : Nat) (b : List Byte) : Bool :=
  let n := byteAt b 9
  let l := imageLen b
  word4 b 0 == 0x48584657 && imageVersion b != 0 && byteAt b 8 == kind && Nat.ble 1 n && Nat.ble n 32 &&
  byteAt b 10 == 0 && byteAt b 11 == 0 && Nat.ble (64 + 16 * n + 128) l && Nat.ble l b.length &&
  Nat.ble l (if kind = 1 then 1048576 else 131072) &&
  (List.range n).all fun i =>
    (destSize (word4 b (64 + 16 * i))).isSome && Nat.ble (word4 b (76 + 16 * i) + word4 b (72 + 16 * i)) l

/-- Every segment lies within its destination. -/
def imageBounds (b : List Byte) : Bool :=
  (imageSegments b).all fun s => match destSize s.dest with
    | some n => Nat.ble (s.at_ + s.data.length) n
    | none => false

/-- A sandbox image names only the sandbox engines, in its entries and its segments. -/
def Hub.sandboxOnly (h : Hub) (b : List Byte) : Bool :=
  (List.range 12).all (fun e => h.sandboxed e || imageEntry b e == 0xFFFFFFFF) &&
  (imageSegments b).all fun s => h.sandboxed s.dest

/-- The code of `FW_FAIL` for an image: 0 where it is accepted (R477). -/
def Hub.imageCheck (h : Hub) (kind : Nat) (b : List Byte) : Nat :=
  let l := imageLen b
  let slot := if kind = 1 then 0 else h.fw.keySlot
  let key := slice b (l - 128) 64
  if b.isEmpty then 1
  else if !imageFormat kind b then 2
  else if !imageBounds b || (kind == 2 && !h.sandboxOnly b) then 6
  else if sha256 key ≠ h.keyLive slot then 3
  else if !ecdsaVerify key (slice b (l - 64) 64) (sha256 (b.take (l - 64))) then 4
  else if imageVersion b < (if kind = 1 then h.fw.minVersion else h.fw.sbxMin) then 5
  else 0

/-- Where a segment's destination begins in memory. -/
def destAddr (d : Nat) : Nat := if h : d < 12 then tcmAddr ⟨d, h⟩ 0 else sramAddr 0

/-- The engines an image of a kind is for. -/
def Hub.forKind (h : Hub) (kind d : Nat) : Bool := d == 0x10 || h.sandboxed d == (kind == 2)

/-- The segments of an image written to the destinations that `p` selects. -/
def Hub.imageWrite (h : Hub) (b : List Byte) (p : Nat → Bool) : Hub :=
  ((imageSegments b).filter fun s => p s.dest).foldl (fun h s => h.memWrite (destAddr s.dest + s.at_) s.data) h

/-- Everything an image that fails has touched zeroed (R478). -/
def Hub.imageWipe (h : Hub) (kind : Nat) (b : List Byte) : Hub :=
  ((imageSegments b).filter fun s => h.forKind kind s.dest).foldl
    (fun h s => h.memZero (destAddr s.dest) ((destSize s.dest).getD 0)) h

/-- An accepted image in place, its engines released at their entries (R479 step 4, R481). -/
def Hub.imageRun (h : Hub) (kind : Nat) (b : List Byte) : Hub :=
  let h := h.imageWrite b (h.forKind kind)
  (List.finRange 12).foldl (fun h e =>
    if h.sandboxed e.val == (kind == 2) && imageEntry b e.val != 0xFFFFFFFF then h.engStart e (imageEntry b e.val) else h) h

/-- An image that is rejected: what it touched is zeroed once its segments have been written. -/
def Hub.imageFail (h : Hub) (kind code : Nat) (b : List Byte) : Hub :=
  if [3, 4, 5].contains code then h.imageWipe kind b else h

/-- No image accepted (R480). -/
def Hub.fwRejected (h : Hub) (code : Nat) : Hub :=
  ((h.put Obj.FW_STATE 4).put Obj.FW_FAIL code).event 0x44 Obj.FW_FAIL

/-- A vendor image accepted from a source. -/
def Hub.fwAccepted (h : Hub) (source : Nat) (b : List Byte) : Hub :=
  let h := { h with fw := { h.fw with image := b.take (imageLen b) } }
  (((h.imageRun 1 b).put Obj.FW_STATE 3).put Obj.FW_SOURCE source).put Obj.FW_VERSION (imageVersion b)

/-- Engines that are off while a vendor image is read show that they load; those it does not start are off again (log entry 93). -/
def Hub.engLoading (h : Hub) (on : Bool) : Hub :=
  (List.finRange 12).foldl (fun h (e : Engine) =>
    if h.sandboxed e.val = false ∧ h.get (Obj.ENG_STATE e.val) = b2n (!on) ∧ h.domState (4 + e.val) ≠ 2 then h.put (Obj.ENG_STATE e.val) (b2n on)
    else h) h

/-- The loader reads image A, then image B: QSPI_SCLK runs at 100 MHz, at 50 MHz on RC (R479, R502, R684). -/
def Hub.qspiReads (h : Hub) : Hub :=
  let mhz := if h.get (Obj.CD_SOURCE 3) = 2 then 50 else 100
  (h.emit (.qspiRead 0xEB 0 0 4 mhz)).emit (.qspiRead 0xEB 0x400000 0 4 mhz)

/-- The loader starts (R479): the QSPI images, or `FW_IMAGE`, with the minimum version in effect. -/
def Hub.fwStart (h : Hub) (from_ : Nat) : Hub :=
  let h := if from_ = 1 then h.qspiReads else h
  { (h.put Obj.FW_STATE 1).engLoading true with fw := { h.fw with loading := from_, minVersion := h.get Obj.FW_MIN_VERSION } }

/-- The images of a vendor load judged: from QSPI, the accepted image with the higher version, A where both are alike. -/
def Hub.fwJudge (h : Hub) (from_ : Nat) (a b : List Byte) : Hub :=
  if from_ = 2 then
    let img := h.oct Obj.FW_IMAGE
    let c := h.imageCheck 1 img
    if c = 0 then h.fwAccepted 3 img else (h.imageFail 1 c img).fwRejected c
  else
    let ca := h.imageCheck 1 a
    let cb := h.imageCheck 1 b
    if ca = 0 ∧ (cb ≠ 0 ∨ imageVersion b ≤ imageVersion a) then (h.imageFail 1 cb b).fwAccepted 1 a
    else if cb = 0 then (h.imageFail 1 ca a).fwAccepted 2 b
    else ((h.imageFail 1 ca a).imageFail 1 cb b).fwRejected cb

/-- The end of a vendor load. -/
def Hub.fwVerified (h : Hub) (a b : List Byte) : Hub :=
  ({ h with fw := { h.fw with loading := 0 } }.fwJudge h.fw.loading a b).engLoading false

/-- The end of a sandbox load (R481). -/
def Hub.sbxVerified (h : Hub) : Hub :=
  let h := { h with fw := { h.fw with sbx := false } }
  let img := h.oct Obj.SBX_IMAGE
  let c := h.imageCheck 2 img
  if c = 0 then (h.imageRun 2 img).put Obj.SBX_STATE 2
  else ((((h.imageFail 2 c img).put Obj.SBX_STATE 3).put Obj.FW_FAIL c).event 0x44 Obj.FW_FAIL)

/-- Meaning of FW_IMAGE_VERIFIED: verification begins, or ends. The QSPI images are operands. -/
def execFwImageVerified (sandbox done : Bool) (a b : List Byte) (s : State) : Host.Outcome State Fault Refusal :=
  s.run fun h =>
    if sandbox then (if h.fw.sbx && done then h.sbxVerified else h)
    else if h.fw.loading = 0 then h
    else if done then (h.fwVerified a b).startupStep else h.put Obj.FW_STATE 2

/-- A vendor image's load asked for: refused while one loads or runs (R479). -/
def Hub.fwLoad (h : Hub) : Nat × Hub := if [1, 2, 3].contains (h.get Obj.FW_STATE) then (rcBusy, h) else (rcOk, h.fwStart 2)

/-- Meaning of FW_LOAD_VENDOR. -/
def execFwLoadVendor (o : Origin) (s : State) : Host.Outcome State Fault Refusal :=
  s.run fun h => h.guarded o Obj.FW_LOAD_CMD 0x66776C64 Hub.fwLoad

/-- Sandbox engines halted, their TCMs zeroed, the load started (R481). -/
def Hub.sbxStart (h : Hub) : Hub :=
  let h := (List.finRange 12).foldl (fun h e =>
    if h.sandboxed e.val then
      (((h.tcmZero e).setEng e fun s => { s with asleep := false, stall := none, loaded := false }).put (Obj.ENG_FAULT_PC e.val) (h.engs[e]).pc.toNat).put
        (Obj.ENG_STATE e.val) 4
    else h) h
  { h.put Obj.SBX_STATE 1 with fw := { h.fw with sbx := true, keySlot := h.get Obj.SBX_KEY_SLOT, sbxMin := h.get Obj.FW_MIN_VERSION } }

/-- Meaning of FW_LOAD_SANDBOX. -/
def execFwLoadSandbox (o : Origin) (s : State) : Host.Outcome State Fault Refusal :=
  s.run fun h => h.guarded o Obj.FW_LOAD_CMD 0x7362786C fun h => (rcOk, h.sbxStart)

/-! ### Engine objects (R484, R486) -/

/-- The effect of `ENG_RUN`; an engine whose TCM holds no accepted code stays halted (R478). -/
def Hub.engRun (h : Hub) (e : Engine) (v : Nat) : Hub :=
  let h := h.put (Obj.ENG_RUN e.val) v
  if v = 0 then
    if h.engLive e.val then (h.put (Obj.ENG_FAULT_PC e.val) (h.engs[e]).pc.toNat).put (Obj.ENG_STATE e.val) 4 else h
  else if h.get (Obj.ENG_STATE e.val) = 4 ∧ (h.engs[e]).loaded then h.engShow e else h

/-- Meaning of ENG_RUN_WRITE. -/
def execEngRunWrite (o : Origin) (e : Engine) (v : W32) (s : State) : Host.Outcome State Fault Refusal :=
  s.run fun h => h.guarded o (Obj.ENG_RUN e.val) v.toNat fun h => (rcOk, h.engRun e v.toNat)

/-- The watchdog restarted with the length that `ENG_WDOG` has now. -/
def Hub.engKick (h : Hub) (e : Engine) : Hub :=
  let n := h.get (Obj.ENG_WDOG e.val)
  if n = 0 then h.disarm (.wdog e) else h.arm (.wdog e) (us n)

/-- Meaning of ENG_KICK. -/
def execEngKick (o : Origin) (e : Engine) (v : W32) (s : State) : Host.Outcome State Fault Refusal :=
  s.run fun h => h.guarded o (Obj.ENG_KICK e.val) v.toNat fun h => (rcOk, h.engKick e)

/-- An engine restarted: its TCM segments again where the image came from QSPI; otherwise it stays halted until the next load (R484). -/
def Hub.engReload (h : Hub) (e : Engine) : Hub :=
  let img := h.fw.image
  let src := h.get Obj.FW_SOURCE
  if h.get Obj.FW_STATE = 3 ∧ (src = 1 ∨ src = 2) ∧ h.sandboxed e.val = false ∧ imageEntry img e.val ≠ 0xFFFFFFFF then
    ((h.imageWrite img (fun d => d == e.val)).disarm (.wdog e)).engStart e (imageEntry img e.val)
  else
    let h := h.setEng e fun s => { s with asleep := false, stall := none, loaded := false }
    if h.engLive e.val then (h.put (Obj.ENG_FAULT_PC e.val) (h.engs[e]).pc.toNat).put (Obj.ENG_STATE e.val) 4 else h

/-- Meaning of ENG_RESET. -/
def execEngReset (o : Origin) (e : Engine) (v : W32) (s : State) : Host.Outcome State Fault Refusal :=
  s.run fun h => h.guarded o (Obj.ENG_RESET e.val) v.toNat fun h => (rcOk, if v.toNat = 1 then h.engReload e else h)

/-- Meaning of ENGINE_WATCHDOG_EXPIRY. -/
def execEngineWatchdogExpiry (e : Engine) (s : State) : Host.Outcome State Fault Refusal :=
  s.run fun h =>
    if h.due (.wdog e) && h.engLive e.val then (h.bump (Obj.WDOG_EXPIRIES e.val)).engFault e 0x100 else h

/-! ### Cell queues (R471 to R475) -/

/-- Meaning of Q_SW_WRITE. -/
def execQSwWrite (o : Origin) (e : Engine) (q : Fin 8) (v : W32) (s : State) : Host.Outcome State Fault Refusal :=
  s.run fun h => h.guarded o (Obj.Q_SW e.val q.val) v.toNat fun h => h.plainWrite o (Obj.Q_SW e.val q.val) v.toNat

/-- A transmit queue has slots to send. -/
def Hub.txReady (h : Hub) (n : Nat) : Bool :=
  let e := n / 8
  let q := n % 8
  h.domOn (4 + e) && bitOf (h.get (Obj.Q_RING e q)) 20 && field (h.get (Obj.Q_RING e q)) 19 16 != 0 && h.get (Obj.Q_HW e q) != h.get (Obj.Q_SW e q)

/-- A slot of a transmit queue taken: its cell is presented at ingress 13, or it is discarded. -/
def Hub.txTake (h : Hub) (n : Nat) : Hub :=
  let e : Engine := ⟨n / 8 % 12, Nat.mod_lt _ (by decide)⟩
  let q := n % 8
  let hw := h.get (Obj.Q_HW e.val q)
  let at_ := h.get (Obj.Q_RING e.val q) % 65536 + 144 * (hw % h.queueSlots e.val q)
  let slot := h.memRead (tcmAddr e at_) 136
  let len := byteAt slot 4
  let chan := e.val + 16 * q
  let h := (h.put (Obj.Q_HW e.val q) ((hw + 1) % 65536))
  let h := { h with fw := { h.fw with txNext := (n + 1) % 96 } }
  match firstBelow (fun t => h.tunUsed t && h.hasEnd t 13 && h.get (Obj.TUN_LOCAL t) % 128 == chan) 256 with
  | some t =>
    if 1 ≤ len ∧ len ≤ 128 then
      h.present ⟨13, chan, mkHdr (h.get (Obj.TUN_CLASS t)) (hdrFirst slot) (hdrLast slot) false len, slice slot 8 128, false, false⟩
    else h.bump (Obj.Q_BAD e.val q)
  | none => h.bump (Obj.Q_BAD e.val q)

/-- Meaning of ENGINE_QUEUE_TRANSMIT: all engines' queues in turn, one cell each; a refused cell is held at the ingress (R251). -/
def execEngineQueueTransmit (s : State) : Host.Outcome State Fault Refusal :=
  s.run fun h =>
    if h.core.arrivals.any (fun a => a.ing == 13) then h.ingressNext 13
    else match firstBelow (fun j => h.txReady ((h.fw.txNext + j) % 96)) 96 with
      | some j => (h.txTake ((h.fw.txNext + j) % 96)).ingressNext 13
      | none => h

/-- The tunnels of an engine queue: no other tunnel names it, and a sandbox engine's are not SC6 or SC7 (R471). -/
def Hub.engTunOk (h : Hub) (t class_ local_ : Nat) (at13 : Bool) : Bool :=
  !at13 || (Nat.ble (local_ % 16) 11 &&
    !(h.sandboxed (local_ % 16) && Nat.ble 6 class_) &&
    (List.range 256).all fun u => u == t || !(h.tunUsed u && h.hasEnd u 13 && h.get (Obj.TUN_LOCAL u) % 128 == local_ % 128))

/-! ### Root ports owned by the engines (R469, R470) -/

/-- Meaning of ROOT_PORT_MSI_WRITE: a request from a device below an engine-owned root port. -/
def execRootPortMsiWrite (port : Fin 2) (write : Bool) (addr : W64) (req tag : W16) (tc : Fin 8) (s : State) :
    Host.Outcome State Fault Refusal :=
  s.run fun h =>
    if !h.engineOwned port then h
    else if write then
      let a := addr.toNat
      if a % 4 = 0 ∧ 0xFEE00000 + 4 * 128 ≤ a ∧ a ≤ 0xFEE00000 + 4 * 191 then h.icSet ((a - 0xFEE00000) / 4) else h
    else h.emit (.cpl port req tag tc 1 (h.ecrc port))

end Sys2Proof.Machine
end

