-- ==== Sys2Proof/Machine/Sm.lean ====
section
/-! DEFINITION. The safety manager (chapter 22): causes, the two reaction paths, the end of a safe stop, the self-test, safety
sessions and the release of frozen origins. -/

namespace Sys2Proof.Machine

/-! ### Causes (R625, R638) -/

/-- A change of the safety manager's own state. -/
def Hub.setSm (h : Hub) (f : Safety → Safety) : Hub := { h with safety := f h.safety }

/-- The condition-type causes of R638. -/
def conditionCauses : List Nat := [2, 3, 8, 9, 10, 11, 12, 13, 16]

/-- The condition of a condition-type cause holds. -/
def Hub.condHolds (h : Hub) (c : Nat) : Bool :=
  match c with
  | 2 => h.get Obj.CLK_MON_STATUS != 0
  | 3 => !h.safety.railsOut.isEmpty || h.safety.unsettled
  | 8 => h.safety.lostLinks.any fun p => !h.linkUp p && h.sc7On p
  | 9 => (List.range 2).any fun p => h.get (Obj.KEY_STATE p) == 2 && h.encrypts p 7
  | 10 => h.safety.powerFaults.any fun d => h.domState d == 3
  | 11 => h.get Obj.FA_STATE == 5 || h.get Obj.FB_STATE == 5 || h.feeds.loss
  | 12 => h.flag Obj.SAFE_IN_STATE
  | 13 => Nat.ble 8 h.safety.readbackMiss
  | 16 => h.get Obj.ENTROPY_STATE == 2
  | _ => false

/-- The bits of a cause set in `SAFE_ACTIVE` and `SAFE_LATCHED`. -/
def Hub.causeBits (h : Hub) (c : Nat) : Hub :=
  let h := h.put Obj.SAFE_LATCHED (setBit (h.get Obj.SAFE_LATCHED) c)
  if conditionCauses.contains c && !h.condHolds c then h else h.put Obj.SAFE_ACTIVE (setBit (h.get Obj.SAFE_ACTIVE) c)

/-- The bits of condition-type causes that are no longer present cleared in `SAFE_ACTIVE`. -/
def Hub.causesPass (h : Hub) : Hub :=
  conditionCauses.foldl (fun h c =>
    if bitOf (h.get Obj.SAFE_ACTIVE) c && !h.condHolds c then h.put Obj.SAFE_ACTIVE (clrBit (h.get Obj.SAFE_ACTIVE) c) else h) h

/-- A cause acts as a warning (R625, R626, R635, R636): its event and interrupt source, without the safe state. -/
def Hub.isWarning (h : Hub) (c detail : Nat) : Bool :=
  c == 16 || (c == 1 && Nat.ble 4 detail) || ((c == 8 || c == 9) && h.get Obj.SAFE_LINK_REACTION == 1) ||
    (c == 15 && !h.flag Obj.SAFE_REMOTE_SPREAD)

/-- The interrupt source of a cause (R651). -/
def causeSource (c : Nat) : Option Nat :=
  match c with
  | 1 => some 116 | 3 => some 117 | 10 => some 117 | 6 => some 119 | 7 => some 120 | 15 => some 121
  | 8 => some 122 | 9 => some 122 | 13 => some 123 | 14 => some 124 | _ => none

/-! ### The safe state (R622, R632, R634, R637) -/

/-- SAFE_OUT set to a level; its readback comparison is suspended for 5 µs (R629). -/
def Hub.setSafeOut (h : Hub) (asserted : Bool) : Hub :=
  if h.safety.outIntent = asserted then h.put Obj.SAFE_OUT_STATE (b2n asserted)
  else ((h.setSm fun s => { s with outIntent := asserted, readbackMiss := 0, readbackAfter := h.now + us 5 }).put
    Obj.SAFE_OUT_STATE (b2n asserted)).emit (.safeOut asserted)

/-- SAFE_OUT released, safe stop requested of the motion engine, the AXL domain woken, the notices presented. -/
def Hub.stopAll (h : Hub) : Hub :=
  let h := h.setSafeOut true
  let h := { h with mot := { h.mot with request := h.mot.request || !h.mot.safe } }
  let h := if h.domState 24 = 1 ∨ h.domState 24 = 4 then h.startWake 24 6 0 else h
  h.noticesOnce

/-- An episode begins. -/
def Hub.episodeStart (h : Hub) : Hub :=
  (h.setSm fun s => { s with testedSince := false, setClean := false }).bump Obj.SAFE_STOPS

/-- Entry to the safe state. -/
def Hub.enterSafe (h : Hub) : Hub := (h.put Obj.SAFE_STATE 2).event 0x63 Obj.SAFE_CAUSE_FIRST

/-- The first cause recorded (R632 step 2). -/
def Hub.firstCause (h : Hub) (r : Report) : Hub :=
  if h.get Obj.SAFE_CAUSE_FIRST = 0 then
    (h.put Obj.SAFE_CAUSE_FIRST (r.code + 256 * r.detail)).put Obj.SAFE_CAUSE_TIME r.time
  else h

/-- What SM does with an engine that stalls: `ENG_RUN` = 0 (R626). -/
def Hub.stallEngine (h : Hub) (r : Report) : Hub :=
  if r.code = 1 ∧ 4 ≤ r.detail then
    if he : r.detail - 4 < 12 then h.engRun ⟨r.detail - 4, he⟩ 0 else h
  else h

/-- A cause taken by SM (R632, R635 to R637, R698). -/
def Hub.takeCause (h : Hub) (r : Report) : Hub :=
  let h := if r.code = 8 then h.setSm fun s => { s with lostLinks := r.detail :: s.lostLinks.filter (· != r.detail) } else h
  if h.isWarning r.code r.detail then
    let h := h.stallEngine r
    let h := h.put Obj.SAFE_LATCHED (setBit (h.get Obj.SAFE_LATCHED) r.code)
    let h := if conditionCauses.contains r.code && h.condHolds r.code then
        h.put Obj.SAFE_ACTIVE (setBit (h.get Obj.SAFE_ACTIVE) r.code) else h
    match causeSource r.code with
    | some s => h.icSet s
    | none => h
  else
    let h := h.causeBits r.code
    if h.get Obj.SAFE_STATE = 2 ∨ h.get Obj.SAFE_STATE = 3 ∨ h.safety.episode then
      (h.firstCause r).setSm fun s => if s.rerun then { s with afterReset := s.afterReset ++ [r] } else s
    else if h.get Obj.SAFE_STATE = 0 then
      if conditionCauses.contains r.code then h
      else
        let h := ((h.firstCause r).episodeStart.setSm fun s => { s with episode := true }).stopAll
        if h.safety.startupPassed then (h.setSm fun s => { s with episode := false }).enterSafe else h
    else (h.firstCause r).episodeStart.enterSafe.stopAll

/-- SM runs: it is not in its restart and its clock is not held (R512, R633). -/
def Hub.smRuns (h : Hub) : Bool := !h.safety.smRestarting && !h.clk.held.contains 1

/-- Meaning of SM_CAUSE_TAKEN: the oldest report. -/
def execSmCauseTaken (s : State) : Host.Outcome State Fault Refusal :=
  s.run fun h =>
    if !h.smRuns then h
    else match h.safety.reports with
      | r :: rest => (h.setSm fun x => { x with reports := rest }).takeCause r
      | [] => h

/-! ### The hardware path (R633) -/

/-- SM is reset by the hardware path for its own faults. -/
def resetsSm (c detail : Nat) : Bool := c == 4 || c == 5 || (c == 6 && (detail == 1 || detail == 2)) || (c == 3 && detail == 1)

/-- The hardware path takes the cause. -/
def takesHwPath (c detail : Nat) : Bool := resetsSm c detail || c == 12 || c == 2

/-- The hardware path: SAFE_OUT and safe stop at once; SM takes the cause later, after its restart for its own faults. -/
def Hub.hwTrip (h : Hub) (c detail : Nat) : Hub :=
  let h := (h.bump Obj.HW_PATH_TRIPS).setSm fun s => { s with hwTaken := true }
  let h := h.report c detail
  let h := if h.get Obj.SAFE_STATE = 0 ∧ resetsSm c detail = false then h.setSafeOut true else h.stopAll
  if resetsSm c detail && !h.safety.smRestarting then (h.setSm fun s => { s with smRestarting := true }).arm .smRestart (ms 1) else h

/-- SM reads a cause recorded by the hardware path after its restart: `SAFE_STATE` = 2 whatever the cause's type (R633). -/
def Hub.restartCause (h : Hub) (r : Report) : Hub :=
  if resetsSm r.code r.detail && h.get Obj.SAFE_STATE == 0 && !h.safety.episode then
    let h := ((h.causeBits r.code).firstCause r).episodeStart
    if h.safety.startupPassed then h.enterSafe else h.setSm fun s => { s with episode := true }
  else h.takeCause r

/-- Meaning of SM_RESTART: every cause held meanwhile is taken. -/
def execSmRestart (s : State) : Host.Outcome State Fault Refusal :=
  s.run fun h =>
    if h.due .smRestart && h.safety.smRestarting then
      let rs := h.safety.reports
      let h := (h.disarm .smRestart).setSm fun x => { x with smRestarting := false, reports := [] }
      rs.foldl Hub.restartCause h
    else h

/-! ### Diagnostics (R625 to R630) -/

/-- Meaning of STALL_DETECTED. -/
def execStallDetected (d : Domain) (s : State) : Host.Outcome State Fault Refusal :=
  s.run fun h =>
    if 2 ≤ d.val ∧ d.val ≤ 15 ∧ h.domOn d.val then (h.bump Obj.STALLS).report 1 d.val else h

/-- The lowest and highest voltage of a rail's window, in µV (R627, rails in its order). -/
def Hub.railWindow (h : Hub) (r : Nat) : Nat × Nat :=
  let mv := fun l => levelMv l * 1000
  match r with
  | 0 =>
    if h.get Obj.SIM_MODE = 1 then
      let ack := h.get Obj.VCORE_ACK
      let low := match h.sim.req with
        | some { kind := .write v, .. } => min ack v
        | _ => ack
      (1000 * low - 25000, 835000)
    else
      let now := mv h.sim.vsel
      let was := if h.now ≤ h.sim.vselAt + ms 1 then mv h.sim.vselWas else now
      (min now was - 25000, max now was + 25000)
  | 1 | 2 | 3 | 4 | 5 => (712500, 787500)
  | 6 | 7 | 8 | 9 => (1140000, 1260000)
  | 10 => (1620000, 1980000)
  | _ => (2970000, 3630000)

/-- A voltage lies within the window of a rail. -/
def Hub.railWithin (h : Hub) (r uv : Nat) : Bool := Nat.ble (h.railWindow r).1 uv && Nat.ble uv (h.railWindow r).2

/-- A rail leaves its window (R625 cause 3, R633). -/
def Hub.railOut (h : Hub) (r : Nat) : Hub :=
  let h := (h.bump Obj.RAIL_FAULTS).setSm fun x => { x with railsOut := r :: x.railsOut }
  if r = 1 then h.hwTrip 3 1 else h.report 3 r

/-- Meaning of LOCKSTEP_MISMATCH. -/
def execLockstepMismatch (s : State) : Host.Outcome State Fault Refusal := s.run fun h => h.hwTrip 4 0

/-- Meaning of SM_WATCHDOG_EXPIRY; SM that restarts does not kick and its watchdog does not run. -/
def execSmWatchdogExpiry (s : State) : Host.Outcome State Fault Refusal :=
  s.run fun h => if h.safety.smRestarting then h else h.hwTrip 5 0

/-- Meaning of SAFE_IN_ASSERT: SAFE_IN has read high for 1 µs. -/
def execSafeInAssert (s : State) : Host.Outcome State Fault Refusal :=
  s.run fun h => if h.flag Obj.SAFE_IN_STATE then h else (h.put Obj.SAFE_IN_STATE 1).hwTrip 12 0

/-- The hardware path by its cause: a cause whose condition the hub holds takes it once (R625, R633). -/
def Hub.hwCause (h : Hub) (c detail : Nat) : Hub :=
  if !takesHwPath c detail then h
  else match c with
    | 12 => if h.flag Obj.SAFE_IN_STATE then h else (h.put Obj.SAFE_IN_STATE 1).hwTrip 12 0
    | 3 => if h.safety.railsOut.contains 1 then h else h.railOut 1
    | 2 => if h.clk.failed then h.hwTrip 2 detail else h
    | 6 => h.hwTrip 6 detail
    | _ => if h.safety.smRestarting then h else h.hwTrip c 0

/-- Meaning of HARDWARE_PATH_TRIP. -/
def execHardwarePathTrip (code : Fin 17) (detail : Byte) (s : State) : Host.Outcome State Fault Refusal :=
  s.run fun h => h.hwCause code.val detail.toNat

/-! ### Start-up (R641, R698) and the end of a safe stop (R638) -/

/-- SAFE_OUT driven low, `SAFE_STATE` 1, motion free to run. -/
def Hub.leaveSafe (h : Hub) : Hub := ((h.setSafeOut false).put Obj.SAFE_STATE 1).motionResume

/-- The change to state 1 at start-up, as soon as nothing delays it. -/
def Hub.startupCheck (h : Hub) : Hub :=
  if h.get Obj.SAFE_STATE = 0 ∧ h.safety.startupPassed ∧ h.safety.episode = false ∧ !(conditionCauses.any h.condHolds) then
    h.causesPass.leaveSafe
  else h

/-- Meaning of RAIL_BACK_IN_WINDOW: the rail is at `uv` µV. -/
def execRailBackInWindow (r : Fin 12) (uv : W32) (s : State) : Host.Outcome State Fault Refusal :=
  s.run fun h => if !h.railWithin r.val uv.toNat then h else ((h.setSm fun x => { x with railsOut := x.railsOut.filter (· != r.val) }).causesPass).startupCheck

/-- Meaning of SAFE_IN_DEASSERT: SAFE_IN has read low for 1 ms. -/
def execSafeInDeassert (s : State) : Host.Outcome State Fault Refusal :=
  s.run fun h => ((h.put Obj.SAFE_IN_STATE 0).causesPass).startupCheck

/-- Meaning of SAFE_OUT_READBACK. -/
def execSafeOutReadback (ball : Bool) (s : State) : Host.Outcome State Fault Refusal :=
  s.run fun h =>
    let h := h.put Obj.SAFE_OUT_STATE (b2n ball)
    if !h.smRuns || Nat.ble (h.now + 1) h.safety.readbackAfter then h
    else if ball = h.safety.outIntent then (h.setSm fun x => { x with readbackMiss := 0 }).causesPass.startupCheck
    else
      let n := h.safety.readbackMiss + 1
      let h := h.setSm fun x => { x with readbackMiss := n }
      if n = 8 then h.report 13 0 else h

/-- A failed test recorded (R641). -/
def Hub.testFailed (h : Hub) (test unit : Nat) (startup : Bool) : Hub :=
  ((h.put Obj.SELFTEST_FAIL (test + 256 * unit + 65536 * b2n startup)).bump Obj.SELFTEST_FAILS).event 0x68 Obj.SELFTEST_FAIL

/-- Test 9: the signature of the values in effect differs from the one recorded (R644). -/
def Hub.signatureBad (h : Hub) : Bool :=
  h.signature != (h.mram.signature.getD Config.factorySignature).toNat

/-- The causes that a reset clears, being of event type (R638). -/
def eventCauses : List Nat := [1, 4, 5, 6, 7, 14, 15]

/-- The end of a safe stop after an accepted reset (R638). -/
def Hub.endStop (h : Hub) : Hub :=
  let h := ((h.put Obj.SAFE_CAUSE_FIRST 0).put Obj.SAFE_CAUSE_TIME 0).put Obj.SAFE_LATCHED 0
  let h := (h.put Obj.SAFE_ACTIVE (eventCauses.foldl clrBit (h.get Obj.SAFE_ACTIVE))).causesPass
  let h := h.setSm fun x => { x with
    hwTaken := false
    episode := false
    noticed := false
    noticeFrom := []
    lostLinks := x.lostLinks.filter fun p => !h.linkUp p && h.sc7On p
    eccTimes := []
    afterReset := [] }
  h.leaveSafe.event 0x64 Obj.SAFE_STATE

/-- The start-up self-test ends, at start-up or after a reset in state 3. The failing test and its unit are the operand; test 9 is
the hub's own. -/
def Hub.startupTest (h : Hub) (fail : Option (Fin 9 × Byte)) : Hub :=
  let fail := match fail with
    | some (t, u) => some (t.val + 1, u.toNat)
    | none => if h.signatureBad then some (9, 0) else none
  let h := { h.bump Obj.SELFTEST_RUNS with boot := { h.boot with tested := true } }
  let h := h.startupStep
  let again := h.safety.rerun
  let later := h.safety.afterReset
  let h := (h.setSm fun x => { x with rerun := false, afterReset := [] }).disarm .retest
  match fail with
  | some (t, u) => (h.testFailed t u true).put Obj.SAFE_STATE 3
  | none =>
    let h := ({ h with safety := { h.safety with startupPassed := true } }).put Obj.SELFTEST_LAST h.time32
    if again then later.foldl Hub.takeCause h.endStop
    else
      let h := (conditionCauses.filter h.condHolds).foldl Hub.causeBits h
      if h.safety.episode then (h.setSm fun x => { x with episode := false }).enterSafe else h.startupCheck

/-- Meaning of STARTUP_SELFTEST_COMPLETE. -/
def execStartupSelftestComplete (fail : Option (Fin 9 × Byte)) (s : State) : Host.Outcome State Fault Refusal :=
  s.run fun h =>
    if h.safety.smRestarting then h
    else if (h.get Obj.SAFE_STATE = 0 ∧ h.safety.startupPassed = false) ∨ (h.safety.rerun ∧ h.due .retest) then h.startupTest fail
    else h

/-- The end of a test of the periodic set; after the ninth the set is complete. -/
def Hub.testDone (h : Hub) : Hub :=
  if h.safety.nextTest < 9 then h.setSm fun x => { x with nextTest := x.nextTest + 1 }
  else
    let h := (h.bump Obj.SELFTEST_RUNS).put Obj.SELFTEST_LAST h.time32
    h.setSm fun x => { x with nextTest := 1, testedSince := x.testedSince || x.setClean, setClean := true }

/-- Meaning of SELFTEST_SLICE: a slice of the test whose turn it is passes or fails; `last` marks the last slice of the test. -/
def execSelftestSlice (last : Bool) (fail : Option Byte) (s : State) : Host.Outcome State Fault Refusal :=
  s.run fun h =>
    if !h.smRuns || h.get Obj.SAFE_STATE == 0 then h
    else
      let t := h.safety.nextTest
      let fail := match fail with
        | some u => some u.toNat
        | none => if t = 9 ∧ last ∧ h.signatureBad then some 0 else none
      let h := match fail with
        | some u => ((h.testFailed t u false).report 14 t).setSm fun x => { x with setClean := false }
        | none => h
      if last then h.testDone else h

/-- A reset is accepted: with `SAFE_STATE` = 3 the start-up self-test runs first; a reset accepted while it runs starts it again. -/
def Hub.resetAccepted (h : Hub) : Hub :=
  if h.get Obj.SAFE_STATE = 3 then (h.setSm fun x => { x with rerun := true, afterReset := [] }).arm .retest (ms 3)
  else h.endStop

/-- The effect of `SAFE_RESET` = 1 (R638). -/
def Hub.safeReset (h : Hub) : Nat × Hub :=
  let h := h.causesPass
  if h.get Obj.SAFE_STATE ≤ 1 then (rcOk, h)
  else if conditionCauses.all (fun c => !bitOf (h.get Obj.SAFE_ACTIVE) c) && !h.flag Obj.SAFE_IN_STATE && h.safety.testedSince &&
      h.smRuns then
    (rcOk, h.resetAccepted)
  else (rcOutOfRange, h.bump Obj.RESETS_REFUSED)

/-- Meaning of SAFE_RESET. -/
def execSafeReset (o : Origin) (v : W32) (s : State) : Host.Outcome State Fault Refusal :=
  s.run fun h => h.guarded o Obj.SAFE_RESET v.toNat Hub.safeReset

/-! ### Safety sessions (R642, R643) -/

/-- The slot meets R96 for its session. -/
def Hub.slotMac (h : Hub) (k : Nat) : Bool := h.keyOk k useMac && bitOf (h.get Obj.HOP_SLOT_MASK) k

/-- The effect of `SS_OPEN` = 1. -/
def Hub.ssOpen (h : Hub) (o : Origin) : Nat × Hub :=
  match o with
  | .hop k =>
    let open_ := h.flag Obj.SS_STATE
    let mine := open_ && h.get Obj.SS_SLOT == k.val
    if mine then (rcOk, h.sessionRestart)
    else if open_ then (rcBusy, h.bump Obj.SS_REFUSED)
    else if bitOf (h.get Obj.SS_SLOT_MASK) k.val && h.slotMac k.val then
      let h := h.setSm fun x => { x with sessionLimit := h.get Obj.SS_TIMEOUT }
      (rcOk, ((((h.put Obj.SS_STATE 1).put Obj.SS_SLOT k.val).bump Obj.SS_OPENS).event 0x67 Obj.SS_STATE).sessionRestart)
    else (rcNotInSession, h.bump Obj.SS_REFUSED)
  | _ => (rcNotInSession, h.bump Obj.SS_REFUSED)

/-- Meaning of SS_OPEN. -/
def execSsOpen (o : Origin) (v : W32) (s : State) : Host.Outcome State Fault Refusal :=
  s.run fun h => h.guarded o Obj.SS_OPEN v.toNat fun h => h.ssOpen o

/-- The effect of `SS_CLOSE` = 1. -/
def Hub.ssClose (h : Hub) (o : Origin) : Nat × Hub :=
  match o with
  | .hop k => if h.flag Obj.SS_STATE && h.get Obj.SS_SLOT == k.val then (rcOk, h.endSession) else (rcNotInSession, h)
  | _ => (rcNotInSession, h)

/-- Meaning of SS_CLOSE. -/
def execSsClose (o : Origin) (v : W32) (s : State) : Host.Outcome State Fault Refusal :=
  s.run fun h => h.guarded o Obj.SS_CLOSE v.toNat fun h => h.ssClose o

/-- Meaning of SS_TIMEOUT. -/
def execSsTimeout (s : State) : Host.Outcome State Fault Refusal :=
  s.run fun h => if h.due .sessionTimeout then h.endSession else h

/-- A session whose slot no longer meets R96 ends (R643). -/
def Hub.sessionCheck (h : Hub) : Hub :=
  if h.flag Obj.SS_STATE && !h.slotMac (h.get Obj.SS_SLOT) then h.endSession else h

/-! ### Release of frozen origins (R647) -/

/-- A release counted and raised. -/
def Hub.released (h : Hub) : Hub := (h.bump Obj.RELEASES).event 0x66 Obj.FREEZE_LAST

/-- The release of one origin by its code; one that is not frozen changes nothing. -/
def Hub.releaseOne (h : Hub) (c : Nat) : Hub :=
  if c ≤ 15 then
    if bitOf (h.get Obj.FREEZE_LOCAL) c then
      let h := h.put Obj.FREEZE_LOCAL (clrBit (h.get Obj.FREEZE_LOCAL) c)
      let h := if he : c - 2 < 12 then (if 2 ≤ c ∧ h.get (Obj.ENG_STATE (c - 2)) = 6 then h.engShow ⟨c - 2, he⟩ else h) else h
      h.released
    else h
  else if c ≤ 79 then
    if bitOf (h.get Obj.FREEZE_HOP) (c - 16) then (h.put Obj.FREEZE_HOP (clrBit (h.get Obj.FREEZE_HOP) (c - 16))).released else h
  else if 0x80 ≤ c ∧ c ≤ 0x87 then
    if h.get (Obj.REMOTE_UNIT_ID (c - 0x80)) = 0 then h
    else (((h.put (Obj.REMOTE_UNIT_ID (c - 0x80)) 0).put (Obj.REMOTE_KIND (c - 0x80)) 0).put Obj.FREEZE_REMOTE_FULL 0).released
  else h

/-- The effect of `FREEZE_RELEASE`. -/
def Hub.freezeRelease (h : Hub) (v : Nat) : Hub :=
  if v = 0xFF then
    ((List.range 80 ++ (List.range 8).map (0x80 + ·)).foldl Hub.releaseOne h).put Obj.FREEZE_REMOTE_FULL 0
  else h.releaseOne v

/-- Meaning of FREEZE_RELEASE. -/
def execFreezeRelease (o : Origin) (v : W32) (s : State) : Host.Outcome State Fault Refusal :=
  s.run fun h => h.guarded o Obj.FREEZE_RELEASE v.toNat fun h => (rcOk, h.freezeRelease (v.toNat % 256))

end Sys2Proof.Machine
end

