-- ==== Sys2Proof/Machine/Caddy.lean ====
section
/-! DEFINITION. The Caddy: staging, commit, invalidation and persistence of keys, masking, integrity and the DRBG (chapter 21). -/

namespace Sys2Proof.Machine

/-! ### Slots -/

/-- A change of a slot. -/
def Hub.setKey (h : Hub) (k : KeySlot) (f : KeySt → KeySt) : Hub :=
  { h with caddy := { h.caddy with slots := h.caddy.slots.set k (f h.caddy.slots[k]) } }

/-- A bit of `CADDY_ATTN` set. -/
def Hub.caddyAttn (h : Hub) (b : Nat) : Hub := h.put Obj.CADDY_ATTN (setBit (h.get Obj.CADDY_ATTN) b)

/-- `CADDY_PHASE` (R600). -/
def Hub.caddyPhase (h : Hub) : Nat :=
  if h.safety.outIntent || h.get Obj.FW_STATE == 4 || (List.range 12).any (fun e => h.get (Obj.ENG_STATE e) == 5) then 3
  else if h.get (Obj.TK_TEST_MODE 0) != 0 || h.get (Obj.TK_TEST_MODE 1) != 0 then 2
  else if h.caddy.started then 1 else 0

/-- Output blocks of the CTR_DRBG with AES-256, and the counter block after them (NIST SP 800-90A, R602, log entry 13). -/
def drbgBlocks (key : List Byte) : Nat → List Byte → List Byte × List Byte
  | 0, v => ([], v)
  | n + 1, v =>
    let v := toBE 16 ((ofBE v + 1) % 2 ^ 128)
    let (out, last) := drbgBlocks key n v
    (aes256 key v ++ out, last)

/-- The update of the DRBG with 48 bytes. -/
def drbgUpdate (key v data : List Byte) : List Byte × List Byte :=
  let t := xorBytes (drbgBlocks key 3 v).1 data
  (t.take 32, t.drop 32)

/-- The DRBG seeded or reseeded from the entropy source: 384 bits, a free value (R602). -/
def Hub.drbgReseed (h : Hub) : Hub :=
  let (key, v) := h.caddy.drbg.getD (List.replicate 32 0, List.replicate 16 0)
  { h.used with caddy := { h.caddy with drbg := some (drbgUpdate key v (toBE 48 (h.free 384))) } }

/-- A random word of 256 bits from the DRBG, which is seeded at its first use (R602). -/
def Hub.random (h : Hub) : List Byte × Hub :=
  let h := if h.caddy.drbg.isSome then h else h.drbgReseed
  match h.caddy.drbg with
  | none => ([], h)
  | some (key, v) =>
    let (out, v) := drbgBlocks key 2 v
    (out, { h with caddy := { h.caddy with drbg := some (drbgUpdate key v (List.replicate 48 0)) } })

/-- A re-mask of a slot: a random word XORed into both shares; none while the entropy tests fail (R599, R602). -/
def Hub.remask (h : Hub) (k : KeySlot) : Hub :=
  if h.get Obj.ENTROPY_STATE = 2 then h
  else
    let (r, h) := h.random
    (h.setKey k fun s => { s with mask := xorBytes s.mask r, shadowMask := xorBytes s.shadowMask r }).bump Obj.REMASKS

/-- A write to a slot re-masks it in the normal phase (R600). -/
def Hub.keyWritten (h : Hub) (k : KeySlot) : Hub := if h.caddyPhase = 1 then h.remask k else h

/-! ### Staging (R606, R607) -/

/-- The longest value of a DOMAIN object (R55, R487). -/
def domainLimit (key : Nat) : Nat := if key = Obj.FW_IMAGE then 1048576 else if key = Obj.SBX_IMAGE then 131072 else 16777216

/-- Bytes of the expected length come from outside as an OCTETS write: the checks before its action (R59, R66, R74, R603). -/
def Hub.octGuardedR (h : Hub) (o : Origin) (key : Nat) (data : List Byte) (act : Hub → Nat × Hub) : Nat × Hub :=
  if h.frozen o then (rcFrozen, h)
  else if (h.origin o).held.isSome then (rcPartial64, h.setOrigin o { h.origin o with held := none })
  else if isCaddyKey key && (rowOf key).isSome && !h.caddyRights o then (rcFrozen, h.freeze o 5)
  else match rowOf key with
    | none => (rcNoObject, h)
    | some r =>
      if r.acc == .ro || r.acc == .rc then (rcReadOnly, h)
      else if r.safety && !h.safetyOrigin o then (rcNotInSession, h)
      else if r.ty == .octets && Nat.ble (r.n + 1) data.length then (rcOutOfRange, h)
      else if r.ty == .domain && Nat.ble (domainLimit key + 1) data.length then (rcOutOfRange, h)
      else act h

/-- The same, with the result reported. -/
def Hub.octGuarded (h : Hub) (o : Origin) (key : Nat) (data : List Byte) (act : Hub → Nat × Hub) : Hub :=
  let (c, h) := h.octGuardedR o key data act
  h.ret o c

/-- The attributes a staging holds for its commit: VALID, the USE bits, PERSIST and ADMIN of `KEY_STAGE_CFG`, LEVEL and PARENT. -/
def stagedAttr (cfg level parent : Nat) : Nat :=
  1 + field cfg 11 8 * 2 ^ 3 + level % 8 * 2 ^ 7 + parent % 64 * 2 ^ 10 + field cfg 12 12 * 2 ^ 16 + field cfg 13 13 * 2 ^ 17

/-- The method of `KEY_STAGE_CFG`. -/
def Hub.keyMethod (h : Hub) (k : KeySlot) : Nat := field (h.get (Obj.KEY_STAGE_CFG k.val)) 7 6

/-- A staging completed. -/
def Hub.keyStaged (h : Hub) (o : Origin) (k : KeySlot) (v : List Byte) (level parent : Nat) : Hub :=
  let attr := stagedAttr (h.get (Obj.KEY_STAGE_CFG k.val)) level parent
  let h := (h.setKey k fun s => { s with shadow := some ⟨v, attr, o, kcvOf v⟩ }).keyWritten k
  let h := h.put (Obj.KEY_ATTR k.val) (clrBit (setBit (h.get (Obj.KEY_ATTR k.val)) 1) 2)
  (h.put (Obj.KEY_SHADOW_KCV k.val) (kcvOf v)).arm (.keyStage k) (ms 100)

/-- A staging past its 100 ms is discarded (R607). -/
def Hub.keyFresh (h : Hub) (k : KeySlot) : Hub := if h.due (.keyStage k) then h.expireShadow k else h

/-- The slot may be staged by the origin with the method: not K0 (R598), not owned by another, not waiting for its zeroise (R607). -/
def Hub.keyStageable (h : Hub) (o : Origin) (k : KeySlot) (method : Nat) : Nat :=
  if k.val = 0 ∨ h.keyMethod k ≠ method then rcOutOfRange
  else if h.caddy.slots[k].shadow.any (·.owner != o) then rcGroupBusy
  else if bitOf (h.get (Obj.KEY_ATTR k.val)) 2 && h.caddy.slots[k].condemned.isSome then rcBusy
  else rcOk

/-- The source slot of `KEY_STAGE_CFG`. -/
def Hub.keySource (h : Hub) (k : KeySlot) : Nat := h.get (Obj.KEY_STAGE_CFG k.val) % 64

/-- `KEY_MATERIAL` under method 0. -/
def Hub.keyPlain (h : Hub) (o : Origin) (k : KeySlot) (data : List Byte) : Nat × Hub :=
  let h := h.keyFresh k
  let c := h.keyStageable o k 0
  let hop := match o with
    | .hop _ => true
    | .openHop => true
    | _ => false
  if c ≠ rcOk then (c, h)
  else if hop || data.length != 32 then (rcOutOfRange, h)
  else (rcOk, h.keyStaged o k data 0 k.val)

/-- `KEY_MATERIAL` under method 1. -/
def Hub.keyUnwrap (h : Hub) (o : Origin) (k : KeySlot) (data : List Byte) : Nat × Hub :=
  let h := h.keyFresh k
  let c := h.keyStageable o k 1
  if c ≠ rcOk then (c, h)
  else if data.length ≠ 40 then (rcOutOfRange, h)
  else match h.keyUse (h.keySource k) useDecrypt with
    | (none, h) => (rcOutOfRange, h)
    | (some key, h) => match aesUnwrap key data with
      | none => (rcOutOfRange, h)
      | some v => (rcOk, h.keyStaged o k v 0 k.val)

/-- `KEY_MATERIAL`: the method in effect decides. -/
def Hub.keyMaterial (h : Hub) (o : Origin) (k : KeySlot) (data : List Byte) : Nat × Hub :=
  if h.keyMethod k = 1 then h.keyUnwrap o k data else h.keyPlain o k data

/-- `KEY_DERIVE` under method 2 (R604). -/
def Hub.keyDerive (h : Hub) (o : Origin) (k : KeySlot) (data : List Byte) : Nat × Hub :=
  let h := h.keyFresh k
  let c := h.keyStageable o k 2
  let src := h.keySource k
  let level := field (h.get (Obj.KEY_ATTR src)) 9 7
  if c ≠ rcOk then (c, h)
  else if data.length < 4 ∨ 6 < level then (rcOutOfRange, h)
  else match h.keyUse src useDerive with
    | (none, h) => (rcOutOfRange, h)
    | (some key, h) => (rcOk, h.keyStaged o k (kdf key (data.take 4) (data.drop 4) 256) (level + 1) src)

/-- `KEY_CONTROL` = 1 under method 3. -/
def Hub.keyGenerate (h : Hub) (o : Origin) (k : KeySlot) : Nat × Hub :=
  let h := h.keyFresh k
  let c := h.keyStageable o k 3
  if c ≠ rcOk then (c, h)
  else if h.get Obj.ENTROPY_STATE = 2 then (rcOutOfRange, h)
  else
    let (v, h) := h.random
    (rcOk, h.keyStaged o k v 0 k.val)

/-- The shadow of a slot discarded. -/
def Hub.keyUnstage (h : Hub) (k : KeySlot) : Hub :=
  let h := (h.setKey k fun s => { s with shadow := none }).disarm (.keyStage k)
  (h.put (Obj.KEY_ATTR k.val) (clrBit (h.get (Obj.KEY_ATTR k.val)) 1)).put (Obj.KEY_SHADOW_KCV k.val) 0

/-- `KEY_CONTROL` = 2 (R607, R618). -/
def Hub.keyAborted (h : Hub) (o : Origin) (k : KeySlot) : Nat × Hub :=
  let h := h.keyFresh k
  match h.caddy.slots[k].shadow with
  | none => (rcNotStaged, h)
  | some s => if s.owner = o then (rcOk, h.keyUnstage k) else (rcGroupBusy, h)

/-- Meanings of KEY_STAGE_PLAINTEXT and KEY_STAGE_UNWRAP, writes of one object whose method in effect decides, and of KEY_STAGE_DERIVE. -/
def execKeyStagePlaintext (o : Origin) (k : KeySlot) (material : List Byte) (s : State) : Host.Outcome State Fault Refusal :=
  s.run fun h => h.octGuarded o (Obj.KEY_MATERIAL k.val) material fun h => h.keyMaterial o k material
def execKeyStageUnwrap (o : Origin) (k : KeySlot) (material : List Byte) (s : State) : Host.Outcome State Fault Refusal :=
  s.run fun h => h.octGuarded o (Obj.KEY_MATERIAL k.val) material fun h => h.keyMaterial o k material
def execKeyStageDerive (o : Origin) (k : KeySlot) (labelContext : List Byte) (s : State) : Host.Outcome State Fault Refusal :=
  s.run fun h => h.octGuarded o (Obj.KEY_DERIVE k.val) labelContext fun h => h.keyDerive o k labelContext

/-- Meaning of KEY_STAGE_EXPIRED. -/
def execKeyStageExpired (k : KeySlot) (s : State) : Host.Outcome State Fault Refusal := s.run fun h => h.keyFresh k

/-! ### Commit and persistence (R608, R609, R611) -/

/-- The session of a slot after its key is replaced: sequence 0, no cached response (R96, R609). -/
def Hub.hopRekey (h : Hub) (k : KeySlot) : Hub :=
  { h with hop := { h.hop with sessions := h.hop.sessions.map fun x =>
      if x.1 = k.val then (x.1, { x.2 with last := 0, cached := none }) else x } }

/-- The sessions and subscriptions on a slot end (R96, R99, R610). -/
def Hub.hopEnd (h : Hub) (k : KeySlot) : Hub :=
  { h with hop := { h.hop with subs := h.hop.subs.filter (fun x => x.slot != some k) } }

/-- The attributes at the commit: a derived slot takes its source's LEVEL + 1 then (R606); of a source that stands at level 7 by then the
spec states no result, and the field is a free value. -/
def Hub.commitAttr (h : Hub) (a : Nat) : Nat × Hub :=
  if field a 9 7 = 0 then (a, h)
  else
    let level := field (h.get (Obj.KEY_ATTR (field a 15 10))) 9 7
    let rest := a - field a 9 7 * 2 ^ 7
    if level < 7 then (rest + (level + 1) * 2 ^ 7, h) else (rest + h.free 3 * 2 ^ 7, h.used)

/-- The shadow becomes the live value. -/
def Hub.keySwap (h : Hub) (k : KeySlot) (shadow : Shadow) : Hub :=
  let (a, h) := h.commitAttr shadow.attr
  let sh := { shadow with attr := a }
  let was := bitOf (h.get (Obj.KEY_ATTR k.val)) 16
  let keeps := bitOf sh.attr 16
  let h := (h.keyUnstage k).setKey k fun s => { s with
    live := sh.val, condemned := none, writing := keeps, voiding := s.voiding || (was && !keeps) }
  let h := ((h.put (Obj.KEY_ATTR k.val) sh.attr).put (Obj.KEY_KCV k.val) sh.kcv).keyWritten k
  let h := if keeps then h.arm (.keyRecord k) (us 200) else h.disarm (.keyRecord k)
  let h := if was && !keeps then h.arm (.keyVoid k) (us 200) else h
  let h := ((h.put (Obj.KEY_LAST_RESULT k.val) 1).bump Obj.REPLACEMENTS).caddyAttn 0
  let h := (h.event 0x5B (Obj.KEY_ATTR k.val)).hopRekey k
  if h.slotMac k.val then h else (h.hopEnd k).sessionCheck

/-- `KEY_COMMIT` with the expected check value (R608). -/
def Hub.keyCommitted (h : Hub) (o : Origin) (k : KeySlot) (expected : Nat) : Nat × Hub :=
  let h := h.keyFresh k
  match h.caddy.slots[k].shadow with
  | none => (rcNotStaged, h)
  | some sh =>
    if sh.owner ≠ o then (rcGroupBusy, h)
    else if sh.kcv = expected then (rcOk, h.keySwap k sh)
    else
      let h := ((h.keyUnstage k).put (Obj.KEY_LAST_RESULT k.val) 2).bump Obj.KCV_MISMATCHES
      (rcGroupInvalid, (h.caddyAttn 1).event 0x5C (Obj.KEY_ATTR k.val))

/-- Meaning of KEY_COMMIT, both words of the value at once (R80). -/
def execKeyCommit (o : Origin) (k : KeySlot) (expected : W64) (s : State) : Host.Outcome State Fault Refusal :=
  s.run fun h => h.guarded o (Obj.KEY_COMMIT k.val) expected.toNat fun h => h.keyCommitted o k expected.toNat

/-- The higher sequence number among the records of a slot. -/
def KeySt.topSeq (s : KeySt) : Nat := max ((s.rec0.map (·.seq)).getD 0) ((s.rec1.map (·.seq)).getD 0)

/-- Meaning of KEY_RECORD_WRITTEN: the record not used by the last commit holds the live value. -/
def execKeyRecordWritten (k : KeySlot) (s : State) : Host.Outcome State Fault Refusal :=
  s.run fun h =>
    let x := h.caddy.slots[k]
    if !x.writing || x.voiding then h
    else
      let r : KeyRec := ⟨x.topSeq + 1, clrBit (h.get (Obj.KEY_ATTR k.val)) 1, x.live, h.get (Obj.KEY_KCV k.val), true, false⟩
      let h := h.setKey k fun s =>
        if s.lastRec.val = 1 then { s with rec0 := some r, lastRec := 0, writing := false }
        else { s with rec1 := some r, lastRec := 1, writing := false }
      ((h.bump (Obj.KEY_MRAM_WRITES k.val)).bump Obj.MRAM_KEY_WRITES).disarm (.keyRecord k)

/-- Meaning of KEY_RECORD_VOIDED: both records of the slot are void. -/
def execKeyRecordVoided (k : KeySlot) (s : State) : Host.Outcome State Fault Refusal :=
  s.run fun h =>
    if h.caddy.slots[k].voiding then
      (h.setKey k fun s => { s with
        rec0 := s.rec0.map fun r => { r with voided := true }
        rec1 := s.rec1.map fun r => { r with voided := true }
        voiding := false }).disarm (.keyVoid k)
    else h

/-! ### Invalidation (R610) -/

/-- The chain of PARENT fields of `d` leads to `k`, within `n` steps. -/
def Hub.descends (h : Hub) (k : Nat) : Nat → Nat → Bool
  | 0, _ => false
  | n + 1, d =>
    let p := field (h.get (Obj.KEY_ATTR d)) 15 10
    p != d && (p == k || h.descends k n p)

/-- The descendants of a slot: every slot whose chain of PARENT fields leads to it, but those that an earlier invalidation has orphaned
and zeroised and that have not been staged since. -/
def Hub.keyTree (h : Hub) (k : KeySlot) : List KeySlot :=
  (List.finRange 64).filter fun d =>
    let a := h.get (Obj.KEY_ATTR d.val)
    d != k && (bitOf a 0 || !bitOf a 2) && h.descends k.val 64 d.val

/-- The records of a persisted slot start to be voided. -/
def Hub.keyVoids (h : Hub) (k : KeySlot) : Hub :=
  if bitOf (h.get (Obj.KEY_ATTR k.val)) 16 then
    (h.setKey k fun s => { s with voiding := true, writing := false }).arm (.keyVoid k) (us 20)
  else h

/-- A descendant becomes an orphan; a derivation staged from the tree is discarded. -/
def Hub.keyOrphan (h : Hub) (d : KeySlot) : Hub :=
  let h := if bitOf (h.get (Obj.KEY_ATTR d.val)) 2 then h else h.bump Obj.ORPHANED
  let h := (h.put (Obj.KEY_ATTR d.val) (setBit (h.get (Obj.KEY_ATTR d.val)) 2)).put (Obj.KEY_LAST_RESULT d.val) 5
  ((h.setKey d fun s => { s with condemned := some (s.condemned.getD (h.now + us 5)) }).hopEnd d).keyVoids d

/-- Derivations staged from one of these slots are discarded with result 5. -/
def Hub.keyDropDerived (h : Hub) (tree : List KeySlot) : Hub :=
  (List.finRange 64).foldl (fun h d =>
    match h.caddy.slots[d].shadow with
    | some s => if field s.attr 9 7 != 0 && tree.any (fun t => t.val == field s.attr 15 10) then
        (h.keyUnstage d).put (Obj.KEY_LAST_RESULT d.val) 5 else h
    | none => h) h

/-- A link whose last training derived its keys from an invalidated slot: its encrypted classes close; one that trains comes up with them
closed (R610 step 3). -/
def Hub.unkeyLink (h : Hub) (p : Port) : Hub :=
  if h.linkUp p then (if h.get (Obj.KEY_STATE p) = 2 then h else (h.closeLink p).reportClosed p)
  else
    let h := h.setLink p fun k => { k with txS := [], rxS := [] }
    if h.get (Obj.KEY_STATE p) = 1 then h.put (Obj.KEY_STATE p) 2 else h

/-- The steps of R610 up to the boundary. -/
def Hub.keyInvalidated (h : Hub) (k : KeySlot) : Hub :=
  if k.val = 0 ∨ !bitOf (h.get (Obj.KEY_ATTR k.val)) 0 then h
  else
    let tree := h.keyTree k
    let h := (h.keyUnstage k).keyDropDerived (k :: tree)
    let h := (h.put (Obj.KEY_ATTR k.val) (clrBit (h.get (Obj.KEY_ATTR k.val)) 0)).put (Obj.KEY_LAST_RESULT k.val) 4
    let h := ((h.setKey k fun s => { s with condemned := some (h.now + us 5) }).hopEnd k).keyVoids k
    let h := tree.foldl Hub.keyOrphan h
    let h := (h.caddyAttn 2).event 0x5A (Obj.KEY_ATTR k.val)
    ((List.finRange 2).foldl (fun h p => if (k :: tree).any (fun t => (h.links[p]).keySlot == some t.val) then h.unkeyLink p else h) h).sessionCheck

/-- `KEY_CONTROL` written (R618). -/
def Hub.keyControl (h : Hub) (o : Origin) (k : KeySlot) (v : Nat) : Nat × Hub :=
  if k.val = 0 then (rcOutOfRange, h)
  else if v = 1 then h.keyGenerate o k
  else if v = 2 then h.keyAborted o k
  else (rcOk, h.keyInvalidated k)

/-- Meanings of KEY_GENERATE, KEY_ABORT and KEY_INVALIDATE. -/
def execKeyGenerate (o : Origin) (k : KeySlot) (s : State) : Host.Outcome State Fault Refusal :=
  s.run fun h => h.guarded o (Obj.KEY_CONTROL k.val) 1 fun h => h.keyControl o k 1
def execKeyAbort (o : Origin) (k : KeySlot) (s : State) : Host.Outcome State Fault Refusal :=
  s.run fun h => h.guarded o (Obj.KEY_CONTROL k.val) 2 fun h => h.keyControl o k 2
def execKeyInvalidate (o : Origin) (k : KeySlot) (s : State) : Host.Outcome State Fault Refusal :=
  s.run fun h => h.guarded o (Obj.KEY_CONTROL k.val) 3 fun h => h.keyControl o k 3

/-- At an epoch boundary: every condemned value whose boundary this is is zeroised; slot k itself keeps what was staged anew (R610
step 6). -/
def Hub.keyZeroise (h : Hub) : Hub :=
  (List.finRange 64).foldl (fun h k =>
    if h.caddy.slots[k].condemned.any (fun t => Nat.ble t h.now) then
      let h := (if bitOf (h.get (Obj.KEY_ATTR k.val)) 2 then h.keyUnstage k else h).setKey k fun s => { s with
        live := List.replicate 32 0, mask := List.replicate 32 0, condemned := none
        shadowMask := if s.shadow.isSome then s.shadowMask else List.replicate 32 0 }
      let h := (h.put (Obj.KEY_ATTR k.val) (clrBit (h.get (Obj.KEY_ATTR k.val)) 0)).put (Obj.KEY_KCV k.val) 0
      let h := ((h.put (Obj.KEY_LAST_RESULT k.val) 6).bump Obj.ZEROISED).caddyAttn 3
      h.event 0x5E (Obj.KEY_ATTR k.val)
    else h) h

/-! ### Integrity, masking, entropy (R599 to R602) -/

/-- An integrity fault of a slot. -/
def Hub.keyFault (h : Hub) (k : KeySlot) : Hub :=
  let h := (h.keyInvalidated k).put (Obj.KEY_LAST_RESULT k.val) 7
  let h := ((h.bump Obj.KEY_INTEGRITY_FAULTS).caddyAttn 4).event 0x5F (Obj.KEY_ATTR k.val)
  { h with caddy := { h.caddy with integritySinceRead := true } }.report 16 k.val

/-- Meaning of KEY_INTEGRITY_CHECK: `bad` has the slots whose recomputed check value differs, `ecc` those whose SRAM has an
uncorrectable error, which counts with the other memories' errors (R601, R628). -/
def execKeyIntegrityCheck (bad ecc : W64) (s : State) : Host.Outcome State Fault Refusal :=
  s.run fun h =>
    if h.armed .keyCheck ∧ !h.due .keyCheck then h
    else
      let h := h.arm .keyCheck (ms 10)
      (List.finRange 64).foldl (fun h k =>
        if !bitOf (h.get (Obj.KEY_ATTR k.val)) 0 then h
        else if ecc.getLsbD k.val then (h.keyFault k).eccFault 6
        else if bad.getLsbD k.val then h.keyFault k
        else h.keyWritten k) h

/-- Meaning of CADDY_REMASK: outside the normal phase a slot is re-masked every 1 ms; in it, by writes and checks alone (R600). -/
def execCaddyRemask (k : KeySlot) (s : State) : Host.Outcome State Fault Refusal :=
  s.run fun h =>
    if h.caddyPhase = 1 ∨ !((h.caddy.slots[k]).maskedAt.all fun t => Nat.ble (t + ms 1) h.now) then h
    else (h.remask k).setKey k fun s => { s with maskedAt := some h.now }

/-- Meaning of DRBG_RESEED, every 1 ms, with the outcome of the tests of the entropy source. -/
def execDrbgReseed (healthy : Bool) (s : State) : Host.Outcome State Fault Refusal :=
  s.run fun h =>
    if h.armed .reseed && !h.due .reseed then h
    else
    let h := h.arm .reseed (ms 1)
    if healthy then ((h.put Obj.ENTROPY_STATE 1).drbgReseed).causesPass
    else if h.get Obj.ENTROPY_STATE = 2 then h
    else
      let h := ((h.put Obj.ENTROPY_STATE 2).bump Obj.ENTROPY_FAILS).caddyAttn 6
      (h.event 0x61 Obj.ENTROPY_STATE).report 16 0xFF

/-! ### Loading at a start (R612) -/

/-- A record that may load. -/
def KeyRec.loads (r : KeyRec) : Bool := r.good && !r.voided

/-- The record a slot loads from: the higher sequence among those that pass. -/
def KeySt.newest (s : KeySt) : Option (Fin 2 × KeyRec) :=
  match s.rec0.filter KeyRec.loads, s.rec1.filter KeyRec.loads with
  | some a, some b => if b.seq < a.seq then some (0, a) else some (1, b)
  | some a, none => some (0, a)
  | none, some b => some (1, b)
  | none, none => none

/-- A slot whose record write or void a reset cut short: whether the record written to still passes its checks (R611), and which of the
records read voided, is open, a free value. -/
def Hub.tornRecord (h : Hub) (k : KeySlot) : KeySt × Hub :=
  let s := h.caddy.slots[k]
  if s.voiding then
    let n := h.free 2
    let cut := fun (b : Nat) (r : KeyRec) => { r with voided := r.voided || bitOf n b }
    ({ s with rec0 := s.rec0.map (cut 0), rec1 := s.rec1.map (cut 1) }, h.used)
  else if s.writing then
    let ok := h.free 1 == 1
    let torn := fun (r : KeyRec) => { r with good := r.good && ok }
    (if s.lastRec.val = 1 then { s with rec0 := s.rec0.map torn } else { s with rec1 := s.rec1.map torn }, h.used)
  else (s, h)

/-- A slot at a release of PORn or RSTn: loaded from its newest record that passes, else empty; K0 is fixed (R598, R612). -/
def Hub.keyLoad (h : Hub) (k : KeySlot) : Hub :=
  if k.val = 0 then (h.put (Obj.KEY_ATTR 0) 0x40001).put (Obj.KEY_KCV 0) (kcvOf Config.firmwareKeyHash)
  else
    let (s, h) := h.tornRecord k
    let fails := [s.rec0, s.rec1].filter fun r => r.any fun r => !r.good && !r.voided
    let keep : KeySt := { rec0 := s.rec0, rec1 := s.rec1, lastRec := s.lastRec }
    let h := match s.newest with
      | some (i, r) =>
        ((h.setKey k fun _ => { keep with live := r.val, lastRec := i }).put (Obj.KEY_ATTR k.val) r.attr).put (Obj.KEY_KCV k.val) r.kcv
      | none => h.setKey k fun _ => keep
    fails.foldl (fun h _ => (h.caddyAttn 5).event 0x60 (Obj.KEY_ATTR k.val)) h

/-- The Caddy at a release of PORn or RSTn: its SRAM is scrambled with a fresh key at the former (R599). -/
def Hub.caddyLoad (h : Hub) (porn : Bool) : Hub :=
  let h := { h with caddy := { h.caddy with integritySinceRead := false, started := false, drbg := none } }
  let h := if porn then
      let (r, h) := h.random
      { h with caddy := { h.caddy with scramble := r } }
    else h
  ((List.finRange 64).foldl Hub.keyLoad h).arm .keyCheck (ms 10)

end Sys2Proof.Machine
end

