-- ==== Sys2Proof/Machine/Slots.lean ====
section
/-! DEFINITION. Hot-swap slots and the selection between the two supply feeds (chapter 20). -/

namespace Sys2Proof.Machine

/-! ### Slots (R575 to R584) -/

/-- A change of a slot. -/
def Hub.setHotSlot (h : Hub) (n : Fin 8) (f : SlotSt → SlotSt) : Hub := { h with slots := h.slots.set n (f h.slots[n]) }

/-- The value an object of a slot has once the groups committed before take effect (R577). -/
def Hub.slotNext (h : Hub) (k : Nat) : Nat :=
  (h.waiting.filter (fun w => w.unit == EffUnit.slotRamp && w.key == k)).foldl (fun _ w => w.val) (h.get k)

/-- The lowest and highest bus voltage of the window of `SLOT_BUS`, in mV (R574). -/
def busWindow (bus : Nat) : Nat × Nat := if bus = 1 then (18000, 30000) else (36000, 60000)

/-- The port whose contract a `SLOT_PD_PORT` or `Fx_PD_PORT` code follows is stable; code 0 follows none (R584, R585). -/
def Hub.coupledOk (h : Hub) (code : Nat) : Bool := code == 0 || h.flag (Obj.PD_CONTRACT_STABLE (code - 1))

/-- A slot leaves its state: the timers of that state stop. -/
def Hub.slotLeave (h : Hub) (n : Fin 8) : Hub := ((h.disarm (.seat n)).disarm (.ramp n)).disarm (.goodTime n)

/-- A slot at rest enters debounce when its board is seated, else empty, else off when it is not enabled (R575). -/
def Hub.slotIdle (h : Hub) (n : Fin 8) : Hub :=
  let h := h.slotLeave n
  if !h.flag (Obj.SLOT_ENABLE n.val) then h.put (Obj.SLOT_STATE n.val) 0
  else if (h.slots[n]).seated then (h.put (Obj.SLOT_STATE n.val) 2).arm (.seat n) (ms 20)
  else h.put (Obj.SLOT_STATE n.val) 1

/-- Entry to state 4: the waiting group takes effect and the ramp is timed (R577). -/
def Hub.slotRampEnter (h : Hub) (n : Fin 8) : Hub :=
  let h := (h.slotLeave n).takeUnit .slotRamp fun w => keyIdx w.key == 0x7200 + n.val
  ((h.put (Obj.SLOT_STATE n.val) 4).bump (Obj.STARTS n.val)).arm (.ramp n) (ms (h.get (Obj.SLOT_RAMP_MAX n.val)))

/-- A board turned off in state 4 or 5 without a fault: state 3 (R575). -/
def Hub.slotWait (h : Hub) (n : Fin 8) : Hub := (h.slotLeave n).put (Obj.SLOT_STATE n.val) 3

/-- The slot's MOSFET conducts: state 4 or 5. -/
def Hub.slotConducts (h : Hub) (n : Fin 8) : Bool := h.get (Obj.SLOT_STATE n.val) == 4 || h.get (Obj.SLOT_STATE n.val) == 5

/-- Entry to state 6 with a cause, and to state 7 at the third fault (R581). -/
def Hub.slotFault (h : Hub) (n : Fin 8) (cause : Nat) : Hub :=
  let h := ((h.slotLeave n).put (Obj.SLOT_STATE n.val) 6).put (Obj.SLOT_FAULT_CAUSE n.val) cause
  let h := (h.bump (Obj.SLOT_FAULT_COUNT n.val)).arm (.slotRetry n) (ms (h.get (Obj.SLOT_RETRY n.val)))
  let h := (h.put (Obj.SLOT_ATTN n.val) (setBit (h.get (Obj.SLOT_ATTN n.val)) 0)).bump (Obj.FAULTS n.val)
  let h := h.event 0x54 (Obj.SLOT_FAULT_CAUSE n.val)
  if h.get (Obj.SLOT_FAULT_COUNT n.val) = 3 then
    let h := (h.put (Obj.SLOT_STATE n.val) 7).put (Obj.SLOT_ATTN n.val) (setBit (h.get (Obj.SLOT_ATTN n.val)) 1)
    (h.bump (Obj.LATCHES n.val)).event 0x55 (Obj.SLOT_STATE n.val)
  else h

/-- `SLOT_ENABLE` written: off from states 0 to 5, empty from off; states 6 and 7 keep (R575). -/
def Hub.slotEnabled (h : Hub) (n : Fin 8) : Hub :=
  let st := h.get (Obj.SLOT_STATE n.val)
  if h.flag (Obj.SLOT_ENABLE n.val) then (if st = 0 then h.slotIdle n else h)
  else if st ≤ 5 then (h.slotLeave n).put (Obj.SLOT_STATE n.val) 0
  else h

/-- Meaning of SLOT_ENABLE_WRITE. -/
def execSlotEnableWrite (o : Origin) (n : Fin 8) (v : W32) (s : State) : Host.Outcome State Fault Refusal :=
  s.run fun h => h.guarded o (Obj.SLOT_ENABLE n.val) v.toNat fun h =>
    let (c, h) := h.plainWrite o (Obj.SLOT_ENABLE n.val) v.toNat
    (c, h.slotEnabled n)

/-- Meaning of SEAT_CHANGE. -/
def execSeatChange (n : Fin 8) (seated : Bool) (s : State) : Host.Outcome State Fault Refusal :=
  s.kept fun h =>
    if (h.slots[n]).seated = seated then h
    else
      let h := h.setHotSlot n fun x => { x with seated := seated }
      let st := h.get (Obj.SLOT_STATE n.val)
      if st = 6 ∨ st = 7 then h.bump (Obj.SEAT_CHANGES n.val)
      else if st = 0 then h
      else if seated then (if st = 1 then h.slotIdle n else h)
      else h.slotIdle n

/-- Meaning of SEAT_DEBOUNCE_EXPIRY. -/
def execSeatDebounceExpiry (n : Fin 8) (s : State) : Host.Outcome State Fault Refusal :=
  s.kept fun h =>
    if h.get (Obj.SLOT_STATE n.val) = 2 ∧ h.due (.seat n) ∧ (h.slots[n]).seated then h.slotWait n else h

/-- Meaning of SLOT_RAMP_START: the bus within its window and the coupled contract stable. -/
def execSlotRampStart (n : Fin 8) (busMv : W16) (s : State) : Host.Outcome State Fault Refusal :=
  s.kept fun h =>
    let w := busWindow (h.slotNext (Obj.SLOT_BUS n.val))
    if h.get (Obj.SLOT_STATE n.val) = 3 ∧ w.1 ≤ busMv.toNat ∧ busMv.toNat ≤ w.2 ∧ h.coupledOk (h.get (Obj.SLOT_PD_PORT n.val)) then
      h.slotRampEnter n
    else h

/-- Meaning of SLOT_POWER_GOOD. -/
def execSlotPowerGood (n : Fin 8) (s : State) : Host.Outcome State Fault Refusal :=
  s.kept fun h =>
    if h.get (Obj.SLOT_STATE n.val) = 4 then
      let h := (h.slotLeave n).put (Obj.SLOT_STATE n.val) 5
      let h := h.put (Obj.SLOT_ATTN n.val) (setBit (h.get (Obj.SLOT_ATTN n.val)) 3)
      h.arm (.goodTime n) (ms (h.get (Obj.SLOT_GOOD_TIME n.val)))
    else h

/-- Meaning of SLOT_RAMP_TIMEOUT. -/
def execSlotRampTimeout (n : Fin 8) (s : State) : Host.Outcome State Fault Refusal :=
  s.kept fun h => if h.get (Obj.SLOT_STATE n.val) = 4 ∧ h.due (.ramp n) then h.slotFault n 3 else h

/-- The current exceeds the fast-trip threshold of R579, with the ramp's current limit of R577 at that instant. -/
def Hub.tripsFast (h : Hub) (n : Fin 8) (ma busMv voutMv : Nat) : Bool :=
  let trip := h.get (Obj.SLOT_FAST_TRIP n.val)
  if h.get (Obj.SLOT_STATE n.val) = 5 then Nat.ble (trip + 1) ma
  else
    let vds := max 500 (busMv - voutMv)
    let limitTimesVds := min (h.get (Obj.SLOT_ILIM n.val) * vds) (h.get (Obj.SLOT_PLIM n.val) * 100000)
    Nat.ble (trip + 1) ma || (Nat.ble 1001 ma && Nat.ble (2 * limitTimesVds + 1) (ma * vds))

/-- Meaning of SLOT_FAST_TRIP. -/
def execSlotFastTrip (n : Fin 8) (ma : W32) (busMv voutMv : W16) (s : State) : Host.Outcome State Fault Refusal :=
  s.kept fun h =>
    if h.slotConducts n ∧ h.tripsFast n ma.toNat busMv.toNat voutMv.toNat then (h.bump (Obj.FAST_TRIPS n.val)).slotFault n 1
    else h

/-- Meaning of SLOT_BREAKER_TRIP: a current of `ma` at the least, for `us` without a break (R580). -/
def execSlotBreakerTrip (n : Fin 8) (ma us : W32) (s : State) : Host.Outcome State Fault Refusal :=
  s.kept fun h =>
    if h.get (Obj.SLOT_STATE n.val) = 5 ∧ h.get (Obj.SLOT_ILIM n.val) < ma.toNat ∧ h.get (Obj.SLOT_TRIP_TIME n.val) ≤ us.toNat then
      h.slotFault n 2
    else h

/-- Meaning of SLOT_BUS_OVERVOLTAGE. -/
def execSlotBusOvervoltage (n : Fin 8) (mv : W32) (s : State) : Host.Outcome State Fault Refusal :=
  s.kept fun h =>
    if h.slotConducts n ∧ (busWindow (h.get (Obj.SLOT_BUS n.val))).2 < mv.toNat then h.slotFault n 4 else h

/-- Meaning of SLOT_BUS_UNDERVOLTAGE. -/
def execSlotBusUndervoltage (n : Fin 8) (mv : W32) (s : State) : Host.Outcome State Fault Refusal :=
  s.kept fun h =>
    if h.slotConducts n ∧ mv.toNat < (busWindow (h.get (Obj.SLOT_BUS n.val))).1 then h.slotWait n else h

/-- Meaning of SLOT_RETRY_EXPIRY. -/
def execSlotRetryExpiry (n : Fin 8) (s : State) : Host.Outcome State Fault Refusal :=
  s.kept fun h =>
    if h.due (.slotRetry n) then
      let h := h.disarm (.slotRetry n)
      if h.get (Obj.SLOT_STATE n.val) = 6 then h.slotIdle n else h
    else h

/-- Meaning of SLOT_GOOD_TIME_EXPIRY. -/
def execSlotGoodTimeExpiry (n : Fin 8) (s : State) : Host.Outcome State Fault Refusal :=
  s.kept fun h =>
    if h.get (Obj.SLOT_STATE n.val) = 5 ∧ h.due (.goodTime n) then (h.put (Obj.SLOT_FAULT_COUNT n.val) 0).disarm (.goodTime n)
    else h

/-- `SLOT_CLEAR` = 1: the count returns to 0 and a latched slot leaves its state (R583, R575). -/
def Hub.slotCleared (h : Hub) (n : Fin 8) : Hub :=
  let h := h.put (Obj.SLOT_FAULT_COUNT n.val) 0
  if h.get (Obj.SLOT_STATE n.val) = 7 then h.slotIdle n else h

/-- Meaning of SLOT_CLEAR. -/
def execSlotClear (o : Origin) (n : Fin 8) (v : W32) (s : State) : Host.Outcome State Fault Refusal :=
  s.run fun h => h.guarded o (Obj.SLOT_CLEAR n.val) v.toNat fun h => (rcOk, h.slotCleared n)

/-- A slot in state 4 or 5 whose coupled contract is not stable passes to state 3 (R575). -/
def Hub.slotCouple (h : Hub) (n : Fin 8) : Hub :=
  if h.slotConducts n && !h.coupledOk (h.get (Obj.SLOT_PD_PORT n.val)) then h.slotWait n else h

/-- The checks of a commit of a slot's group (R591): mA times µΩ is nV. -/
def Hub.slotGroupOk (h : Hub) (g : Staged) (n : Nat) : Bool :=
  let trip := h.newVal g (Obj.SLOT_FAST_TRIP n)
  Nat.ble (3 * h.newVal g (Obj.SLOT_ILIM n)) (2 * trip) && Nat.ble (trip * h.newVal g (Obj.SLOT_SHUNT n)) 60000000

/-! ### Feeds (R585 to R590) -/

/-- An object of a feed: FB's lie 8 subindices after FA's. -/
def feedKey (f : Fin 2) (fa : Nat) : Nat := fa + 8 * f.val

/-- The state object of a feed. -/
def feedState (f : Fin 2) : Nat := if f.val = 0 then Obj.FA_STATE else Obj.FB_STATE

/-- A change of the feeds' own state. -/
def Hub.setFeeds (h : Hub) (f : FeedSt → FeedSt) : Hub := { h with feeds := f h.feeds }

/-- The feed is valid (R585, R586). -/
def Hub.feedValid (h : Hub) (f : Fin 2) : Bool :=
  (h.feeds.ok[f]) && h.coupledOk (h.get (feedKey f Obj.FA_PD_PORT))

/-- A feed is in the break-before-make fault, in which no gate is turned on (R589). -/
def Hub.feedStuck (h : Hub) : Bool := h.get Obj.FA_STATE == 5 || h.get Obj.FB_STATE == 5

/-- The feed of higher priority. -/
def Hub.feedFirst (h : Hub) : Fin 2 := if h.get Obj.FEED_PRIORITY = 1 then 1 else 0

/-- The state each feed shows (R592); state 5 stays until `FEED_CLEAR`. -/
def Hub.feedShow (h : Hub) : Hub :=
  (List.finRange 2).foldl (fun h f =>
    let m := h.get Obj.FEED_MODE
    if h.get (feedState f) = 5 then h
    else h.put (feedState f)
      (if m = 3 ∨ (m = 1 ∧ f.val = 1) ∨ (m = 2 ∧ f.val = 0) then 0
       else if h.get Obj.FEED_IN_USE = f.val + 1 then 4
       else if h.feedValid f then 3
       else if (h.feeds.inRange[f]) && !(h.feeds.ok[f]) then 2 else 1)) h

/-- A switch completed: the new gate is on (R588). -/
def Hub.feedSwitched (h : Hub) (new : Fin 2) : Hub :=
  let h := ((h.setFeeds fun s => { s with switch := none }).put Obj.FEED_IN_USE (new.val + 1)).disarm .feedReturn
  let h := (h.bump Obj.FEED_SWITCHES).put Obj.FEED_ATTN (setBit (h.get Obj.FEED_ATTN) 0)
  h.event 0x56 Obj.FEED_IN_USE

/-- A switch decided: done when the old gate is confirmed off, else under way until then (R588). -/
def Hub.feedSwitch (h : Hub) (new : Fin 2) (confirmed : Bool) : Hub :=
  if confirmed then h.feedSwitched new else h.setFeeds fun s => { s with switch := some (new, h.now) }

/-- The selection of R587 in mode 0, with one feed in use or none. -/
def Hub.feedPriority (h : Hub) (confirmed : Bool) : Hub :=
  let hi := h.feedFirst
  let lo : Fin 2 := if hi.val = 0 then 1 else 0
  match h.get Obj.FEED_IN_USE with
  | 0 =>
    if h.feedValid hi then h.put Obj.FEED_IN_USE (hi.val + 1)
    else if h.feedValid lo then h.put Obj.FEED_IN_USE (lo.val + 1) else h
  | i =>
    let u : Fin 2 := if i = 1 then 0 else 1
    let w : Fin 2 := if i = 1 then 1 else 0
    if !h.feedValid u && h.feedValid w then h.feedSwitch w confirmed
    else if w = hi ∧ h.feedValid w then
      (if h.armed .feedReturn then h else h.arm .feedReturn (ms (h.get Obj.FEED_RETURN_HOLD)))
    else h.disarm .feedReturn

/-- Feed selection, at every change of a feed's validity or of the mode; a feed loss ends when a valid feed is in use. -/
def Hub.feedSelect (h : Hub) (confirmed : Bool) : Hub :=
  let m := h.get Obj.FEED_MODE
  let h :=
    if m = 3 then ((h.put Obj.FEED_IN_USE 0).disarm .feedReturn).setFeeds fun s => { s with switch := none }
    else if h.feedStuck || h.feeds.switch.isSome then h
    else if m = 1 ∨ m = 2 then
      let f : Fin 2 := if m = 1 then 0 else 1
      let h := h.disarm .feedReturn
      if h.get Obj.FEED_IN_USE = f.val + 1 then h
      else h.put Obj.FEED_IN_USE (if h.feedValid f then f.val + 1 else 0)
    else h.feedPriority confirmed
  let h := h.feedShow
  let ended := m == 3 || (List.finRange 2).any fun f => h.get Obj.FEED_IN_USE == f.val + 1 && h.feedValid f
  if ended then h.setFeeds fun s => { s with loss := false } else h

/-- A switch under way is done 5.4 µs after its decision (R588). -/
def Hub.feedStep (h : Hub) : Hub :=
  match h.feeds.switch with
  | some (new, at_) => if at_ + 5400 ≤ h.now then (h.feedSwitched new).feedSelect false else h
  | none => h

/-- The sense voltage of a feed lies within the range of its group (R586). -/
def Hub.feedWithin (h : Hub) (f : Fin 2) (mv : Nat) : Bool :=
  Nat.ble (h.get (feedKey f Obj.FA_UV)) mv && Nat.ble mv (h.get (feedKey f Obj.FA_OV))

/-- Meaning of FEED_INVALID: the sense voltage `mv` has been out of its range for 2 µs. -/
def execFeedInvalid (f : Fin 2) (mv : W16) (confirmed : Bool) (s : State) : Host.Outcome State Fault Refusal :=
  s.kept fun h => if h.feedWithin f mv.toNat then h else
    let h := (h.setFeeds fun x => { x with ok := x.ok.set f false, inRange := x.inRange.set f false }).disarm (.feedHold f)
    h.feedSelect confirmed

/-- Meaning of FEED_VALID_HOLD_EXPIRY: the sense voltage `mv` comes into its range, and its hold elapses. -/
def execFeedValidHoldExpiry (f : Fin 2) (mv : W16) (elapsed confirmed : Bool) (s : State) : Host.Outcome State Fault Refusal :=
  s.kept fun h =>
    if !h.feedWithin f mv.toNat then h
    else if elapsed then
      (if h.due (.feedHold f) then
        ((h.setFeeds fun x => { x with ok := x.ok.set f true }).disarm (.feedHold f)).feedSelect confirmed
      else h)
    else if h.feeds.inRange[f] then h
    else ((h.setFeeds fun x => { x with inRange := x.inRange.set f true }).arm (.feedHold f) (ms (h.get Obj.FEED_VALID_HOLD))).feedSelect confirmed

/-- Meaning of FEED_RETURN_HOLD_EXPIRY. -/
def execFeedReturnHoldExpiry (confirmed : Bool) (s : State) : Host.Outcome State Fault Refusal :=
  s.kept fun h =>
    let hi := h.feedFirst
    if h.due .feedReturn ∧ h.get Obj.FEED_MODE = 0 ∧ !h.feedStuck ∧ h.feeds.switch = none ∧ h.feedValid hi ∧
        h.get Obj.FEED_IN_USE ≠ 0 ∧ h.get Obj.FEED_IN_USE ≠ hi.val + 1 then
      ((h.disarm .feedReturn).feedSwitch hi confirmed).feedSelect confirmed
    else h

/-- Meaning of FEED_BBM_FAILED: the old gate of the switch under way is not confirmed off. -/
def execFeedBbmFailed (s : State) : Host.Outcome State Fault Refusal :=
  s.kept fun h =>
    match h.feeds.switch with
    | none => h
    | some (new, _) =>
      let old : Fin 2 := if new.val = 0 then 1 else 0
      let h := ((h.setFeeds fun x => { x with switch := none }).put (feedState old) 5).put Obj.FEED_IN_USE 0
      let h := (h.put Obj.FEED_ATTN (setBit (h.get Obj.FEED_ATTN) 2)).bump Obj.BBM_FAILS
      ((h.event 0x58 (feedState old)).report 11 (old.val + 1)).feedShow

/-- `FEED_MODE` written (R587). -/
def Hub.feedModeWritten (h : Hub) : Hub := h.feedSelect false

/-- Meaning of FEED_MODE_WRITE. -/
def execFeedModeWrite (o : Origin) (v : W32) (s : State) : Host.Outcome State Fault Refusal :=
  s.run fun h => h.guarded o Obj.FEED_MODE v.toNat fun h =>
    let (c, h) := h.plainWrite o Obj.FEED_MODE v.toNat
    (c, h.feedModeWritten)

/-- `FEED_CLEAR` = 1: the break-before-make fault ends and a feed may be taken (R589). -/
def Hub.feedCleared (h : Hub) : Hub :=
  let h := (List.finRange 2).foldl (fun h f => if h.get (feedState f) = 5 then h.put (feedState f) 1 else h) h
  h.feedSelect false

/-- Meaning of FEED_CLEAR. -/
def execFeedClear (o : Origin) (v : W32) (s : State) : Host.Outcome State Fault Refusal :=
  s.run fun h => h.guarded o Obj.FEED_CLEAR v.toNat fun h => (rcOk, h.feedCleared)

/-- The checks of a commit of a feed's group (R592). -/
def Hub.feedGroupOk (h : Hub) (g : Staged) (f : Fin 2) : Bool :=
  let ov := h.newVal g (feedKey f Obj.FA_OV)
  Nat.ble (h.newVal g (feedKey f Obj.FA_UV) + 1) ov && Nat.ble ov 60000

/-- `PD_CONTRACT_STABLE` of a port falls: its slots hold and its feeds become invalid (R557, R584, R585). -/
def Hub.contractHold (h : Hub) (p : Fin 2) : Hub :=
  let h := h.put (Obj.PD_CONTRACT_STABLE p.val) 0
  let h := (List.finRange 8).foldl (fun h n =>
    if h.slotConducts n && h.get (Obj.SLOT_PD_PORT n.val) == p.val + 1 then
      let h := ((h.slotWait n).bump (Obj.HOLDS n.val)).put (Obj.SLOT_ATTN n.val) (setBit (h.get (Obj.SLOT_ATTN n.val)) 2)
      h.event 0x59 (Obj.SLOT_STATE n.val)
    else h) h
  h.feedSelect false

/-- `PD_CONTRACT_STABLE` of a port rises (R557, R585). -/
def Hub.contractStable (h : Hub) (p : Fin 2) : Hub := (h.put (Obj.PD_CONTRACT_STABLE p.val) 1).feedSelect false

end Sys2Proof.Machine
end

