-- ==== Sys2Proof/Machine/Pd.lean ====
section
/-! DEFINITION. The Kettle's policy engines on the trunk ports: attach, contracts, transitions, discovery, swaps, Hard Reset and
detach (chapter 19), and the feed loss that signals a Fast Role Swap (R590). -/

namespace Sys2Proof.Machine

/-! ### The port -/

/-- A change of a port's policy engine. -/
def Hub.setPd (h : Hub) (p : Fin 2) (f : PdSt → PdSt) : Hub := { h with pd := h.pd.set p (f h.pd[p]) }

/-- A message sent; it is repeated when its GoodCRC is missing (R564). -/
def Hub.pdSend (h : Hub) (p : Fin 2) (m : PdMsg) : Hub :=
  (h.setPd p fun s => { s with last := some m, retries := 0 }).emit (.pdMsg p.val m)

/-- Bits of `PD_ATTN` set. -/
def Hub.pdAttn (h : Hub) (p : Fin 2) (b : Nat) : Hub := h.put (Obj.PD_ATTN p.val) (setBit (h.get (Obj.PD_ATTN p.val)) b)

/-- `PD_STATE`. -/
def Hub.pdState (h : Hub) (p : Fin 2) : Nat := h.get (Obj.PD_STATE p.val)

/-- `PD_STATE` set. -/
def Hub.pdTo (h : Hub) (p : Fin 2) (st : Nat) : Hub := h.put (Obj.PD_STATE p.val) st

/-- The port is a source. -/
def Hub.isSource (h : Hub) (p : Fin 2) : Bool := h.get (Obj.PD_POWER_ROLE p.val) == 2
/-- The port is a sink. -/
def Hub.isSink (h : Hub) (p : Fin 2) : Bool := h.get (Obj.PD_POWER_ROLE p.val) == 1

/-- The converter of the port has a code (R543, R546). -/
def Hub.hasCode (h : Hub) (p : Fin 2) : Bool := h.eff (Obj.PD_VSEL_GPIO p.val) != 0xFF

/-- The converter code set; a converter without a code has none. -/
def Hub.setCode (h : Hub) (p : Fin 2) (code : Nat) : Hub :=
  (h.setPd p fun s => { s with code := if h.hasCode p then code else 0 }).gpioShow

/-- The objects of a port that wait for this unit of its work take effect. -/
def Hub.pdTake (h : Hub) (p : Fin 2) (u : EffUnit) : Hub := h.takeUnit u fun w => keyIdx w.key == 0x7000 + 0x100 * p.val

/-- A sequence runs on the port, so that a request or command waits (R564). -/
def Hub.pdRuns (h : Hub) (p : Fin 2) : Bool := h.pdState p != 3 || (h.pd[p]).ask.isSome

/-- Every timed event of a contract of the port stops. -/
def Hub.pdTimersOff (h : Hub) (p : Fin 2) : Hub :=
  (((((((h.disarm (.pdCaps p)).disarm (.pdCode p)).disarm (.vbusSettle p)).disarm (.pdRdy p)).disarm (.pdStable p)).disarm
    (.pdWait p)).disarm (.keepAlive p)).disarm (.reclose p)

/-- `PD_CONTRACT_STABLE` falls when it is 1 (R557). -/
def Hub.pdUnstable (h : Hub) (p : Fin 2) : Hub :=
  (if h.flag (Obj.PD_CONTRACT_STABLE p.val) then h.contractHold p else h).disarm (.pdStable p)

/-- Jensar mode or its discovery ends: the link goes down with cause 6, or its training stops (R560, R565). A refusal stands until a new
attach or a write of `PD_JENSAR_ENTRY`. -/
def Hub.jensarEnd (h : Hub) (p : Fin 2) : Hub :=
  let h := if h.get (Obj.PD_MODE p.val) = 3 then h else h.put (Obj.PD_MODE p.val) 0
  let h := h.setPd p fun s => { s with vdm := 0, silent := 0 }
  if h.linkUp p then (h.linkDown p 6 false).setLink p fun k => { k with mode := false }
  else if h.links[p].mode then
    let h := ((((h.stopTimers p).disarm (.backoff p)).lanesOff p).l0Gone p).put (Obj.LINK_STATE p) 0
    ((h.put (Obj.TK_RATE p) 0).setEnd p 0).setLink p fun k => { k with mode := false }
  else h

/-- An attached policy engine at the start of its states: the contract objects at 0. -/
def Hub.pdNoContract (h : Hub) (p : Fin 2) : Hub :=
  (((h.put (Obj.PD_CONTRACT_MV p.val) 0).put (Obj.PD_CONTRACT_MA p.val) 0).put (Obj.PD_CONTRACT_POS p.val) 0).put
    (Obj.PD_EPR_ACTIVE p.val) 0

/-- A disabled engine that is enabled is unattached (R550). -/
def Hub.pdWake (h : Hub) (p : Fin 2) : Hub := if h.pdState p = 0 ∧ h.flag (Obj.PD_ENABLE p.val) then h.pdTo p 1 else h

/-- The Kettle starts on a port: unattached, with the first Rp phase timed (R547, R550). -/
def Hub.kettleStart (h : Hub) (p : Fin 2) : Hub :=
  ((h.setPd p fun s => { s with on := true, cap := none }).pdWake p).arm (.drp p) (ms (5 * (h.get Obj.UNIT_ID % 8)))

/-! ### Capabilities and requests (R551 to R555) -/

/-- A source may enter EPR mode: the cable carries 5 A, and EPR is on (R552, R568). -/
def Hub.eprAllowed (h : Hub) (p : Fin 2) : Bool :=
  h.eff (Obj.PD_CABLE_MAX_MA p.val) == 5000 && h.eff (Obj.PD_EPR_ENABLE p.val) == 1

/-- The source power objects in effect as offered: positions 1 to 7, and 8 to 11 in EPR mode, at the lesser of their current and the
cable's; position 1 alone without a converter code, the SPR positions alone with a cable of 3 A or with EPR off (R546, R551, R552). -/
def Hub.pdOffer (h : Hub) (p : Fin 2) : List PdPower :=
  (List.range 11).filterMap fun k =>
    let v := h.get (Obj.SRC_PDO p.val k)
    if v = 0 ∨ (7 ≤ k ∧ !(h.flag (Obj.PD_EPR_ACTIVE p.val) && h.eprAllowed p)) ∨ (k ≠ 0 ∧ !h.hasCode p) then none
    else some ⟨k + 1, 50 * field v 19 10, min (10 * field v 9 0) (h.eff (Obj.PD_CABLE_MAX_MA p.val))⟩

/-- Bits [29:22] of position 1 from the hub's settings (R551, log entry 46). -/
def Hub.pdoOwnBits (h : Hub) (p : Fin 2) : Nat :=
  (if h.eff (Obj.PD_POWER_CAP p.val) = 2 then 2 ^ 29 else 0) + 2 ^ 25 +
    (if h.eprAllowed p then 2 ^ 23 else 0)

/-- The word of an offered object. -/
def Hub.pdoWord (h : Hub) (p : Fin 2) (x : PdPower) : Nat :=
  x.mv / 50 * 1024 + x.ma / 10 + (if x.pos = 1 then h.pdoOwnBits p else 0)

/-- Capabilities sent. -/
def Hub.pdSendCaps (h : Hub) (p : Fin 2) : Hub :=
  let h := h.pdTake p .caps
  let offer := h.pdOffer p
  let h := h.setPd p fun s => { s with offered := offer, newCaps := false }
  h.pdSend p (.sourceCaps (h.flag (Obj.PD_EPR_ACTIVE p.val)) (offer.map fun x => (x.pos, h.pdoWord p x)))

/-- New capabilities at a source: sent in state 3, or after the state that runs (R551, R552). -/
def Hub.pdCapsChanged (h : Hub) (p : Fin 2) : Hub :=
  if !h.isSource p then h
  else if !h.pdRuns p then h.pdSendCaps p
  else h.setPd p fun s => { s with newCaps := true }

/-- The current a sink asks for: the group's, never above the cable's. -/
def Hub.pdWantMa (h : Hub) (p : Fin 2) : Nat := min (h.get (Obj.PD_REQ_MA p.val)) (h.eff (Obj.PD_CABLE_MAX_MA p.val))

/-- A request refused: the result, the event and the attention bit. -/
def Hub.pdRefused (h : Hub) (p : Fin 2) (result : Nat) : Hub :=
  ((h.put (Obj.PD_LAST_RESULT p.val) result).event 0x50 (Obj.PD_LAST_RESULT p.val)).pdAttn p 1

/-- A Request sent. -/
def Hub.pdSendRequest (h : Hub) (p : Fin 2) (x : PdPower) : Hub :=
  (h.setPd p fun s => { s with ask := some .request, asked := x }).pdSend p (.request (h.flag (Obj.PD_EPR_ACTIVE p.val)) x.pos x.ma)

/-- Position 1 of the capabilities received. -/
def Hub.pdFirst (h : Hub) (p : Fin 2) : PdPower := ((h.pd[p]).got.find? fun x => x.pos == 1).getD ⟨1, 5000, 0⟩

/-- A sink's choice (R554). The first contract after an attach is made at 5 V (R561). -/
def Hub.pdChoose (h : Hub) (p : Fin 2) : Hub :=
  let h := h.pdTake p .caps
  let mv := h.get (Obj.PD_REQ_MV p.val)
  let ma := h.pdWantMa p
  let one := h.pdFirst p
  if !(h.pd[p]).made ∧ mv ≠ 5000 then h.pdSendRequest p ⟨1, one.mv, min ma one.ma⟩
  else if 20000 < mv ∧ !h.flag (Obj.PD_EPR_ACTIVE p.val) ∧ h.eff (Obj.PD_EPR_ENABLE p.val) = 1 then
    (h.setPd p fun s => { s with ask := some .eprEnter }).pdSend p .eprEnter
  else match (h.pd[p]).got.find? (fun x => x.mv == mv && Nat.ble ma x.ma) with
    | some x => h.pdSendRequest p ⟨x.pos, x.mv, ma⟩
    | none => (h.pdRefused p 5).pdSendRequest p ⟨1, one.mv, min ma one.ma⟩

/-- The objects a sink's Sink_Capabilities list, in mV and mA: 5 V at the group's current and the group's voltage when that differs, and
the code of its Fast Role Swap current (R554). The message that asks for them is no row of the table (log entry 95). -/
def Hub.pdSinkCaps (h : Hub) (p : Fin 2) : List (Nat × Nat) × Nat :=
  let mv := h.get (Obj.PD_REQ_MV p.val)
  let ma := h.pdWantMa p
  ((5000, ma) :: (if mv = 5000 then [] else [(mv, ma)]), h.get (Obj.PD_FRS_CURRENT p.val))

/-- A commit of a request group: asked again in state 3, else at the request that the state leads to (R553). -/
def Hub.pdReqChanged (h : Hub) (p : Fin 2) : Hub :=
  let h := (h.setPd p fun s => { s with stopped := false, waits := 0 }).disarm (.pdWait p)
  if !h.isSink p then h
  else if !h.pdRuns p then h.pdChoose p
  else if (h.pd[p]).made && !(h.pd[p]).cmds.contains .request then h.setPd p fun s => { s with cmds := s.cmds ++ [.request] }
  else h

/-- The checks of a commit of `SRC_PDO` (R551). -/
def Hub.srcPdoOk (h : Hub) (g : Staged) (p : Nat) : Bool :=
  let v := fun k => h.newVal g (Obj.SRC_PDO p k)
  let mv := fun k => 50 * field (v k) 19 10
  let ma := fun k => 10 * field (v k) 9 0
  let ascending := fun (ks : List Nat) => ks.all fun k => ks.all fun j =>
    !(Nat.ble (k + 1) j) || v j == 0 || (v k != 0 && Nat.ble (mv k + 1) (mv j))
  let spr := List.range 7
  let epr := [7, 8, 9, 10]
  mv 0 == 5000 && ((List.range 11).all fun k => field (v k) 31 30 == 0 && Nat.ble (ma k) 5000 && Nat.ble (mv k * ma k) 240000000) &&
    (spr.all fun k => Nat.ble (mv k) 20000) && (epr.all fun k => v k == 0 || [28000, 36000, 48000].contains (mv k)) &&
    ascending spr && ascending epr &&
    (h.eff (Obj.PD_VSEL_GPIO p) != 0xFF || (List.range 11).all fun k => k == 0 || v k == 0)

/-- The checks of a commit of a request group (R553). -/
def Hub.pdReqOk (h : Hub) (g : Staged) (p : Nat) : Bool :=
  let mv := h.newVal g (Obj.PD_REQ_MV p)
  let ma := h.newVal g (Obj.PD_REQ_MA p)
  [5000, 9000, 15000, 20000, 28000, 36000, 48000].contains mv && Nat.ble ma 5000 && Nat.ble ma (h.get (Obj.PD_CABLE_MAX_MA p)) &&
    (Nat.ble mv 20000 || h.flag (Obj.PD_EPR_ENABLE p))

/-! ### Discovery (R559, R560) -/

/-- A VDM of the discovery sent. -/
def Hub.pdSendVdm (h : Hub) (p : Fin 2) (command : Nat) : Hub :=
  (h.setPd p fun s => { s with vdm := command }).pdSend p (.vdm command (if command ≤ 2 then 0xFF00 else h.eff (Obj.PD_SVID p.val)))

/-- The DFP starts discovery. -/
def Hub.pdDiscover (h : Hub) (p : Fin 2) : Hub :=
  if h.get (Obj.PD_DATA_ROLE p.val) = 2 ∧ h.flag (Obj.PD_JENSAR_ENTRY p.val) ∧ h.pdState p = 3 ∧
      (h.get (Obj.PD_MODE p.val) = 0 ∨ h.get (Obj.PD_MODE p.val) = 3) then
    (((h.pdTake p .discovery).put (Obj.PD_MODE p.val) 1).setPd p fun s => { s with silent := 0 }).pdSendVdm p 1
  else h

/-- The second request of a sink whose group asks for more than 5 V, once discovery has ended (R561); a sink that has stopped or that
waits to ask again does not make it (R558). -/
def Hub.pdSecond (h : Hub) (p : Fin 2) : Hub :=
  if h.isSink p && !h.pdRuns p && !(h.pd[p]).stopped && !h.armed (.pdWait p) && h.get (Obj.PD_REQ_MV p.val) != h.get (Obj.PD_CONTRACT_MV p.val) &&
      (h.get (Obj.PD_MODE p.val) == 2 || h.get (Obj.PD_MODE p.val) == 3 || !h.flag (Obj.PD_JENSAR_ENTRY p.val)) then h.pdChoose p
  else h

/-- Jensar mode entered. -/
def Hub.pdEntered (h : Hub) (p : Fin 2) : Hub :=
  let h := ((h.put (Obj.PD_MODE p.val) 2).pdAttn p 5).setPd p fun s => { s with vdm := 0 }
  (h.modeEntered p).pdSecond p

/-- Mode entry refused. -/
def Hub.pdModeRefused (h : Hub) (p : Fin 2) : Hub :=
  let h := ((h.put (Obj.PD_MODE p.val) 3).pdAttn p 6).setPd p fun s => { s with vdm := 0 }
  (h.event 0x53 (Obj.PD_MODE p.val)).pdSecond p

/-! ### The ends of sequences -/

/-- A Hard Reset, sent or received (R567). -/
def Hub.pdHardReset (h : Hub) (p : Fin 2) (sent : Bool) : Hub :=
  if h.pdState p < 2 ∨ 5 < h.pdState p then h
  else
    let h := if sent then h.pdSend p .hardReset else h
    let h := ((h.pdUnstable p).pdTimersOff p).jensarEnd p
    let src := h.isSource p
    let h := h.setPd p fun s => { s with
      ven := false, vdis := src, capsOk := false, tries := 0, offered := [], got := [], ask := none, next := none, newCaps := false,
      waits := 0, stopped := false, made := false, swap := .none, frsArmed := false }
    let h := ((h.setCode p 0).pdNoContract p).pdTo p 6
    let h := if src then h.arm (.reclose p) (ms 700) else h
    ((((h.bump (Obj.HARD_RESETS p.val)).put (Obj.PD_LAST_RESULT p.val) 7).event 0x51 (Obj.PD_STATE p.val)).pdAttn p 3)

/-- A request or command that nothing holds back starts (R553, R562, R564). -/
def Hub.pdStart (h : Hub) (p : Fin 2) (a : PdAsk) : Hub :=
  match a with
  | .request => if h.isSink p then h.pdChoose p else h
  | .prSwap => (h.setPd p fun s => { s with ask := some .prSwap }).pdSend p .prSwap
  | .drSwap =>
    if h.get (Obj.PD_MODE p.val) = 0 ∨ h.get (Obj.PD_MODE p.val) = 3 then
      (h.setPd p fun s => { s with ask := some .drSwap }).pdSend p .drSwap
    else h
  | .getCaps => h.pdSend p .getSourceCap
  | .hardReset => h.pdHardReset p true
  | .discover => h.pdDiscover p
  | .eprEnter => h
  | .frSwap => h

/-- The oldest waiting request or command starts when no sequence runs. -/
def Hub.pdRelease (h : Hub) (p : Fin 2) : Hub :=
  match (h.pd[p]).cmds with
  | a :: rest => if h.pdRuns p then h else (h.setPd p fun s => { s with cmds := rest }).pdStart p a
  | [] => h

/-- The end of a sequence: a source sends the capabilities and starts the commands that waited; a sink's wait for SinkTxOK. -/
def Hub.pdSettled (h : Hub) (p : Fin 2) : Hub :=
  if h.isSource p && !h.pdRuns p then (if (h.pd[p]).newCaps then h.pdSendCaps p else h.pdRelease p) else h

/-- State 3 with a contract in effect (R550, R556 steps 5 and 6). -/
def Hub.pdContract (h : Hub) (p : Fin 2) (x : PdPower) : Hub :=
  let first := !(h.pd[p]).made
  let h := ((h.put (Obj.PD_CONTRACT_MV p.val) x.mv).put (Obj.PD_CONTRACT_MA p.val) x.ma).put (Obj.PD_CONTRACT_POS p.val) x.pos
  let h := (h.setPd p fun s => { s with next := none, ask := none, made := true, swap := .none, vdis := false }).pdTake p .contract
  let h := (((h.pdTo p 3).pdAttn p 0).disarm (.pdRdy p)).disarm (.vbusSettle p)
  let h := if h.flag (Obj.PD_CONTRACT_STABLE p.val) then h else h.arm (.pdStable p) (ms 5)
  let h := if first then (if h.get (Obj.PD_MODE p.val) = 0 then h.pdDiscover p else h).pdSecond p else h
  h.pdSettled p

/-- An explicit contract made. -/
def Hub.pdMade (h : Hub) (p : Fin 2) (x : PdPower) : Hub := (h.bump (Obj.CONTRACTS p.val)).pdContract p x

/-- A role swap completed in the roles given, at position 1 (R562, R563); VBUS at vSafe5V, the new source sends its capabilities (R550).
The current of the far source's position 1 is not stated to the new sink: a free value. -/
def Hub.pdSwapped (h : Hub) (p : Fin 2) (role : Nat) : Hub :=
  let ma := if role = 2 then min (10 * field (h.get (Obj.SRC_PDO p.val 0)) 9 0) (h.eff (Obj.PD_CABLE_MAX_MA p.val)) else h.free 16
  let h := if role = 2 then h else h.used
  let h := ((h.put (Obj.PD_POWER_ROLE p.val) role).put (Obj.PD_EPR_ACTIVE p.val) 0).disarm (.keepAlive p)
  let h := h.setPd p fun s => { s with offered := [], got := [], frsArmed := false, newCaps := role == 2 }
  let h := h.pdContract p ⟨1, 5000, ma⟩
  ((h.bump (Obj.PD_ROLE_SWAPS p.val)).event 0x52 (Obj.PD_POWER_ROLE p.val)).pdAttn p 4

/-- Entry to state 5 in a part of a swap. -/
def Hub.pdSwapEnter (h : Hub) (p : Fin 2) (part : PdSwap) : Hub :=
  ((h.pdUnstable p).pdTo p 5).setPd p fun s => { s with ask := none, swap := part }

/-- The source of a PR_Swap leaves VBUS: its path opens and VBUS goes to vSafe0V. -/
def Hub.pdVbusOff (h : Hub) (p : Fin 2) : Hub := (h.setPd p fun s => { s with ven := false, vdis := true }).setCode p 0

/-- The data roles exchanged (R562). -/
def Hub.pdDataSwapped (h : Hub) (p : Fin 2) : Hub :=
  let r := h.get (Obj.PD_DATA_ROLE p.val)
  let h := (h.put (Obj.PD_DATA_ROLE p.val) (if r = 1 then 2 else if r = 2 then 1 else r)).setPd p fun s => { s with ask := none }
  ((h.bump (Obj.PD_ROLE_SWAPS p.val)).event 0x52 (Obj.PD_POWER_ROLE p.val)).pdAttn p 4

/-! ### Attach and detach (R547, R548, R565, R566) -/

/-- The Kettle does not run on the port, so that TKn_CC presents Rd (R37, R547). -/
def Hub.kettleOff (h : Hub) (p : Fin 2) : Bool := !(h.pd[p]).on

/-- The power-role capability a port presents; RSTn leaves it as it was (R33, R547). -/
def Hub.powerCap (h : Hub) (p : Fin 2) : Nat := (h.pd[p]).cap.getD (h.get (Obj.PD_POWER_CAP p.val))

/-- The port presents Rp while unattached. -/
def Hub.presentsRp (h : Hub) (p : Fin 2) : Bool :=
  !h.kettleOff p && match h.powerCap p with
    | 0 => false
    | 1 => true
    | _ => (h.pd[p]).rp

/-- A source's Rp is SinkTxNG: an atomic message sequence of its own runs (R564). -/
def Hub.sinkTxNg (h : Hub) (p : Fin 2) : Bool :=
  h.isSource p && (h.pdState p == 4 || h.pdState p == 5 || (h.pd[p]).ask.isSome || (h.pd[p]).next.isSome || (h.pd[p]).vdm != 0)

/-- The termination a port presents on TKn_CC is Rp. -/
def Hub.ccRp (h : Hub) (p : Fin 2) : Bool := if Nat.ble 2 (h.pdState p) then h.isSource p else h.presentsRp p

/-- A far source that finds the Rd of a hub that does not run feeds it (R37). -/
def Hub.setFed (h : Hub) (p : Fin 2) (fed : Bool) : Hub := h.setPd p fun s => { s with fed := fed }

/-- Meaning of PD_ATTACH: the far termination has been present for 5 ms. -/
def execPdAttach (p : Fin 2) (farRp : Bool) (s : State) : Host.Outcome State Fault Refusal :=
  if s.hub.kettleOff p then s.always fun h => if farRp then h.setFed p true else h
  else s.always fun h =>
    let h := (h.setFed p false).pdWake p
    if h.pdState p ≠ 1 ∨ h.presentsRp p = farRp then h
    else
      let h := (h.takeUnit .attach fun w => keyIdx w.key == 0x7000 + 0x100 * p.val).disarm (.drp p)
      let src := !farRp
      let h := (h.setPd p fun s => { ({} : PdSt) with on := s.on, cap := s.cap, rp := s.rp, ven := true }).bump (Obj.ATTACHES p.val)
      let h := h.setCode p (if src then 1 else 0)
      ((h.put (Obj.PD_POWER_ROLE p.val) (if src then 2 else 1)).put (Obj.PD_DATA_ROLE p.val) (if src then 2 else 1)).pdTo p 2

/-- The detach actions of R565 and R566. -/
def Hub.pdDetached (h : Hub) (p : Fin 2) : Hub :=
  if h.pdState p < 2 then h
  else
    let aborted := h.pdState p == 4 || h.pdState p == 5
    let h := (((h.pdUnstable p).pdTimersOff p).jensarEnd p).put (Obj.PD_MODE p.val) 0
    let h := h.setPd p fun s => { ({} : PdSt) with on := s.on, cap := s.cap, rp := s.rp, vdis := true }
    let h := (h.setCode p 0).pdNoContract p
    let h := ((h.put (Obj.PD_POWER_ROLE p.val) 0).put (Obj.PD_DATA_ROLE p.val) 0).pdTo p 1
    let h := ((h.event 0x4E (Obj.PD_STATE p.val)).pdAttn p 7).arm (.drp p) (ms 20)
    if aborted then
      ((((h.bump (Obj.TRANSITIONS_ABORTED p.val)).put (Obj.PD_LAST_RESULT p.val) 4).event 0x4F (Obj.PD_LAST_RESULT p.val)).pdAttn p 2)
    else h

/-- Meaning of PD_DETACH. -/
def execPdDetach (p : Fin 2) (s : State) : Host.Outcome State Fault Refusal :=
  if s.hub.kettleOff p then s.always fun h => h.setFed p false else s.always fun h => (h.setFed p false).pdDetached p

/-- `PD_ENABLE` written (R550). -/
def Hub.pdEnableWritten (h : Hub) (p : Fin 2) : Hub :=
  if h.flag (Obj.PD_ENABLE p.val) then (if h.pdState p = 0 then h.kettleStart p else h)
  else ((h.pdDetached p).pdTo p 0).disarm (.drp p)

/-- `PD_JENSAR_ENTRY` = 1 written: the DFP tries again, after the sequence that runs (R560). -/
def Hub.pdEntryWritten (h : Hub) (p : Fin 2) : Hub :=
  if !h.pdRuns p then h.pdDiscover p
  else if (h.pd[p]).made && !(h.pd[p]).cmds.contains .discover then h.setPd p fun s => { s with cmds := s.cmds ++ [.discover] }
  else h

/-- Meaning of DRP_TOGGLE. -/
def execDrpToggle (p : Fin 2) (s : State) : Host.Outcome State Fault Refusal :=
  s.kept fun h =>
    if h.pdState p = 1 ∧ !h.kettleOff p ∧ h.powerCap p = 2 ∧ (h.due (.drp p) ∨ !h.armed (.drp p)) then
      (h.setPd p fun s => { s with rp := !s.rp }).arm (.drp p) (ms 20)
    else h

/-! ### Contracts (R550 to R558) -/

/-- A source in state 6 whose path is closed again finds VBUS at vSafe5V (R550). -/
def Hub.pdBack (h : Hub) (p : Fin 2) : Hub :=
  if h.pdState p = 6 ∧ h.isSource p ∧ (h.pd[p]).ven then h.pdTo p 2 else h

/-- Meaning of SOURCE_CAPABILITIES_SEND. -/
def execSourceCapabilitiesSend (p : Fin 2) (good : Bool) (s : State) : Host.Outcome State Fault Refusal :=
  s.kept fun h =>
    let h := h.pdBack p
    let x := h.pd[p]
    if !h.isSource p then h
    else if h.pdState p = 2 ∧ !x.capsOk ∧ x.tries < 50 ∧ (x.tries = 0 ∨ h.due (.pdCaps p)) then
      let h := (h.pdSendCaps p).setPd p fun s => { s with tries := s.tries + 1, capsOk := good }
      if good then h.disarm (.pdCaps p) else h.arm (.pdCaps p) (ms 10)
    else if !h.pdRuns p ∧ x.newCaps then h.pdSendCaps p
    else h

/-- Meaning of SOURCE_CAPABILITIES_RX. -/
def execSourceCapabilitiesRx (p : Fin 2) (epr : Bool) (caps : List (Fin 12 × W16 × W16)) (s : State) : Host.Outcome State Fault Refusal :=
  s.kept fun h =>
    if !h.isSink p ∨ (h.pdState p ≠ 2 ∧ h.pdState p ≠ 3) then h
    else
      let got := caps.map fun c => ({ pos := c.1.val, mv := c.2.1.toNat, ma := c.2.2.toNat } : PdPower)
      let entered := epr && (h.pd[p]).ask == some .eprEnter
      let h := (h.setPd p fun s => { s with got := got, ask := none, waits := 0, stopped := false }).disarm (.pdWait p)
      let h := if entered then (h.put (Obj.PD_EPR_ACTIVE p.val) 1).arm (.keepAlive p) (ms 300) else h
      h.pdChoose p

/-- A request that stops the gates: the contract to come has another voltage. -/
def Hub.pdMoves (h : Hub) (p : Fin 2) (x : PdPower) : Bool :=
  x.mv != (if h.get (Obj.PD_CONTRACT_MV p.val) = 0 then 5000 else h.get (Obj.PD_CONTRACT_MV p.val))

/-- Meaning of REQUEST_RX. -/
def execRequestRx (p : Fin 2) (pos : Fin 16) (ma : W16) (s : State) : Host.Outcome State Fault Refusal :=
  s.kept fun h =>
    if !h.isSource p ∨ (h.pdState p ≠ 2 ∧ h.pdState p ≠ 3) then h
    else match (h.pd[p]).offered.find? (fun x => x.pos == pos.val && Nat.ble ma.toNat x.ma) with
      | none => h.pdSend p .reject
      | some x =>
        let x := { x with ma := ma.toNat }
        let h := (h.setPd p fun s => { s with capsOk := true }).disarm (.pdCaps p)
        let h := h.pdSend p .accept
        if h.pdMoves p x then
          let h := (h.pdUnstable p).setPd p fun s => { s with next := some x }
          let h := if h.pdState p = 3 then h.pdTo p 4 else h
          h.arm (.pdCode p) (ms 27)
        else (h.pdSend p .psRdy).pdMade p x

/-- Meaning of PD_TRANSITION_CODE_SET. -/
def execPdTransitionCodeSet (p : Fin 2) (s : State) : Host.Outcome State Fault Refusal :=
  s.kept fun h =>
    match h.due (.pdCode p), (h.pd[p]).next with
    | true, some x =>
      let falls := Nat.ble (x.mv + 1) (h.get (Obj.PD_CONTRACT_MV p.val))
      ((((h.disarm (.pdCode p)).setCode p x.pos).setPd p fun s => { s with vdis := falls })).arm (.vbusSettle p) (ms 400)
    | _, _ => h

/-- VBUS at vSafe0V: below the 0.8 V to which it is discharged (R544, R565). -/
def vSafe0 (mv : Nat) : Bool := Nat.ble mv 799

/-- VBUS within ±5 % of a voltage (R556). -/
def withinFive (mv target : Nat) : Bool := Nat.ble (95 * target) (100 * mv) && Nat.ble (100 * mv) (105 * target)

/-- Meaning of VBUS_SETTLED: VBUS settled at `mv`: at the new voltage in a transition, at vSafe0V or at 5 V in a swap and after a Hard
Reset, below 0.8 V after a detach. -/
def execVbusSettled (p : Fin 2) (mv : W16) (s : State) : Host.Outcome State Fault Refusal :=
  s.kept fun h =>
    let x := h.pd[p]
    let mv := mv.toNat
    match h.pdState p with
    | 0 => if vSafe0 mv then h.setPd p fun s => { s with vdis := false } else h
    | 1 => if vSafe0 mv then h.setPd p fun s => { s with vdis := false } else h
    | 5 =>
      if x.swap = .oldSource ∧ x.vdis ∧ vSafe0 mv then (h.setPd p fun s => { s with vdis := false }).pdSend p .psRdy
      else if x.swap = .newSource ∧ x.ven ∧ withinFive mv 5000 then (h.pdSend p .psRdy).pdSwapped p 2
      else h
    | 6 =>
      if !x.ven ∧ vSafe0 mv then h.setPd p fun s => { s with vdis := false }
      else if withinFive mv 5000 then h.pdBack p
      else h
    | _ =>
      match x.next with
      | some n => if h.isSource p ∧ h.armed (.vbusSettle p) ∧ withinFive mv n.mv then (h.pdSend p .psRdy).pdMade p n else h
      | none => h

/-- Meaning of VBUS_SETTLE_TIMEOUT. -/
def execVbusSettleTimeout (p : Fin 2) (s : State) : Host.Outcome State Fault Refusal :=
  s.kept fun h => if h.due (.vbusSettle p) ∧ (h.pd[p]).next.isSome then h.pdHardReset p true else h

/-- What the far end's acceptance of a message of the port begins: the voltage asked for, a swap, or nothing (R545, R551 to R554). -/
def Hub.pdAccepted (h : Hub) (p : Fin 2) (k : PdAsk) : Hub :=
  match k with
  | .request =>
    let x := (h.pd[p]).asked
    let h := (h.put (Obj.PD_LAST_RESULT p.val) 1).setPd p fun s => { s with ask := none, next := some x, waits := 0 }
    let h := h.arm (.pdRdy p) (ms (if h.flag (Obj.PD_EPR_ACTIVE p.val) then 1020 else 550))
    if h.pdMoves p x then
      let h := h.pdUnstable p
      if h.pdState p = 3 then h.pdTo p 4 else h
    else h
  | .prSwap =>
    if h.isSource p then (h.pdSwapEnter p .oldSource).pdVbusOff p
    else ((h.pdSwapEnter p .newSource).setPd p fun s => { s with ven := false }).arm (.pdRdy p) (ms 550)
  | .drSwap => (h.pdDataSwapped p).pdSettled p
  | .frSwap => if h.isSink p then h.pdSwapEnter p .frsNewSource else h
  | _ => h

/-- Meaning of ACCEPT_RX. -/
def execAcceptRx (p : Fin 2) (s : State) : Host.Outcome State Fault Refusal :=
  s.kept fun h => match (h.pd[p]).ask with
    | some k => h.pdAccepted p k
    | none => h

/-- Meaning of REJECT_RX: Reject, or Enter Failed. -/
def execRejectRx (p : Fin 2) (s : State) : Host.Outcome State Fault Refusal :=
  s.kept fun h =>
    let h' := h.setPd p fun s => { s with ask := none, waits := 0 }
    match (h.pd[p]).ask with
    | some .request => h'.pdRefused p 2
    | some .eprEnter => h'.pdRefused p 2
    | some .prSwap => (h'.put (Obj.PD_LAST_RESULT p.val) 2).pdSettled p
    | some .drSwap => (h'.put (Obj.PD_LAST_RESULT p.val) 2).pdSettled p
    | some .frSwap => if h.isSink p then h'.put (Obj.PD_LAST_RESULT p.val) 2 else h
    | _ => h

/-- Meaning of WAIT_RX. -/
def execWaitRx (p : Fin 2) (s : State) : Host.Outcome State Fault Refusal :=
  s.kept fun h =>
    let a := (h.pd[p]).ask
    if a = some .request ∨ a = some .eprEnter then
      let h := h.setPd p fun s => { s with ask := none, waits := s.waits + 1 }
      let m := h.get (Obj.PD_WAIT_MAX p.val)
      if m ≠ 0 ∧ m ≤ (h.pd[p]).waits then (h.setPd p fun s => { s with stopped := true }).pdRefused p 3
      else h.arm (.pdWait p) (ms (h.get (Obj.PD_WAIT_RETRY p.val)))
    else if a.isSome then (h.setPd p fun s => { s with ask := none }).pdSettled p
    else h

/-- Meaning of WAIT_RETRY. -/
def execWaitRetry (p : Fin 2) (s : State) : Host.Outcome State Fault Refusal :=
  s.kept fun h =>
    if h.due (.pdWait p) ∧ h.isSink p ∧ !(h.pd[p]).stopped ∧ (h.pd[p]).ask = none ∧ (h.pdState p = 2 ∨ h.pdState p = 3) then
      ((h.disarm (.pdWait p)).bump (Obj.WAIT_RETRIES p.val)).pdChoose p
    else h

/-- Meaning of PS_RDY_RX. -/
def execPsRdyRx (p : Fin 2) (s : State) : Host.Outcome State Fault Refusal :=
  s.kept fun h =>
    let x := h.pd[p]
    if h.pdState p = 5 then
      match x.swap with
      | .newSource => ((h.setPd p fun s => { s with ven := true }).setCode p 1).disarm (.pdRdy p)
      | .frsNewSource => (h.pdSend p .psRdy).pdSwapped p 2
      | .oldSource => if x.vdis then h else (h.setPd p fun s => { s with ven := true }).pdSwapped p 1
      | .frsOldSource => (h.setPd p fun s => { s with ven := true }).pdSwapped p 1
      | .none => h
    else match x.next with
      | some n => if h.isSink p then h.pdMade p n else h
      | none => h

/-- Meaning of PS_RDY_TIMEOUT. -/
def execPsRdyTimeout (p : Fin 2) (s : State) : Host.Outcome State Fault Refusal :=
  s.kept fun h => if h.due (.pdRdy p) then h.pdHardReset p true else h

/-- Meaning of CONTRACT_STABLE_TIMER. -/
def execContractStableTimer (p : Fin 2) (s : State) : Host.Outcome State Fault Refusal :=
  s.kept fun h => if h.due (.pdStable p) ∧ h.pdState p = 3 then (h.disarm (.pdStable p)).contractStable p else h

/-- Meaning of EPR_MODE_ENTER_RX. -/
def execEprModeEnterRx (p : Fin 2) (s : State) : Host.Outcome State Fault Refusal :=
  s.kept fun h =>
    if !h.isSource p ∨ h.pdState p ≠ 3 then h
    else if h.eprAllowed p then
      (((h.pdSend p .eprAcknowledged).pdSend p .eprSucceeded).put (Obj.PD_EPR_ACTIVE p.val) 1).pdSendCaps p
    else h.pdSend p .eprFailed

/-- Meaning of EPR_KEEPALIVE_SEND. -/
def execEprKeepaliveSend (p : Fin 2) (s : State) : Host.Outcome State Fault Refusal :=
  s.kept fun h =>
    if h.isSink p ∧ h.flag (Obj.PD_EPR_ACTIVE p.val) ∧ h.due (.keepAlive p) then
      (h.pdSend p .eprKeepAlive).arm (.keepAlive p) (ms 300)
    else h

/-- Meaning of EPR_KEEPALIVE_TIMEOUT: no EPR_KeepAlive heard for 1 s. -/
def execEprKeepaliveTimeout (p : Fin 2) (s : State) : Host.Outcome State Fault Refusal :=
  s.kept fun h => if h.isSource p ∧ h.flag (Obj.PD_EPR_ACTIVE p.val) then h.pdHardReset p true else h

/-! ### VDMs (R559, R560) -/

/-- The port answers VDMs as a UFP with a contract. -/
def Hub.pdAnswers (h : Hub) (p : Fin 2) : Bool := h.get (Obj.PD_DATA_ROLE p.val) == 1 && Nat.ble 3 (h.pdState p) && h.pdState p != 6

/-- A VDM to an attached port that is no UFP gets NAK. -/
def Hub.pdVdm (h : Hub) (p : Fin 2) (command svid : Nat) (answer : Hub → Hub) : Hub :=
  if h.pdState p < 2 ∨ h.pdState p = 6 then h
  else if h.pdAnswers p then answer h
  else h.pdSend p (.vdmNak command svid)

/-- A UFP takes part in a discovery. -/
def Hub.pdDiscovered (h : Hub) (p : Fin 2) : Hub :=
  if h.get (Obj.PD_MODE p.val) = 2 then h else h.put (Obj.PD_MODE p.val) 1

/-- A NAK within a discovery. -/
def Hub.pdNak (h : Hub) (p : Fin 2) (command svid : Nat) : Hub :=
  let h := h.pdSend p (.vdmNak command svid)
  if h.get (Obj.PD_MODE p.val) = 2 then h else h.pdModeRefused p

/-- Meaning of DISCOVER_IDENTITY_RX. -/
def execDiscoverIdentityRx (p : Fin 2) (s : State) : Host.Outcome State Fault Refusal :=
  s.kept fun h => h.pdVdm p 1 0xFF00 fun h =>
    let h := h.pdTake p .discovery
    (h.pdDiscovered p).pdSend p (.identityAck (h.eff (Obj.PD_SVID p.val)) 0 (0x48160000 + h.get Obj.STEPPING))

/-- Meaning of DISCOVER_SVIDS_RX. -/
def execDiscoverSvidsRx (p : Fin 2) (s : State) : Host.Outcome State Fault Refusal :=
  s.kept fun h => h.pdVdm p 2 0xFF00 fun h => (h.pdDiscovered p).pdSend p (.svidsAck (h.eff (Obj.PD_SVID p.val)))

/-- Meaning of DISCOVER_MODES_RX. -/
def execDiscoverModesRx (p : Fin 2) (svid : W16) (s : State) : Host.Outcome State Fault Refusal :=
  s.kept fun h => h.pdVdm p 3 svid.toNat fun h =>
    if svid.toNat = h.eff (Obj.PD_SVID p.val) then
      (h.pdDiscovered p).pdSend p (.modesAck svid.toNat
        (h.get (Obj.TK_RATES_ALLOWED p.val) % 16 + 16 + 256 * (h.get Obj.ROLE_ACTIVE % 4)))
    else h.pdNak p 3 svid.toNat

/-- Meaning of ENTER_MODE_RX. -/
def execEnterModeRx (p : Fin 2) (svid : W16) (mode : Fin 8) (s : State) : Host.Outcome State Fault Refusal :=
  s.kept fun h => h.pdVdm p 4 svid.toNat fun h =>
    if svid.toNat = h.eff (Obj.PD_SVID p.val) ∧ mode.val = 1 ∧ h.eff (Obj.PD_JENSAR_ENTRY p.val) = 1 then
      let h := h.pdSend p (.enterAck svid.toNat)
      if h.get (Obj.PD_MODE p.val) = 2 then h else h.pdEntered p
    else h.pdNak p 4 svid.toNat

/-- Meaning of EXIT_MODE_RX. -/
def execExitModeRx (p : Fin 2) (svid : W16) (s : State) : Host.Outcome State Fault Refusal :=
  s.kept fun h => h.pdVdm p 5 svid.toNat fun h => h.pdSend p (.vdmNak 5 svid.toNat)

/-- Meaning of VDM_RESPONSE_RX: 0 ACK, 1 NAK, 2 no answer. -/
def execVdmResponseRx (p : Fin 2) (answer : Fin 3) (svid : W16) (s : State) : Host.Outcome State Fault Refusal :=
  s.kept fun h =>
    let x := h.pd[p]
    if x.vdm = 0 ∨ h.get (Obj.PD_DATA_ROLE p.val) ≠ 2 then h
    else match answer.val with
      | 0 =>
        if x.vdm = 1 then h.pdSendVdm p 2
        else if svid.toNat ≠ h.eff (Obj.PD_SVID p.val) then h.pdModeRefused p
        else if x.vdm ≤ 3 then h.pdSendVdm p (x.vdm + 1)
        else h.pdEntered p
      | 1 => h.pdModeRefused p
      | _ =>
        let h := h.setPd p fun s => { s with silent := s.silent + 1 }
        if 4 ≤ x.silent + 1 then h.pdModeRefused p else h.pdSendVdm p x.vdm

/-! ### Commands and swaps (R562 to R564, R567, R568) -/

/-- `PD_CMD` written with a legal value (R562, R568). -/
def Hub.pdCommand (h : Hub) (p : Fin 2) (v : Nat) : Nat × Hub :=
  let a : PdAsk := if v = 1 then .prSwap else if v = 2 then .drSwap else if v = 3 then .hardReset else .getCaps
  if v = 2 ∧ (h.get (Obj.PD_MODE p.val) = 1 ∨ h.get (Obj.PD_MODE p.val) = 2) then (rcOutOfRange, h)
  else if v = 1 ∧ h.isSink p ∧ !h.hasCode p then (rcOutOfRange, h)
  else if h.pdRuns p then (rcOk, h.setPd p fun s => { s with cmds := s.cmds ++ [a] })
  else (rcOk, h.pdStart p a)

/-- A command of `PD_CMD` by an origin. -/
def Hub.pdCmdWrite (h : Hub) (o : Origin) (p : Fin 2) (v : Nat) : Hub := h.guarded o (Obj.PD_CMD p.val) v fun h => h.pdCommand p v

/-- Meanings of PR_SWAP_CMD, DR_SWAP_CMD, HARD_RESET_CMD and GET_SOURCE_CAP_CMD. -/
def execPrSwapCmd (o : Origin) (p : Fin 2) (s : State) : Host.Outcome State Fault Refusal := s.run fun h => h.pdCmdWrite o p 1
def execDrSwapCmd (o : Origin) (p : Fin 2) (s : State) : Host.Outcome State Fault Refusal := s.run fun h => h.pdCmdWrite o p 2
def execHardResetCmd (o : Origin) (p : Fin 2) (s : State) : Host.Outcome State Fault Refusal := s.run fun h => h.pdCmdWrite o p 3
def execGetSourceCapCmd (o : Origin) (p : Fin 2) (s : State) : Host.Outcome State Fault Refusal := s.run fun h => h.pdCmdWrite o p 4

/-- A waiting PR_Swap of a sink is superseded by the source's (R564). -/
def Hub.pdSupersede (h : Hub) (p : Fin 2) : Hub :=
  if h.isSink p ∧ ((h.pd[p]).cmds.contains .prSwap ∨ (h.pd[p]).ask = some .prSwap) then
    ((h.setPd p fun s => { s with cmds := s.cmds.filter (· != .prSwap), ask := none }).bump (Obj.SWAPS_SUPERSEDED p.val)).put
      (Obj.PD_LAST_RESULT p.val) 6
  else h

/-- Meaning of PR_SWAP_RX; at the old source of a Fast Role Swap it is the FR_Swap message. -/
def execPrSwapRx (p : Fin 2) (s : State) : Host.Outcome State Fault Refusal :=
  s.kept fun h =>
    if h.pdState p = 3 ∧ (h.pd[p]).swap = .frsOldSource then ((h.pdSend p .accept).pdSwapEnter p .frsOldSource).pdSend p .psRdy
    else if h.pdState p ≠ 3 then h
    else if h.flag (Obj.PD_PR_SWAP_ACCEPT p.val) ∧ h.eff (Obj.PD_POWER_CAP p.val) = 2 ∧ h.hasCode p then
      let h := (h.pdSupersede p).pdSend p .accept
      if h.isSource p then (h.pdSwapEnter p .oldSource).pdVbusOff p
      else ((h.pdSwapEnter p .newSource).setPd p fun s => { s with ven := false }).arm (.pdRdy p) (ms 550)
    else h.pdSend p .reject

/-- Meaning of DR_SWAP_RX. -/
def execDrSwapRx (p : Fin 2) (s : State) : Host.Outcome State Fault Refusal :=
  s.kept fun h =>
    if h.pdState p ≠ 3 then h
    else if h.get (Obj.PD_MODE p.val) = 0 ∨ h.get (Obj.PD_MODE p.val) = 3 then (h.pdSend p .accept).pdDataSwapped p
    else h.pdSend p .reject

/-- Meaning of FR_SWAP_SIGNAL_RX. -/
def execFrSwapSignalRx (p : Fin 2) (s : State) : Host.Outcome State Fault Refusal :=
  s.kept fun h =>
    if h.pdState p = 3 ∧ h.isSink p ∧ h.eff (Obj.PD_FRS_ENABLE p.val) = 1 ∧ h.eff (Obj.PD_POWER_CAP p.val) = 2 ∧ h.hasCode p then
      h.setPd p fun s => { s with frsArmed := true }
    else h

/-- Meaning of FRS_VBUS_FALL. -/
def execFrsVbusFall (p : Fin 2) (s : State) : Host.Outcome State Fault Refusal :=
  s.kept fun h =>
    if (h.pd[p]).frsArmed ∧ h.pdState p = 3 then
      let h := h.setPd p fun s => { s with frsArmed := false, ven := true, ask := some .frSwap }
      (h.setCode p 1).pdSend p .frSwap
    else h

/-- A source port drives the Fast Role Swap signal for 90 µs, opens TKn_VEN and awaits the FR_Swap of the sink (R563); its path is taken
as open at once (log entry 95). -/
def Hub.frsSource (h : Hub) (p : Fin 2) : Hub :=
  if h.isSource p ∧ h.pdState p = 3 then
    let h := h.emit (.frs p.val)
    (h.setPd p fun s => { s with ven := false, swap := .frsOldSource, ask := some .frSwap }).setCode p 0
  else h

/-- Meaning of FEED_LOSS: FEED_VOUT has been at `voutMv` for 2 µs; `sinks` are the ports whose sink advertised a Fast Role Swap current. -/
def execFeedLoss (voutMv : W16) (sinks : BitVec 2) (s : State) : Host.Outcome State Fault Refusal :=
  s.kept fun h =>
    let u := h.get Obj.FEED_IN_USE
    let f : Fin 2 := if u = 1 then 0 else 1
    let fails := if u = 0 then h.get Obj.FEED_MODE != 3
      else !h.feedValid f && Nat.ble (voutMv.toNat + 1) (h.get (feedKey f Obj.FA_UV))
    if !fails ∨ h.feeds.loss then h
    else
      let h := h.setFeeds fun s => { s with loss := true }
      let h := (List.finRange 2).foldl (fun h p =>
        if bitOf (h.get Obj.FEED_FRS_PORTS) p.val && sinks.getLsbD p.val then h.frsSource p else h) h
      let h := (h.put Obj.FEED_ATTN (setBit (h.get Obj.FEED_ATTN) 1)).bump Obj.FEED_LOSSES
      (h.event 0x57 Obj.FEED_VOUT_MV).report 11 3

/-- Meaning of HARD_RESET_RX. -/
def execHardResetRx (p : Fin 2) (s : State) : Host.Outcome State Fault Refusal := s.kept fun h => h.pdHardReset p false

/-- Meaning of HARD_RESET_RECLOSE. -/
def execHardResetReclose (p : Fin 2) (s : State) : Host.Outcome State Fault Refusal :=
  s.kept fun h =>
    if h.due (.reclose p) ∧ h.pdState p = 6 ∧ h.isSource p then
      ((h.disarm (.reclose p)).setPd p fun s => { s with ven := true, vdis := false }).setCode p 1
    else h

/-- Meaning of HARD_RESET_VBUS_RETURN. -/
def execHardResetVbusReturn (p : Fin 2) (s : State) : Host.Outcome State Fault Refusal :=
  s.kept fun h =>
    if h.pdState p = 6 ∧ h.isSink p then (h.setPd p fun s => { s with ven := true }).pdTo p 2 else h

/-- `PD_CABLE_MAX_MA` written (R552). -/
def Hub.pdCableWrite (h : Hub) (o : Origin) (p : Fin 2) (v : Nat) : Nat × Hub :=
  let old := h.get (Obj.PD_CABLE_MAX_MA p.val)
  let (c, h) := h.plainWrite o (Obj.PD_CABLE_MAX_MA p.val) v
  (c, if old = h.get (Obj.PD_CABLE_MAX_MA p.val) then h else if h.pdState p < 2 then h else h.pdCapsChanged p)

/-- Meaning of PD_CABLE_MAX_MA_WRITE. -/
def execPdCableMaxMaWrite (o : Origin) (p : Fin 2) (v : W32) (s : State) : Host.Outcome State Fault Refusal :=
  s.run fun h => h.guarded o (Obj.PD_CABLE_MAX_MA p.val) v.toNat fun h => h.pdCableWrite o p v.toNat

/-- Meaning of SINK_TX_OK. -/
def execSinkTxOk (p : Fin 2) (s : State) : Host.Outcome State Fault Refusal := s.kept fun h => h.pdRelease p

/-- Meaning of GOODCRC_TIMEOUT: two repeats, then Soft Reset, and Hard Reset when that too has no GoodCRC (log entry 46). -/
def execGoodcrcTimeout (p : Fin 2) (s : State) : Host.Outcome State Fault Refusal :=
  s.kept fun h =>
    match (h.pd[p]).last with
    | none => h
    | some m =>
      if (h.pd[p]).retries < 2 then
        ((h.setPd p fun s => { s with retries := s.retries + 1 }).bump (Obj.MSG_RETRIES p.val)).emit (.pdMsg p.val m)
      else if m = .softReset then h.pdHardReset p true
      else (h.setPd p fun s => { s with ask := none }).pdSend p .softReset

end Sys2Proof.Machine
end

