-- ==== Sys2Proof/Machine/Balls.lean ====
section
/-! DEFINITION. The signal balls (R32 to R38, R49): their reset states, what each shows as the blocks stand, the balls RSTn leaves as they
are, and the boundary-scan chain. -/

namespace Sys2Proof.Machine

/-- The reset state of a ball (R32). -/
def Ball.reset : Ball → BallLevel
  | .tkLane _ _ _ => .z
  | .tkCc _ => .rd
  | .tkVbs _ => .z
  | .tkVdis _ => .low
  | .tkVen _ => .low
  | .pcieTx _ _ _ => .z
  | .pcieRx _ _ _ => .z
  | .pcieCko _ _ => .z
  | .perstn _ => .zPd
  | .clkreqn _ => .z
  | .waken _ => .z
  | .dpMl _ _ _ => .z
  | .dpAux _ _ => .z
  | .hpd _ => .zPd
  | .vdden => .low
  | .blen => .low
  | .pwm => .low
  | .csiCk _ _ => .z
  | .csiD _ _ _ => .z
  | .camtrig _ => .low
  | .ethTx _ _ => .z
  | .ethRx _ _ => .z
  | .mdc _ => .low
  | .mdio _ => .zPu
  | .phyintn _ => .zPu
  | .phyrstn _ => .low
  | .ppsOut => .low
  | .ppsIn => .zPd
  | .ax _ _ => .z
  | .usbD _ _ => .z
  | .usbVbs => .z
  | .pwren _ => .low
  | .ocn _ => .zPu
  | .usbBias => .z
  | .gpio _ => .zPd
  | .scl _ => .zOff
  | .sda _ => .zOff
  | .sclk _ => .zPd
  | .mosi _ => .zPd
  | .miso _ => .zPd
  | .csn _ _ => .zPu
  | .txd _ => .zPu
  | .rxd _ => .zPu
  | .rtsn _ => .zPu
  | .ctsn _ => .zPu
  | .dq _ => .z
  | .dmi _ => .z
  | .rdqs _ _ => .z
  | .wck _ _ => .z
  | .ca _ _ => .z
  | .dramCs _ => .low
  | .dramCk _ _ => .low
  | .dramResetn => .low
  | .dramZq => .z
  | .qspiSclk => .zPd
  | .qspiCsn _ => .zPu
  | .qspiIo _ => .zPu
  | .mpSck => .z
  | .mpMosi => .z
  | .mpMiso => .z
  | .mpCsn => .zPu
  | .intn => .z
  | .avsClk => .low
  | .avsMdata => .high
  | .avsSdata => .zPu
  | .vsel _ => .high
  | .hsGate _ => .gateOff
  | .hsSnsp _ => .z
  | .hsSnsn _ => .z
  | .hsVout _ => .z
  | .hsSeatn _ => .zPu
  | .feedGate _ => .gateOff
  | .feedSns _ => .z
  | .feedVout => .z
  | .refclk _ => .z
  | .xtalIn => .z
  | .xtalOut => .oscillator
  | .porn => .z
  | .rstn => .zPu
  | .safeOut => .z
  | .safeIn => .zPu
  | .strap _ => .zPd
  | .testen => .zPd
  | .tck => .zPd
  | .tms => .zPu
  | .tdi => .zPu
  | .tdo => .z
  | .trstn => .zPd

/-- The balls that keep their state while RSTn is low (R33). -/
def Ball.kept : Ball → Bool
  | .tkCc _ | .tkVbs _ | .tkVdis _ | .tkVen _ => true
  | .hsGate _ | .hsSnsp _ | .hsSnsn _ | .hsVout _ | .hsSeatn _ => true
  | .feedGate _ | .feedSns _ | .feedVout => true
  | _ => false

/-- Both conductors of a pair. -/
def pair (f : Bool → Ball) : List Ball := [f false, f true]

/-- A ball for each instance. -/
def each {n : Nat} (f : Fin n → Ball) : List Ball := (List.finRange n).map f

/-- A pair for each instance. -/
def pairs {n : Nat} (f : Fin n → Bool → Ball) : List Ball := (List.finRange n).flatMap fun i => pair (f i)

/-- The signal balls of trunks, PCIe, displays, cameras and Ethernet. -/
def ballsFast : List Ball :=
  (List.finRange 2).flatMap (fun p => pairs (Ball.tkLane p)) ++
  (List.finRange 2).flatMap (fun p => [.tkCc p, .tkVbs p, .tkVdis p, .tkVen p]) ++
  (List.finRange 2).flatMap (fun p => pairs (Ball.pcieTx p) ++ pairs (Ball.pcieRx p) ++ pair (Ball.pcieCko p) ++ [.perstn p, .clkreqn p, .waken p]) ++
  (List.finRange 2).flatMap (fun d => pairs (Ball.dpMl d) ++ pair (Ball.dpAux d) ++ [.hpd d]) ++ [.vdden, .blen, .pwm] ++
  (List.finRange 4).flatMap (fun c => pair (Ball.csiCk c) ++ pairs (Ball.csiD c)) ++ each Ball.camtrig ++
  (List.finRange 2).flatMap (fun e => pair (Ball.ethTx e) ++ pair (Ball.ethRx e) ++ [.mdc e, .mdio e, .phyintn e, .phyrstn e]) ++ [.ppsOut, .ppsIn]

/-- The signal balls of axis links, USB and the peripheral blocks. -/
def ballsPeriph : List Ball :=
  pairs Ball.ax ++ pairs Ball.usbD ++ [.usbVbs] ++ each Ball.pwren ++ each Ball.ocn ++ [.usbBias] ++ each Ball.gpio ++
  each Ball.scl ++ each Ball.sda ++
  (List.finRange 2).flatMap (fun i => [.sclk i, .mosi i, .miso i, .csn i 0, .csn i 1]) ++
  (List.finRange 4).flatMap (fun u => [.txd u, .rxd u, .rtsn u, .ctsn u])

/-- The signal balls of memories, the management port, power and control. -/
def ballsControl : List Ball :=
  each Ball.dq ++ each Ball.dmi ++ pairs Ball.rdqs ++ pairs Ball.wck ++
  (List.finRange 2).flatMap (fun ch => each (Ball.ca ch) ++ [.dramCs ch] ++ pair (Ball.dramCk ch)) ++ [.dramResetn, .dramZq] ++
  [.qspiSclk] ++ each Ball.qspiCsn ++ each Ball.qspiIo ++ [.mpSck, .mpMosi, .mpMiso, .mpCsn, .intn] ++
  [.avsClk, .avsMdata, .avsSdata] ++ each Ball.vsel ++
  (List.finRange 8).flatMap (fun n => [.hsGate n, .hsSnsp n, .hsSnsn n, .hsVout n, .hsSeatn n]) ++
  each Ball.feedGate ++ each Ball.feedSns ++ [.feedVout] ++ pair Ball.refclk ++ [.xtalIn, .xtalOut] ++
  [.porn, .rstn, .safeOut, .safeIn] ++ each Ball.strap ++ [.testen, .tck, .tms, .tdi, .tdo, .trstn]

/-- The 412 signal balls. -/
def allBalls : List Ball := ballsFast ++ ballsPeriph ++ ballsControl

/-- The ball has a cell in the boundary-scan chain (R49). The balls of the TAP itself have none under IEEE 1149.1, and Pn_CKO and Dn_AUX,
which run on the SerDes supplies, are counted among the SerDes balls left out (log entry 86). -/
def Ball.inChain : Ball → Bool
  | .tkLane _ _ _ | .pcieTx _ _ _ | .pcieRx _ _ _ | .pcieCko _ _ | .dpMl _ _ _ | .dpAux _ _ | .ethTx _ _ | .ethRx _ _ => false
  | .csiCk _ _ | .csiD _ _ _ | .usbD _ _ | .refclk _ | .xtalIn | .xtalOut | .ax _ _ | .tkCc _ | .tkVbs _ => false
  | .hsGate _ | .hsSnsp _ | .hsSnsn _ | .hsVout _ | .hsSeatn _ | .feedGate _ | .feedSns _ | .feedVout => false
  | .tck | .tms | .tdi | .tdo | .trstn => false
  | _ => true

/-- The balls of the chain, in the order of the table of R32 (log entry 86). -/
def chainBalls : List Ball := allBalls.filter Ball.inChain

/-- The ball is an input only: EXTEST drives nothing on it. -/
def Ball.input : Ball → Bool
  | .hpd _ | .phyintn _ | .ppsIn | .usbVbs | .ocn _ | .miso _ | .rxd _ | .ctsn _ | .mpSck | .mpCsn | .avsSdata | .porn | .rstn | .safeIn => true
  | .strap _ | .testen => true
  | _ => false

/-- A driven level. -/
def driven (b : Bool) : BallLevel := if b then .high else .low

/-- Balls of the trunk ports: lanes by their pads (R146), the power balls by the Kettle (R547, R556). -/
def Hub.trunkBall (h : Hub) : Ball → BallLevel
  | .tkLane p l _ => if (h.lane p l).pads.drive = .z then .z else .active
  | .tkCc p => if !h.ccRp p then .rd else if h.sinkTxNg p then .rpNg else .rp
  | .tkVdis p => driven (h.pd[p]).vdis
  | .tkVen p => driven (h.pd[p]).ven
  | b => b.reset

/-- Balls of the PCIe ports (R312). -/
def Hub.pcieBall (h : Hub) (b : Ball) : BallLevel :=
  if h.domState 18 = 2 then b.reset
  else match b with
    | .pcieTx p _ _ => if h.pcie.role[p] = 0 then .z else .active
    | .pcieCko p _ => if (h.pcie.cko[p]).isSome then .active else .z
    | .perstn p => if h.pcie.role[p] ≠ 2 then .zPd else if h.pcie.reset[p] = 3 ∨ h.pcie.reset[p] = 5 then .low else .high
    | b => b.reset

/-- Balls of the display ports (R380, R381). -/
def Hub.dispBall (h : Hub) (b : Ball) : BallLevel :=
  if h.domState 19 = 2 then b.reset
  else match b with
    | .dpMl d _ _ => if Nat.ble 2 (h.get (Obj.DISP_LINK d.val)) && h.get (Obj.SR_STATE d.val) != 3 then .active else .z
    | .dpAux d _ => if h.flag (Obj.DISP_ENABLE d.val) then .active else .z
    | .vdden => driven (h.disp[(0 : Fin 2)]).vdden
    | .blen => driven (h.disp[(0 : Fin 2)]).blen
    | .pwm => if (h.disp[(0 : Fin 2)]).blen then .pwm (h.eff (Obj.EDP_PWM_FREQ 0)) (h.eff (Obj.EDP_PWM_DUTY 0)) else .low
    | b => b.reset

/-- Balls of the Ethernet ports, network time and camera triggers (R355, R383, R406). -/
def Hub.netBall (h : Hub) (b : Ball) : BallLevel :=
  match b with
  | .camtrig t => if h.domState 20 = 2 then .low else driven ((h.trig[t]).pulse != h.flag (Obj.TRIG_POLARITY t.val))
  | .ethTx e _ => if h.domState 21 = 2 ∨ h.get (Obj.ETH_MODE e.val) = 0 then .z else .active
  | .mdc e => if bitOf (h.get (Obj.MDIO_DATA e.val)) 16 then .active else .low
  | .phyrstn e => if h.domState 21 = 2 then .low else driven (h.get (Obj.ETH_MODE e.val) != 0 && (!h.armed (.phyReset e) || h.due (.phyReset e)))
  | .ppsOut => driven h.net.pps
  | b => b.reset

/-- Balls of the axis links and the peripheral blocks (R419, R446, R448, R454, R458). -/
def Hub.periphBall (h : Hub) (b : Ball) : BallLevel :=
  match b with
  | .ax n _ => if h.domState 24 = 2 ∨ h.get (Obj.AXL_STATE n.val) = 0 then .z else .active
  | .usbD u _ => if h.domState 22 = 2 ∨ h.get Obj.USB_STATE = 0 ∧ u = 3 then .z else .active
  | .pwren u => if h.domState 22 = 2 then .low else
      driven (h.get Obj.USB_STATE != 0 && (h.eff Obj.USB_PWR_MODE == 1 || bitOf (h.get (Obj.PORT_STATUS u.val)) 8))
  | .gpio k =>
    if bitOf h.gpioLines.2 k.val then driven (bitOf h.gpioLines.1 k.val)
    else if !bitOf h.gpio.pullEn.toNat k.val then .z
    else if bitOf h.gpio.pullUp.toNat k.val then .zPu else .zPd
  | .sclk i | .mosi i | .csn i _ => if (h.masters[4 + i.val]).runs then .active else b.reset
  | .scl i | .sda i => if (h.masters[i.val]).runs then .active else b.reset
  | .txd u => if (h.uarts[u]).shift then .active else b.reset
  | .rtsn u => if h.rtsCts u.val then driven (Nat.ble 1792 (h.uarts[u]).rx.length) else b.reset
  | b => b.reset

/-- Balls of memories, the management port, power, slots, feeds and control (R34, R38, R130, R535, R579, R588). -/
def Hub.controlBall (h : Hub) (b : Ball) : BallLevel :=
  match b with
  | .dramResetn => if h.domState 23 = 2 then .low else .high
  | .dq _ | .dmi _ | .rdqs _ _ | .wck _ _ | .ca _ _ | .dramCs _ | .dramCk _ _ => if h.domState 23 = 0 then .active else b.reset
  | .qspiSclk | .qspiCsn _ | .qspiIo _ => if h.fw.loading = 1 then .active else b.reset
  | .intn => if h.fw.intLow then .low else .z
  | .avsClk => if h.sim.req.isSome then .active else .low
  | .avsMdata => if h.sim.req.isSome then .active else .high
  | .vsel i => driven (bitOf h.sim.vsel i.val)
  | .hsGate n => match h.get (Obj.SLOT_STATE n.val) with
    | 4 => .gateRamp
    | 5 => .gateOn
    | _ => .gateOff
  | .feedGate f => if h.get Obj.FEED_IN_USE = f.val + 1 ∧ h.feeds.switch = none then .gateOn else .gateOff
  | .safeOut => if h.safety.outIntent then .z else .low
  | b => b.reset

/-- What a ball shows while the hub runs: every ball keeps its reset state until the block that owns it configures it (R32). -/
def Hub.ballRun (h : Hub) (b : Ball) : BallLevel :=
  match b with
  | .tkLane _ _ _ | .tkCc _ | .tkVdis _ | .tkVen _ => h.trunkBall b
  | .pcieTx _ _ _ | .pcieCko _ _ | .perstn _ => h.pcieBall b
  | .dpMl _ _ _ | .dpAux _ _ | .vdden | .blen | .pwm => h.dispBall b
  | .camtrig _ | .ethTx _ _ | .mdc _ | .phyrstn _ | .ppsOut => h.netBall b
  | .ax _ _ | .usbD _ _ | .pwren _ | .gpio _ | .sclk _ | .mosi _ | .csn _ _ | .scl _ | .sda _ | .txd _ | .rtsn _ => h.periphBall b
  | _ => h.controlBall b

/-- A pin of a converter code, which keeps its state while RSTn is low (R545). -/
def Hub.codePin (h : Hub) (b : Ball) : Bool :=
  match b with
  | .gpio k => (List.range 2).any fun p =>
      let g := h.eff (Obj.PD_VSEL_GPIO p)
      Nat.ble g 28 && Nat.ble g k.val && Nat.ble k.val (g + 3)
  | _ => false

/-- What a ball shows (R32, R33, R37, R47, R545); the oscillator has stopped where VDD_AON is absent. -/
def Hub.ball (h : Hub) (b : Ball) : BallLevel :=
  if h.hold = .run ∨ (h.hold = .rstn ∧ (b.kept ∨ h.codePin b)) then h.ballRun b
  else if b = .xtalOut ∧ h.hold = .vddAon then .z
  else b.reset

/-- The balls that leave the level they showed when the hub goes from `h` to `n`. -/
def Hub.ballsMoved (h n : Hub) : List (Ball × BallLevel) :=
  allBalls.filterMap fun b => if h.ball b = n.ball b then none else some (b, n.ball b)

/-- The level read on a ball by its boundary-scan cell: the hub's own where it drives, else that of the net (R48). -/
def sampleLevel (x : BallLevel) (net : Bool) : Bool :=
  match x with
  | .low => false
  | .high => true
  | _ => net

/-- The cells of the chain after a shift: one for each ball of it (log entry 86). -/
def chainCells (shifted : List Bool) : List Bool := chainBalls.zipIdx.map fun (_, i) => shifted.getD i false

/-- The chain captured from the balls; `pins` are the levels of their nets. -/
def Hub.capture (h : Hub) (pins : List Bool) : List Bool :=
  chainBalls.zipIdx.map fun (b, i) => sampleLevel (h.ball b) (pins.getD i false)

/-- The chain captured while it drives: an input ball reads its net, any other what its cell drives. -/
def captureExtest (chain pins : List Bool) : List Bool :=
  chainBalls.zipIdx.map fun (b, i) => if b.input then pins.getD i false else chain.getD i false

/-- What the chain drives under EXTEST: every ball of it but the inputs. -/
def chainDrive (chain : List Bool) : List (Ball × Bool) :=
  chainBalls.zipIdx.filterMap fun (b, i) => if b.input then none else some (b, chain.getD i false)

end Sys2Proof.Machine
end

