-- ==== Sys2Proof/Machine/Display.lean ====
section
/-! DEFINITION. Display scan-out (chapter 12): link training, commit windows, flips and their carry, update records, panel
self-refresh and the eDP panel sequence. -/

namespace Sys2Proof.Machine

/-- A change of a display port. -/
def Hub.setDisp (h : Hub) (p : Fin 2) (f : DispPort → DispPort) : Hub := { h with disp := h.disp.set p (f h.disp[p]) }

/-- A change of a plane. -/
def Hub.setPlane (h : Hub) (q : Fin 4) (f : PlaneSt → PlaneSt) : Hub := { h with planes := h.planes.set q (f h.planes[q]) }

/-- Plane k of a port. -/
def planeNo (p : Fin 2) (k : Fin 2) : Fin 4 := ⟨2 * p.val + k.val, by omega⟩

/-! ### Planes and the frame store (R361 to R365) -/

/-- An enabled plane's buffers lie within the region and its stride holds a row (R361, R364). -/
def planeFits (f t : Nat → Nat) (base size q : Nat) : Bool :=
  let (w, h) := planeSize f t q
  let row := w * pixBytes (f (Obj.PLANE_FORMAT q))
  let ends := fun b => b + (h - 1) * f (Obj.STRIDE q) + row
  f (Obj.PLANE_ENABLE q) == 0 ||
    (Nat.ble row (f (Obj.STRIDE q)) && Nat.ble base (f (Obj.BUF_A q)) && Nat.ble (ends (f (Obj.BUF_A q))) (base + size) &&
      Nat.ble base (f (Obj.BUF_B q)) && Nat.ble (ends (f (Obj.BUF_B q))) (base + size))

/-- What is wrong with a plane, enabled or not, each with the object that sets it: a stride too small, or a buffer outside the region. -/
def planeFaults (f t : Nat → Nat) (base size q : Nat) : List Nat :=
  let (w, h) := planeSize f t q
  let row := w * pixBytes (f (Obj.PLANE_FORMAT q))
  let outside := fun b => !(Nat.ble base b && Nat.ble (b + (h - 1) * f (Obj.STRIDE q) + row) (base + size))
  (if f (Obj.STRIDE q) < row then [Obj.STRIDE q] else []) ++
    [Obj.BUF_A q, Obj.BUF_B q].filter fun k => outside (f k)

/-- The check of an RWF write (R365): it puts no buffer outside the region and makes no stride too small, whether the plane is enabled or
not; it enables no plane that does not fit; and it does not raise the need beyond its bound. What was wrong before it, it may leave so
(log entry 62). -/
def Hub.rwfOk (h : Hub) (k v : Nat) : Bool :=
  let f := fun x => if x = k then v else h.get x
  let q := k / 256 - 0x5208
  let base := h.get Obj.FS_BASE
  let size := h.get Obj.FS_SIZE * 1048576
  let before := planeFaults h.get h.get base size q
  (planeFaults f h.get base size q).all (fun x => before.contains x && x != k) && planeFits f h.get base size q &&
    (Nat.ble (fsNeed f h.get) 17066 || Nat.ble (fsNeed f h.get) (fsNeed h.get h.get))

/-- The frame-store group's check (R361). -/
def Hub.fsOk (h : Hub) (g : Staged) : Bool :=
  let base := h.newVal g Obj.FS_BASE
  let size := h.newVal g Obj.FS_SIZE * 1048576
  let sb := h.get Obj.SPILL_BASE
  let ss := h.get Obj.SPILL_SIZE * 1048576
  !(size != 0 && ss != 0 && Nat.ble (base + 1) (sb + ss) && Nat.ble (sb + 1) (base + size)) &&
    Nat.ble (base + size) (Config.dramMiB * 1048576) && (List.range 4).all fun q => planeFits h.get h.get base size q

/-! ### Link rates (R358, R376) -/

/-- Rates in the order of `DISP_RATES`, Mbit/s per lane. -/
def dispRate (i : Nat) : Nat :=
  if i < 3 then [10000, 13500, 20000].getD i 0
  else if 8 ≤ i then [1620, 2160, 2430, 2700, 3240, 4320, 5400, 8100].getD (i - 8) 0 else 0

/-- The rates of a mode. -/
def modeRates (mode : Nat) : Nat := if mode = 1 then 0x0007 else if mode = 2 then 0xFF00 else 0

/-- The fastest rate of a mask. -/
def topRate (m : Nat) : Option Nat := ((List.range 16).reverse).find? fun i => bitOf m i && dispRate i != 0

/-- kbit/s that a rate carries on some lanes: 128b/132b in DP mode, 8b/10b in eDP mode. -/
def rateCarries (i lanes : Nat) : Nat :=
  if i < 3 then dispRate i * 1000 * lanes * 128 / 132 else dispRate i * 1000 * lanes * 8 / 10

/-- kbit/s a stream needs. -/
def streamNeeds (clk bpc : Nat) : Nat := clk * (if bpc = 1 then 30 else 24)

/-- The timing group's check, as R375 words its cases (log entry 21), and R365. The sink's highest common rate is of the mode and the
rates in effect; lead and colour depth are those accepted, which the window of the group takes with it. -/
def Hub.timingOk (h : Hub) (g : Staged) : Bool :=
  let p := g.leader / 256 - 0x5204
  let t := h.newVal g
  let lead := h.get (Obj.DISP_V_LEAD p)
  let d := h.disp[if p = 0 then (0 : Fin 2) else 1]
  let fits := match d.rates with
    | some r => match topRate (r &&& h.eff (Obj.DISP_RATES p) &&& modeRates (h.eff (Obj.DISP_MODE p))) with
      | some i => Nat.ble (streamNeeds (t (Obj.PIX_CLK p)) (h.get (Obj.DISP_BPC p))) (rateCarries i d.lanes)
      | none => true
    | none => true
  Nat.ble (t (Obj.H_SYNC_START p)) (t (Obj.H_ACTIVE p)) &&
    Nat.ble (t (Obj.H_SYNC_START p) + t (Obj.H_SYNC_WIDTH p)) (t (Obj.H_TOTAL p)) &&
    Nat.ble (t (Obj.V_SYNC_START p)) (t (Obj.V_ACTIVE p)) &&
    Nat.ble (t (Obj.V_SYNC_START p) + t (Obj.V_SYNC_WIDTH p)) (t (Obj.V_TOTAL p)) &&
    Nat.ble (t (Obj.V_ACTIVE p) + lead + 1) (t (Obj.V_TOTAL p)) && fits &&
    (Nat.ble (fsNeed h.get t) 17066 || Nat.ble (fsNeed h.get t) (fsNeed h.get h.get))

/-! ### Streams and training (R359, R360, R376, R380) -/

/-- `n` lines in nanoseconds. -/
def Hub.lineNs (h : Hub) (p n : Nat) : Nat := n * h.get (Obj.H_TOTAL p) * 1000000 / max 1 (h.get (Obj.PIX_CLK p))

/-- `FRAME_COUNT` as it reads: the frame that begins after a window counts from its first active line. -/
def Hub.frameCount (h : Hub) (p : Fin 2) : Nat :=
  let d := h.disp[p]
  (h.get (Obj.FRAME_COUNT p) + b2n (d.runs && Nat.ble d.next h.now)) % 2 ^ 32

/-- The values that wait for a frame of this port. -/
def frameScope (p : Fin 2) (w : Waiting) : Bool :=
  let idx := w.key / 256
  idx == 0x5202 + p.val || idx == 0x5204 + p.val || idx == 0x5208 + 2 * p.val || idx == 0x5209 + 2 * p.val

/-- Self-refresh leaves for off (R377). -/
def Hub.srOff (h : Hub) (p : Fin 2) : Hub := (h.put (Obj.SR_STATE p) 0).setDisp p fun d => { d with idle := 0, wait := 0 }

/-- The port is off: the stream and the timing generator stop. -/
def Hub.dispOff (h : Hub) (p : Fin 2) : Hub :=
  let h := (((h.put (Obj.DISP_LINK p) 0).put (Obj.DISP_LINK_RATE p) 0).put (Obj.DISP_LANES p) 0).put (Obj.SR_MODE_IN_USE p) 0
  ((h.srOff p).disarm (.window p)).setDisp p fun d => { d with runs := false, stops := false, frame := none }

/-- The capability read that comes before a training starts; settings that wait for the training take effect (R359). -/
def Hub.dispTrain (h : Hub) (p : Fin 2) : Hub :=
  let h := (h.takeUnit .dispTrain fun w => w.key / 256 == 0x5202 + p.val).srOff p
  if h.eff (Obj.DISP_MODE p) = 0 then h.dispOff p
  else ((((h.put (Obj.DISP_LINK p) 2).put (Obj.DISP_LINK_RATE p) 0).put (Obj.DISP_LANES p) 0).emit (.auxRead p true)).disarm .edpHpd

/-- A retraining with the timing generator running on (R360, R376). -/
def Hub.dispRetrain (h : Hub) (p : Fin 2) : Hub :=
  ((h.takeUnit .dispTrain fun w => w.key / 256 == 0x5202 + p.val).srOff p |>.put (Obj.DISP_LINK p) 3).bump (Obj.LINK_TRAININGS p)

/-- The link fails (R359). -/
def Hub.dispFail (h : Hub) (p : Fin 2) : Hub :=
  ((h.dispOff p).put (Obj.DISP_LINK p) 5).event 0x39 (Obj.DISP_LINK p)

/-- Meaning of HPD_LONG_PULSE: HPD has been low for 2 ms, and is high again or stays low; it wakes a domain that is not on. An enabled port
reads capabilities and trains after the pulse; while HPD stays low its link is down and it waits (R359, R380, R520). -/
def execHpdLongPulse (p : Fin 2) (high : Bool) (s : State) : Host.Outcome State Fault Refusal := s.run fun h =>
  let h := h.setDisp p fun d => { d with hpd := high }
  if !h.domOn 19 then h.startWake 19 5 3
  else if !high then (let h := h.dispOff p; if h.flag (Obj.DISP_ENABLE p) then h.put (Obj.DISP_LINK p) 1 else h)
  else if h.flag (Obj.DISP_ENABLE p) then ((h.disarm (.window p)).setDisp p fun d => { d with runs := false, frame := none }).dispTrain p
  else h

/-- Meaning of IRQ_HPD (R360). -/
def execIrqHpd (p : Fin 2) (lost : Bool) (s : State) : Host.Outcome State Fault Refusal := s.run fun h =>
  let h := h.bump (Obj.HPD_IRQS p)
  if !h.domOn 19 then h.startWake 19 5 3
  else
    let h := h.emit (.auxRead p false)
    if lost && h.get (Obj.DISP_LINK p) == 4 then h.dispRetrain p else h

/-- The training about to start is of eDP mode: D0, by the mode written (R380). -/
def Hub.isEdp (h : Hub) (p : Fin 2) : Bool := p == 0 && h.get (Obj.DISP_MODE p) == 2

/-- The panel controls of D0 at their levels. -/
def Hub.panelOut (h : Hub) : Hub := h.emit (.panel (h.disp[(0 : Fin 2)]).vdden (h.disp[(0 : Fin 2)]).blen)

/-- A period of D0_PWM begins: the frequency and duty that wait take effect (R380). The first begins when D0_BLEN goes high. -/
def Hub.pwmFollow (h : Hub) : Hub :=
  let d := h.disp[(0 : Fin 2)]
  if d.blen && Nat.ble (h.now + 1) d.pwmAt then h
  else
    let h := h.takeUnit .pwm fun _ => true
    h.setDisp 0 fun d => { d with pwmAt := if d.blen then h.now + 1000000000 / max 1 (h.eff (Obj.EDP_PWM_FREQ 0)) else 0 }

/-- `DISP_ENABLE` set to 1 (R359, R381): in eDP mode a sequence begins, with the `EDP_T_BL` of this instant. -/
def Hub.dispOn (h : Hub) (p : Fin 2) : Hub :=
  let d := h.disp[p]
  let h := h.setDisp p fun d => { d with stops := false, vdden := d.vdden || h.isEdp p, tBl := h.get (Obj.EDP_T_BL 0) }
  let h := if h.isEdp p then h.panelOut else h
  if d.hpd then ((h.disarm (.window p)).setDisp p fun d => { d with runs := false, frame := none }).dispTrain p
  else
    let h := h.put (Obj.DISP_LINK p) 1
    if h.isEdp p then h.arm .edpHpd (ms 200) else h

/-- Self-refresh is left by a write of `SR_MODE` or a cleared `DISP_ENABLE`: state 5 while the link stays up, else off (R377). -/
def Hub.srLeave (h : Hub) (p : Fin 2) : Hub :=
  let st := h.get (Obj.SR_STATE p)
  if st = 0 then h
  else if h.get (Obj.DISP_LINK p) = 4 then
    if st = 5 then h
    else
      let psr := st == 3 && h.get (Obj.SR_MODE_IN_USE p) == 1
      let h := if st = 3 then h.emit (.mainLink p true psr) else h
      ((h.put (Obj.SR_STATE p) 5).bump (Obj.SR_EXITS p)).setDisp p fun d => { d with later := psr, sentAt := none }
  else h.srOff p

/-- `DISP_ENABLE` cleared: the stream stops at the end of the current frame, or after the backlight where the panel has its supply (R380,
R381, R377). -/
def Hub.dispStop (h : Hub) (p : Fin 2) : Hub :=
  let h := (h.disarm .edpHpd).srLeave p
  let d := h.disp[p]
  if p = 0 && d.vdden then
    ((h.setDisp p fun d => { d with blen := false }).panelOut).arm .edpBacklight (ms (h.get (Obj.EDP_T_BL 0)))
  else if d.runs then
    (h.setDisp p fun d => { d with stops := true }).arm (.window p)
      ((if h.now < d.next then d.next else d.next + h.lineNs p (h.get (Obj.V_TOTAL p))) - h.now)
  else h.dispOff p

/-- `DISP_ENABLE` accepted (R359, R381). -/
def Hub.dispWritten (h : Hub) (p : Fin 2) (v : Nat) : Hub :=
  let was := h.flag (Obj.DISP_ENABLE p)
  let h := h.accept (Obj.DISP_ENABLE p) v
  if v = 1 then h.dispOn p else if was then h.dispStop p else h

/-- Meaning of DISP_ENABLE_WRITE. -/
def execDispEnableWrite (o : Origin) (p : Fin 2) (v : W32) (s : State) : Host.Outcome State Fault Refusal := s.run fun h =>
  h.guarded o (Obj.DISP_ENABLE p) v.toNat fun h =>
    (rcOk, h.dispWritten p v.toNat)

/-- Meaning of EDP_HPD_TIMEOUT (R381). -/
def execEdpHpdTimeout (s : State) : Host.Outcome State Fault Refusal := s.run fun h =>
  if h.due .edpHpd then (h.disarm .edpHpd).dispFail 0 else h

/-- Meaning of EDP_BACKLIGHT_TIMER: the backlight on after the first frame, or the stream and the panel's supply off, and HPD with it
(R381). -/
def execEdpBacklightTimer (s : State) : Host.Outcome State Fault Refusal := s.run fun h =>
  if !h.due .edpBacklight then h
  else
    let h := h.disarm .edpBacklight
    if h.flag (Obj.DISP_ENABLE 0) then (h.setDisp 0 fun d => { d with blen := true }).panelOut
    else ((h.dispOff 0).setDisp 0 fun d => { d with vdden := false, hpd := false }).panelOut

/-! ### Scan-out (R362, R363) -/

/-- Address of a pixel of a buffer. -/
def Hub.pixAddr (h : Hub) (q : Fin 4) (buf x y : Nat) : Nat :=
  let base := if buf = 0 then h.eff (Obj.BUF_A q) else h.eff (Obj.BUF_B q)
  dramAddr (base + y * h.eff (Obj.STRIDE q) + x * pixBytes (h.eff (Obj.PLANE_FORMAT q)))

/-- The colour and the alpha, of 255, of a pixel's bytes: a word with the least significant byte first, the fields of a format from its
top bits down (log entry 90). -/
def pixelOf (fmt : Nat) (bs : List Byte) : Pixel × Nat :=
  let w := ofLE bs
  if fmt = 2 then (⟨(field w 15 11, 31), (field w 10 5, 63), (field w 4 0, 31)⟩, 255)
  else if fmt = 3 then (⟨(field w 29 20, 1023), (field w 19 10, 1023), (field w 9 0, 1023)⟩, 255)
  else (⟨(field w 23 16, 255), (field w 15 8, 255), (field w 7 0, 255)⟩, if fmt = 1 then field w 31 24 else 255)

/-- `a` × x + (1 − `a`) × y, exact. -/
def mixPart (a x y : Nat × Nat) : Nat × Nat := (a.1 * x.1 * y.2 + (a.2 - a.1) * y.1 * x.2, a.2 * x.2 * y.2)

/-- The same of two colours. -/
def Pixel.mix (a : Nat × Nat) (x y : Pixel) : Pixel := ⟨mixPart a x.r y.r, mixPart a x.g y.g, mixPart a x.b y.b⟩

/-- A pixel of a plane, from its front buffer. -/
def Hub.planePixel (h : Hub) (q : Fin 4) (x y : Nat) : Pixel × Nat :=
  let fmt := h.eff (Obj.PLANE_FORMAT q)
  pixelOf fmt (h.memRead (h.pixAddr q (h.get (Obj.FRONT q)) x y) (pixBytes fmt))

/-- The output pixel at a place of the active area (R362). -/
def Hub.outPixel (h : Hub) (p : Fin 2) (x y : Nat) : Pixel :=
  let q0 := planeNo p 0
  let q1 := planeNo p 1
  let under := if h.eff (Obj.PLANE_ENABLE q0) = 0 then ⟨(0, 1), (0, 1), (0, 1)⟩ else (h.planePixel q0 x y).1
  let (w, n) := planeSize h.eff h.get q1
  let x0 := h.eff (Obj.POS q1) % 65536
  let y0 := h.eff (Obj.POS q1) / 65536
  if h.eff (Obj.PLANE_ENABLE q1) = 1 ∧ x0 ≤ x ∧ x < x0 + w ∧ y0 ≤ y ∧ y < y0 + n then
    let (c, a) := h.planePixel q1 (x - x0) (y - y0)
    c.mix (h.eff (Obj.PLANE_ALPHA q1) * a, 65025) under
  else under

/-- Rows of a frame with their pixels. -/
def Hub.scanRows (h : Hub) (p : Fin 2) (ys : List Nat) : List (Nat × List Pixel) :=
  ys.map fun y => (y, (List.range (h.get (Obj.H_ACTIVE p))).map fun x => h.outPixel p x y)

/-- A frame to be sent when it begins: its number and rows. -/
def Hub.sendFrame (h : Hub) (p : Fin 2) (n : Nat) (ys : List Nat) : Hub := h.setDisp p fun d => { d with frame := some (n, ys) }

/-- A frame that begins is sent, its rows as the front buffers hold them then (log entry 90). While the link trains, no pixel leaves
(R360). -/
def Hub.frameBegins (h : Hub) (p : Fin 2) : Hub :=
  match h.disp[p].frame with
  | some (n, ys) =>
    if Nat.ble h.disp[p].next h.now then
      let h' := h.setDisp p fun d => { d with frame := none }
      if h.get (Obj.DISP_LINK p) = 4 then h'.emit (.dispFrame p n (h.scanRows p ys)) else h'
    else h
  | none => h

/-- Every active row. -/
def Hub.allRows (h : Hub) (p : Fin 2) : List Nat := List.range (h.get (Obj.V_ACTIVE p))

/-- The next window, by the timing that governs from the beginning of the next frame, `rest` ns on (R372, R376). -/
def Hub.armWindow (h : Hub) (p : Fin 2) (rest : Nat) : Hub :=
  (h.setDisp p fun d => { d with next := h.now + rest }).arm (.window p)
    (rest + h.lineNs p (h.get (Obj.V_TOTAL p) - h.eff (Obj.DISP_V_LEAD p)))

/-- The stream starts with its first frame: every value that waits for a frame is in effect. -/
def Hub.streamStart (h : Hub) (p : Fin 2) : Hub :=
  let h := (h.takeUnit .frame (frameScope p)).takeUnit .timing (frameScope p)
  let h := (h.put (Obj.FRAME_COUNT p) 0).setDisp p fun d => { d with runs := true, stops := false, under := none, next := h.now }
  ((h.sendFrame p 0 (h.allRows p)).frameBegins p).arm (.window p)
    (h.lineNs p (h.get (Obj.V_TOTAL p) - h.eff (Obj.DISP_V_LEAD p)))

/-- Lanes in use of those the sink takes: 4, 2 or 1 (R358). -/
def lanesUsed (n : Nat) : Nat := if Nat.ble 4 n then 4 else if Nat.ble 2 n then 2 else n

/-- The self-refresh mode in use: the lower of what is set and the sink's best, of those the mode has; DP has Panel Replay alone (R358,
R377). -/
def srUsed (mode set best : Nat) : Nat := let m := min set best; if mode = 1 ∧ m ≠ 3 then 0 else m

/-- The sink's capabilities have been read: a training starts where a common rate is found, else the link has failed (R359, R380). -/
def Hub.dispCaps (h : Hub) (p : Fin 2) (rates lanes srBest yGran : Nat) (edid : List Byte) : Hub :=
  let lanes := lanesUsed lanes
  let h := (h.setDisp p fun d => { d with rates := some rates, lanes := lanes, srBest := srBest, yGran := yGran }).putOct
    (Obj.DISP_EDID p) (edid.take 4096)
  if (topRate (rates &&& h.eff (Obj.DISP_RATES p) &&& modeRates (h.eff (Obj.DISP_MODE p)))).isSome && lanes != 0 then
    (h.put (Obj.DISP_LINK p) 3).bump (Obj.LINK_TRAININGS p)
  else h.dispFail p

/-- Training ends: the highest common rate at which it passes, with the widest lane count, or failure (R359, R377). -/
def Hub.dispTrained (h : Hub) (p : Fin 2) (works : Nat) : Hub :=
  let mode := h.eff (Obj.DISP_MODE p)
  let d := h.disp[p]
  match topRate (d.rates.getD 0 &&& h.eff (Obj.DISP_RATES p) &&& modeRates mode &&& works) with
  | none => h.dispFail p
  | some i =>
    let sr := srUsed mode (h.eff (Obj.SR_MODE p)) d.srBest
    let h := (((h.put (Obj.DISP_LINK p) 4).put (Obj.DISP_LINK_RATE p) (dispRate i)).put (Obj.DISP_LANES p) d.lanes).put (Obj.SR_MODE_IN_USE p) sr
    let h := (h.put (Obj.SR_STATE p) (b2n (sr != 0))).setDisp p fun d => { d with idle := 0, wait := 0 }
    let h := if d.runs then h else h.streamStart p
    if mode = 2 ∧ !d.blen then h.arm .edpBacklight (h.lineNs p (h.get (Obj.V_TOTAL p)) + ms d.tBl) else h

/-- Meaning of DISP_LINK_TRAINED: what the sink reports when its capabilities are read, and the rates at which training passes, where it has
ended. -/
def execDispLinkTrained (p : Fin 2) (rates : W16) (works : Option W16) (lanes : Fin 5) (srBest : Fin 4) (yGran : Byte) (edid : List Byte)
    (s : State) : Host.Outcome State Fault Refusal := s.run fun h =>
  if !h.domOn 19 then h
  else
    let h := if h.get (Obj.DISP_LINK p) = 2 then h.dispCaps p rates.toNat lanes srBest yGran.toNat edid else h
    match works with
    | some w => if h.get (Obj.DISP_LINK p) = 3 then h.dispTrained p w.toNat else h
    | none => h

/-- The ports enabled at start-up, or after their block lost its state, begin as at a write of `DISP_ENABLE` (R359, R381). -/
def Hub.dispStart (h : Hub) : Hub :=
  (List.finRange 2).foldl (fun h p => if h.flag (Obj.DISP_ENABLE p.val) then h.dispOn p else h) h

/-! ### Flips and the carry (R369, R371, R373) -/

/-- The tunnel of a plane (R367). -/
def Hub.planeTunnel (h : Hub) (q : Fin 4) : Option Nat :=
  let code := q.val % 2 + 2 * (q.val / 2)
  firstBelow (fun t => h.tunUsed t && h.hasEnd t 14 && h.get (Obj.TUN_LOCAL t) % 4 == code) 256

/-- The writer takes no cell of the plane's tunnel, or takes them again (R369, R374). -/
def Hub.stallPlane (h : Hub) (q : Fin 4) (on : Bool) : Hub :=
  match h.planeTunnel q with
  | some t => h.setCore fun c => { c with stalls := (if on then [(t, 14)] else []) ++ c.stalls.filter fun x => x != (t, 14) }
  | none => h

/-- A flip marked pending; one that is pending already stands (R371). -/
def Hub.markFlip (h : Hub) (q : Fin 4) (seq : Nat) (target : Option Nat) : Hub :=
  if (h.planes[q]).flip.isSome then h
  else ((h.setPlane q fun s => { s with flip := some (seq, target) }).put (Obj.FLIP_PENDING q) 1).stallPlane q true

/-- Meaning of FLIP_CMD. -/
def execFlipCmd (o : Origin) (q : Fin 4) (v : W32) (s : State) : Host.Outcome State Fault Refusal := s.run fun h =>
  h.guarded o (Obj.FLIP_CMD q) v.toNat fun h => (rcOk, h.markFlip q 0 none)

/-- One rectangle copied from the front into the back buffer. -/
def Hub.copyRect (h : Hub) (q : Fin 4) (r : Rect) : Hub :=
  let front := h.get (Obj.FRONT q)
  (List.range r.h).foldl (fun h i =>
    h.memWrite (h.pixAddr q (1 - front) r.x (r.y + i))
      (h.memRead (h.pixAddr q front r.x (r.y + i)) (r.w * pixBytes (h.eff (Obj.PLANE_FORMAT q))))) h

/-- What a carry copies: the rectangles, or the whole plane beyond 64 of them (R373). -/
def Hub.carryRects (h : Hub) (q : Fin 4) : List Rect :=
  let rs := (h.planes[q]).rects
  let (w, n) := planeSize h.eff h.get q
  if 64 < rs.length then [⟨0, 0, w, n⟩] else rs

/-- The carry ends: the back buffer holds what the front holds, and the plane's tunnel is served (R373, R374). -/
def Hub.carryEnd (h : Hub) (q : Fin 4) : Hub :=
  match (h.planes[q]).carry with
  | none => h
  | some rs =>
    let h := (rs.foldl (fun h r => h.copyRect q r) h).disarm (.carry q)
    let h := h.setPlane q fun s => { s with carry := none }
    if (h.planes[q]).flip.isSome then h else h.stallPlane q false

/-- Meaning of FLIP_CARRY_END. -/
def execFlipCarryEnd (q : Fin 4) (s : State) : Host.Outcome State Fault Refusal := s.run fun h =>
  if h.due (.carry q) then h.carryEnd q else h

/-- A flip is taken for frame `n` (R373). -/
def Hub.takeFlip (h : Hub) (p : Fin 2) (q : Fin 4) (n seq : Nat) (target : Option Nat) : Hub :=
  let late := match target with
    | some t => let d := (n + 65536 - t) % 65536; Nat.ble 1 d && Nat.ble d 32767
    | none => false
  let h := h.carryEnd q
  let h := h.put (Obj.FRONT q) (1 - h.get (Obj.FRONT q))
  let h := (h.put (Obj.FLIP_STATUS p) (seq + 65536 * (q.val % 2) + 131072 * b2n late)).bump (Obj.FLIPS p)
  let h := (if late then h.bump (Obj.LATE_FLIPS p) else h).icSet (5 + p.val)
  let rs := h.carryRects q
  let bytes := (rs.map fun r => r.w * r.h * pixBytes (h.eff (Obj.PLANE_FORMAT q))).sum
  let h := (h.setPlane q fun _ => { flip := none, rects := [], carry := some rs }).put (Obj.FLIP_PENDING q) 0
  ((h.stallPlane q true).bumpBy (Obj.CARRY_BYTES p) bytes).arm (.carry q) (2000 + bytes * 2 / 3)

/-- The flip is due at the window for frame `n` (R372). -/
def flipDue (n : Nat) (target : Option Nat) : Bool :=
  match target with
  | some t => let d := (t + 65536 - n % 65536) % 65536; d == 0 || Nat.ble 256 d
  | none => true

/-! ### Commit windows and self-refresh (R372 to R379) -/

/-- What a window takes decides the self-refresh state: any change, and whether all of it is fit for a selective update. The changed rows
are kept for the update. Under PSR, and for an update whose window opens less than 25 µs before the frame, the content goes out one frame
later (R377 to R379). -/
def Hub.srWindow (h : Hub) (p : Fin 2) (rest : Nat) (changed selective : Bool) (rows : List (Nat × Nat)) : Hub :=
  let st := h.get (Obj.SR_STATE p)
  let d := h.disp[p]
  let short := Nat.ble (rest + 1) (us 25)
  let mode := h.get (Obj.SR_MODE_IN_USE p)
  if st = 1 then
    let n := if changed then 0 else d.idle + 1
    if Nat.ble (h.eff (Obj.SR_IDLE_FRAMES p)) n then (h.put (Obj.SR_STATE p) 2).setDisp p fun d => { d with idle := 0, wait := 0 }
    else h.setDisp p fun d => { d with idle := n }
  else if st = 2 then h.setDisp p fun d => { d with wait := d.wait + 1 }
  else if st = 3 ∧ changed then
    if selective && Nat.ble 2 mode then
      ((h.put (Obj.SR_STATE p) 4).emit (.mainLink p true false)).setDisp p fun d => { d with
        su := rows, suNext := none, sentAt := none, later := short }
    else
      (((h.put (Obj.SR_STATE p) 5).bump (Obj.SR_EXITS p)).emit (.mainLink p true (mode == 1))).setDisp p fun d => { d with
        sentAt := none, later := mode == 1 }
  else if st = 4 ∧ changed then
    h.setDisp p fun d =>
      if short && d.sentAt.isNone then { d with suNext := some (d.suNext.getD [] ++ rows) }
      else { d with su := d.su ++ rows, sentAt := none, later := short }
  else h

/-- The rows of a selective update: those covered, extended to the sink's Y granularity (R378). -/
def Hub.suRows (h : Hub) (p : Fin 2) : List Nat :=
  let g := max 1 (h.disp[p]).yGran
  (h.allRows p).filter fun y => (h.disp[p]).su.any fun r => Nat.ble (r.1 / g * g) y && Nat.ble (y + 1) (ceilDiv r.2 g * g) && Nat.ble (r.1 + 1) r.2

/-- The frame a window opened for goes out as the self-refresh state has it: whole, its update region, or not at all (R377 to R379). -/
def Hub.srFrame (h : Hub) (p : Fin 2) (rest n : Nat) : Hub :=
  let st := h.get (Obj.SR_STATE p)
  let d := h.disp[p]
  let done := h.now + rest + h.lineNs p (h.get (Obj.V_ACTIVE p))
  if st = 3 then h
  else if st = 4 ∨ st = 5 then
    if d.later then h.setDisp p fun d => { d with later := false }
    else if st = 4 then
      if d.sentAt.isSome then h
      else (h.sendFrame p n (h.suRows p)).setDisp p fun d => { d with
        su := d.suNext.getD [], suNext := none, sentAt := if d.suNext.isSome then none else some done }
    else (h.sendFrame p n (h.allRows p)).setDisp p fun d => { d with sentAt := some (d.sentAt.getD done) }
  else h.sendFrame p n (h.allRows p)

/-- Rows of the active area that a rectangle of a plane covers, under the plane's place in effect. -/
def Hub.rectRows (h : Hub) (q : Fin 4) (r : Rect) : Nat × Nat :=
  let y := if q.val % 2 = 0 then r.y else h.eff (Obj.POS q) / 65536 + r.y
  (y, y + r.h)

/-- Rows of the active area that plane 1 covers; none while it is disabled. -/
def Hub.overlayRows (h : Hub) (p : Fin 2) : List (Nat × Nat) :=
  let q := planeNo p 1
  if h.eff (Obj.PLANE_ENABLE q) = 0 then [] else [h.rectRows q ⟨0, 0, 0, (planeSize h.eff h.get q).2⟩]

/-- The opening of a commit window (R372, R376): what is left of the frame under way keeps its timing. Where the stream stops, its last
frame has ended. -/
def Hub.window (h : Hub) (p : Fin 2) : Hub :=
  if h.disp[p].stops then h.dispOff p
  else
    let rest := h.lineNs p (h.eff (Obj.DISP_V_LEAD p))
    let mine := h.waiting.filter (frameScope p)
    let rwf := mine.filter fun w => match rowOf w.key with
      | some r => r.acc == .rwf
      | none => false
    let timing := mine.any fun w => w.unit == .timing
    let small := fun (w : Waiting) => w.key / 256 % 2 == 1 && w.key / 256 ≥ 0x5208 && (w.key % 256 == 6 || w.key % 256 == 7 || w.key % 256 == 8)
    let n := (h.frameCount p + 1) % 65536
    let h := h.put (Obj.FRAME_COUNT p) (h.frameCount p)
    let old := if rwf.any small then h.overlayRows p else []
    let h := (h.takeUnit .frame (frameScope p)).takeUnit .timing (frameScope p)
    let due := (List.finRange 2).filterMap fun k => match (h.planes[planeNo p k]).flip with
      | some (seq, t) => if flipDue n t then some (planeNo p k, seq, t) else none
      | none => none
    let rows := due.flatMap (fun x => (h.carryRects x.1).map (h.rectRows x.1)) ++ old ++ (if rwf.any small then h.overlayRows p else [])
    let h := due.foldl (fun h x => h.takeFlip p x.1 n x.2.1 x.2.2) h
    let h := h.srWindow p rest (!rwf.isEmpty || timing || !due.isEmpty) (rwf.all small && !timing) rows
    let d := h.disp[p]
    let carries := match d.rates with
      | some _ => Nat.ble (streamNeeds (h.get (Obj.PIX_CLK p)) (h.eff (Obj.DISP_BPC p)))
          ((topRate ((List.range 16).foldl (fun m i => if dispRate i = h.get (Obj.DISP_LINK_RATE p) then setBit m i else m) 0)).elim 0 fun i =>
            rateCarries i (h.get (Obj.DISP_LANES p)))
      | none => true
    let h := if timing && h.get (Obj.DISP_LINK p) == 4 && !carries then h.dispRetrain p else h
    (h.srFrame p rest n).armWindow p rest

/-- Meaning of COMMIT_WINDOW_OPEN. -/
def execCommitWindowOpen (p : Fin 2) (s : State) : Host.Outcome State Fault Refusal := s.run fun h =>
  if h.due (.window p) && h.domOn 19 then h.window p else h

/-- Meaning of DISP_UNDERRUN (R366): the line, and its first pixel that was not fetched in time. -/
def execDispUnderrun (p : Fin 2) (line x : W16) (s : State) : Host.Outcome State Fault Refusal := s.run fun h =>
  if !h.disp[p].runs || !h.domOn 19 || h.get (Obj.V_ACTIVE p) ≤ line.toNat || h.get (Obj.H_ACTIVE p) ≤ x.toNat then h
  else
    let n := h.frameCount p
    let h := (h.emit (.dispBlack p line.toNat x.toNat)).bump (Obj.UNDERRUN_LINES p)
    if h.disp[p].under = some n then h
    else (h.event 0x37 (Obj.UNDERRUN_LINES p)).setDisp p fun d => { d with under := some n }

/-- Meaning of SR_ENTRY_REPORT (R377): within 2 frames; LPDDR5X reads stop and the main link sleeps. -/
def execSrEntryReport (p : Fin 2) (s : State) : Host.Outcome State Fault Refusal := s.run fun h =>
  if h.get (Obj.SR_STATE p) = 2 ∧ (h.disp[p]).wait < 2 then
    ((h.put (Obj.SR_STATE p) 3).bump (Obj.SR_ENTRIES p)).emit (.mainLink p false false)
  else h

/-- Meaning of SR_ENTRY_FAILED (R377). -/
def execSrEntryFailed (p : Fin 2) (s : State) : Host.Outcome State Fault Refusal := s.run fun h =>
  if h.get (Obj.SR_STATE p) = 2 ∧ 2 ≤ (h.disp[p]).wait then
    (((h.put (Obj.SR_STATE p) 1).bump (Obj.SR_ENTRY_FAILS p)).event 0x3A (Obj.SR_ENTRY_FAILS p)).setDisp p fun d => { d with idle := 0, wait := 0 }
  else h

/-- The frame that ends state 4 or 5 has been sent. -/
def Hub.srSent (h : Hub) (p : Fin 2) : Bool := match (h.disp[p]).sentAt with
  | some t => Nat.ble t h.now
  | none => false

/-- Meaning of SR_UPDATE_FRAME_SENT (R377, R378): once the update frame has been sent. -/
def execSrUpdateFrameSent (p : Fin 2) (s : State) : Host.Outcome State Fault Refusal := s.run fun h =>
  if h.get (Obj.SR_STATE p) = 4 ∧ h.srSent p then
    (((h.put (Obj.SR_STATE p) 3).bump (Obj.SU_FRAMES p)).emit (.mainLink p false false)).setDisp p fun d => { d with idle := 0, sentAt := none }
  else h

/-- Meaning of SR_EXIT_COMPLETE (R377, R379): once the first full frame has been sent. -/
def execSrExitComplete (p : Fin 2) (s : State) : Host.Outcome State Fault Refusal := s.run fun h =>
  if h.get (Obj.SR_STATE p) = 5 ∧ h.srSent p then
    (h.put (Obj.SR_STATE p) 1).setDisp p fun d => { d with idle := 0, sentAt := none }
  else h

/-! ### Update records (R368 to R370) -/

/-- Pixel bytes written row by row into the back buffer, as many as there are. -/
def Hub.writeRows (h : Hub) (q : Fin 4) (r : Rect) (row : Nat) : Nat → Nat → List Byte → Hub
  | 0, _, _ => h
  | fuel + 1, i, bs =>
    if bs.isEmpty then h
    else (h.memWrite (h.pixAddr q (1 - h.get (Obj.FRONT q)) r.x (r.y + i)) (bs.take row)).writeRows q r row fuel (i + 1) (bs.drop row)

/-- A record discarded (R370). -/
def Hub.recordBad (h : Hub) (p : Fin 2) : Hub := (h.bump (Obj.RECORDS_DISCARDED p)).event 0x38 (Obj.RECORDS_DISCARDED p)

/-- An update record as its cells brought it; `gapAt` is the byte before which a sequence gap fell. -/
def Hub.record (h : Hub) (t : Nat) (bytes : List Byte) (gapAt : Option Nat) : Hub :=
  let code := h.get (Obj.TUN_LOCAL t) % 4
  let p : Fin 2 := if code / 2 = 0 then 0 else 1
  let q := planeNo p (if code % 2 = 0 then 0 else 1)
  let b1 := byteAt bytes 1
  let r : Rect := ⟨ofBE (slice bytes 4 2), ofBE (slice bytes 6 2), ofBE (slice bytes 8 2), ofBE (slice bytes 10 2)⟩
  let (w, n) := planeSize h.eff h.get q
  let px := pixBytes (h.eff (Obj.PLANE_FORMAT q))
  let row := r.w * px
  let len := 32 + (if bitOf b1 3 ∨ r.w = 0 then 0 else row * r.h)
  let have_ := match gapAt with
    | some g => bytes.take g
    | none => bytes
  if have_.length < 32 ∨ byteAt bytes 0 ≠ 0xD5 ∨ b1 % 4 ≠ code ∨ w < r.x + r.w ∨ n < r.y + r.h then h.recordBad p
  else
    let pixels := if bitOf b1 3 then
        (List.replicate (r.w * r.h) ((slice bytes 16 4).reverse.take px)).flatten
      else (have_.take len).drop 32
    let h := if r.w = 0 then h else (h.writeRows q r row r.h 0 pixels).setPlane q fun s => { s with rects := s.rects ++ [r] }
    if gapAt.isSome ∨ have_.length < len then h.recordBad p
    else
      let h := h.bump (Obj.RECORDS_WRITTEN p)
      if bitOf b1 2 then h.markFlip q (ofBE (slice bytes 2 2)) (if bitOf b1 4 then some (ofBE (slice bytes 12 2)) else none) else h

/-- The byte before which the first sequence gap within a record falls: one before a cell that is not its first (R370). -/
def gapPlace : List InCell → Option Nat
  | [] => none
  | [_] => none
  | c :: d :: cs => if d.gap then some c.bytes.length else (gapPlace (d :: cs)).map (· + c.bytes.length)

/-- Meaning of UPDATE_RECORD_RX: a record of a tunnel that ends at the frame-store writer, or, with none given, the one that waits there,
unless the writer takes none of it. -/
def execUpdateRecordRx (t : Tunnel) (rec_ : Option (List Byte × Option Nat)) (s : State) : Host.Outcome State Fault Refusal :=
  s.run fun h =>
    if h.tunUsed t && h.hasEnd t 14 && h.domOn 19 && !h.core.stalls.contains (t.val, 14) then
      match rec_ with
      | some (bytes, gapAt) => h.record t bytes gapAt
      | none => match h.messageTake 14 t with
        | some (cs, h) => h.record t (cs.map InCell.bytes).flatten (gapPlace cs)
        | none => h
    else h

end Sys2Proof.Machine
end

