-- ==== Sys2Proof/Machine/Clocks.lean ====
section
/-! DEFINITION. Clocks (chapter 17): sources of the clock domains, divider ramps, qualification and trim, and the clock monitors. -/

namespace Sys2Proof.Machine

/-- A change of the clock logic's own state. -/
def Hub.setClk (h : Hub) (f : ClkSt → ClkSt) : Hub := { h with clk := f h.clk }

/-- The PLL of a clock code is locked. -/
def Hub.locked (h : Hub) (k : Nat) : Bool := bitOf (h.get Obj.PLL_LOCK) k

/-- A PLL's lock bit. -/
def Hub.setLock (h : Hub) (k : Nat) (b : Bool) : Hub := h.put Obj.PLL_LOCK (putBit (h.get Obj.PLL_LOCK) k b)

/-- Source and divider of a domain; a change to a source it did not have is a switch (R503). -/
def Hub.domainClock (h : Hub) (d src div : Nat) : Hub :=
  let old := h.get (Obj.CD_SOURCE d)
  let h := ((h.put (Obj.CD_SOURCE d) src).put (Obj.CD_DIV d) div).setClk fun c => { c with held := c.held.filter (· != d) }
  if src = 0 ∨ old = src then h else (h.bump (Obj.CD_SWITCHES d)).event 0x46 (Obj.CD_SOURCE d)

/-- A domain stopped: no edges, any ramp ended. -/
def Hub.domainStop (h : Hub) (d : Domain) : Hub :=
  ((h.put (Obj.CD_SOURCE d.val) 0).put (Obj.CD_DIV d.val) 0).disarm (.divRamp d)

/-- Domains 1 to 3. -/
def spllDomains : List Domain := [1, 2, 3]
/-- Domains 0 to 3, which RC can feed. -/
def rcDomains : List Domain := [0, 1, 2, 3]

/-! ### Divider ramps (R504, R505) -/

/-- The time a domain runs at a divider before its next step: 64 cycles of SPLL's 2.5 ns times the divider. -/
def rampNs (div : Nat) : Nat := 160 * div

/-- One step of a domain's divider toward `CD_DIV_SET`, and the 64 cycles that follow. -/
def Hub.divStep (h : Hub) (d : Domain) : Hub :=
  let cur := h.get (Obj.CD_DIV d.val)
  let set := h.get (Obj.CD_DIV_SET d.val)
  if h.get (Obj.CD_SOURCE d.val) ≠ 1 ∨ cur = set then h.disarm (.divRamp d)
  else
    let next := if cur < set then cur + 1 else cur - 1
    (h.put (Obj.CD_DIV d.val) next).arm (.divRamp d) (rampNs next)

/-- Meaning of DIVIDER_RAMP_STEP, for domain `d` + 1. -/
def execDividerRampStep (d : Fin 3) (s : State) : Host.Outcome State Fault Refusal :=
  s.run fun h =>
    let d : Domain := ⟨d.val + 1, by omega⟩
    if h.due (.divRamp d) then h.divStep d else h

/-- `CD_DIV_SET` accepted: a ramp starts unless one runs or the domain is not on its PLL (R504). -/
def Hub.divWritten (h : Hub) (d : Domain) (v : Nat) : Hub :=
  let h := h.accept (Obj.CD_DIV_SET d.val) v
  if h.armed (.divRamp d) || h.get (Obj.CD_SOURCE d.val) != 1 then h else h.divStep d

/-- Meaning of CD_DIV_SET_WRITE: a ramp that runs turns to the new target; one that does not starts with its first step. -/
def execCdDivSetWrite (o : Origin) (d : Fin 3) (v : W32) (s : State) : Host.Outcome State Fault Refusal :=
  s.run fun h =>
    let d : Domain := ⟨d.val + 1, by omega⟩
    h.guarded o (Obj.CD_DIV_SET d.val) v.toNat fun h => (rcOk, h.divWritten d v.toNat)

/-- A domain on SPLL at divider 8, then ramped (R505). -/
def Hub.toSpll (h : Hub) (d : Domain) : Hub := (h.domainClock d.val 1 8).arm (.divRamp d) (rampNs 8)

/-! ### RC (R506 to R509, R512, R513) -/

/-- RC can feed a domain: it is qualified, or runs flagged unqualified under R512. -/
def Hub.rcReady (h : Hub) : Bool := h.get Obj.RC_STATE == 3 || h.get Obj.RC_STATE == 4

/-- RC feeds a domain. -/
def Hub.rcFeeds (h : Hub) : Bool := rcDomains.any fun d => h.get (Obj.CD_SOURCE d.val) == 2

/-- A domain on RC. -/
def Hub.toRc (h : Hub) (d : Domain) : Hub := (h.domainClock d.val 2 (if d.val = 0 then 2 else 1)).disarm (.divRamp d)

/-- RC in standby stops once XTAL has qualified and RC feeds no domain (R509). -/
def Hub.rcRest (h : Hub) : Hub :=
  if h.eff Obj.RC_STANDBY == 1 && h.get Obj.XTAL_STATE == 2 && !h.rcFeeds && h.clk.held.isEmpty then
    (h.put Obj.RC_STATE 0).disarm .rcTrim
  else h

/-- A domain falls back to RC, or is held stopped until RC qualifies (R511, R512). -/
def Hub.fallBack (h : Hub) (ds : List Domain) : Hub :=
  if h.rcReady then ds.foldl Hub.toRc h
  else
    let h := ds.foldl (fun h d => ((h.domainStop d).setClk fun c => { c with held := d.val :: c.held.filter (· != d.val) }).bump
      (Obj.CD_HELD d.val)) h
    let h := if h.get Obj.RC_STATE = 0 then h.put Obj.RC_STATE 1 else h
    h.arm .rcQual (us 200)

/-- A fault recorded in `CLK_FAULT_CAUSE` with its time. -/
def Hub.clkFault (h : Hub) (cause clk : Nat) : Hub :=
  (h.put Obj.CLK_FAULT_CAUSE (cause + 256 * clk)).put Obj.CLK_FAULT_TIME h.time32

/-- The clock-fault path (R513). -/
def Hub.clkFailed (h : Hub) (cause clk : Nat) : Hub :=
  let h := rcDomains.foldl (fun h d =>
    if h.get (Obj.CD_SOURCE d.val) = 2 ∨ h.clk.held.contains d.val ∨ cause = 5 then
      (h.domainStop d).setClk fun c => { c with held := d.val :: c.held.filter (· != d.val) }
    else h) h
  let h := (h.setClk fun c => { c with failed := true }).disarm .rcQual
  let h := h.put Obj.CLK_FAULT_CAUSE (cause + 256 * clk)
  let h := if cause = 4 then h.bump Obj.RC_QUAL_FAILS else h
  (h.event 0x49 Obj.CLK_FAULT_CAUSE).hwTrip 2 clk

/-- The trim search of RC leaves a code that is a measurement: an open value (R507). -/
def Hub.trimSearch (h : Hub) : Hub := h.used.put Obj.RC_TRIM (h.free 10)

/-- Held domains start on RC. -/
def Hub.heldToRc (h : Hub) : Hub :=
  if h.clk.failed then h
  else (rcDomains.filter fun d => h.clk.held.contains d.val).foldl Hub.toRc (h.disarm .rcQual)

/-- A clock that can qualify RC: REFCLK, or TX_CLK locked to a recovered L0 clock (R506, R512); XTAL has tripped. -/
def Hub.rcReference (h : Hub) : Bool :=
  h.get Obj.REFCLK_STATE == 2 || h.get Obj.XTAL_STATE == 2 ||
    (h.locked 3 && (List.range 2).any fun p => h.get (Obj.TK_REF_LOCK p) == 1 &&
      (h.get (Obj.TK_REF_SOURCE p) == 2 || h.get (Obj.TK_REF_SOURCE p) == 3))

/-- Meaning of RC_QUAL_TIMEOUT (R512). -/
def execRcQualTimeout (s : State) : Host.Outcome State Fault Refusal :=
  s.run fun h =>
    if !h.due .rcQual then h
    else if h.rcReady then h.heldToRc
    else if h.rcReference then (h.disarm .rcQual).clkFailed 4 1
    else
      let h := ((h.disarm .rcQual).trimSearch.put Obj.RC_STATE 4).put Obj.CLK_FAULT_CAUSE (6 + 256)
      (h.event 0x48 Obj.RC_STATE).heldToRc

/-- The trim source available, by R508: 1 XTAL, 2 REFCLK, 3 start-of-frame marks, 0 none. -/
def Hub.trimSource (h : Hub) : Nat :=
  if h.get Obj.XTAL_STATE = 2 then 1
  else if h.get Obj.REFCLK_STATE = 2 then 2
  else if h.flag Obj.RC_TRIM_SOF && h.get Obj.USB_STATE == 4 then 3
  else 0

/-- Meaning of RC_TRIM_STEP: one code step toward the trim source, whose direction the comparison gives. -/
def execRcTrimStep (up : Bool) (s : State) : Host.Outcome State Fault Refusal :=
  s.run fun h =>
    if !h.due .rcTrim then h
    else
      let src := h.trimSource
      let t := h.get Obj.RC_TRIM
      let h := (h.put Obj.RC_TRIM_SOURCE src).arm .rcTrim (ms 1)
      if src = 0 then h
      else if up then (if t < 1023 then (h.put Obj.RC_TRIM (t + 1)).bump Obj.RC_TRIM_STEPS else h)
      else if 0 < t then (h.put Obj.RC_TRIM (t - 1)).bump Obj.RC_TRIM_STEPS else h

/-! ### Trips (R510, R511) -/

/-- Spilled cells discarded when the memory's clock stops (R511). -/
def Hub.spillLost (h : Hub) : Hub :=
  let gone := h.core.cells.filter fun c => c.place == .spill
  let h := gone.foldl Hub.dropQueued h
  h.setCore fun c => { c with cells := c.cells.filter (fun x => x.place != .spill), spillBusy := true }

/-- A PLL's domain stops: what its blocks do (R511). -/
def Hub.pllDomain (h : Hub) (k : Nat) : Hub :=
  match k with
  | 6 => ((h.domainStop 6).phyLink 0 0).phyLink 1 0
  | 7 => (h.domainStop 7).usbOff
  | 8 => (h.domainStop 8).spillLost
  | 9 => if h.get (Obj.DISP_LINK 0) = 0 then h.domainStop 9 else ((h.domainStop 9).dispOff 0).put (Obj.DISP_LINK 0) 1
  | 10 => if h.get (Obj.DISP_LINK 1) = 0 then h.domainStop 10 else ((h.domainStop 10).dispOff 1).put (Obj.DISP_LINK 1) 1
  | _ => h

/-- REFCLK lost: root ends that use it go into holdover; a leaf end ignores it (R142, R144, R511). -/
def Hub.refclkLost (h : Hub) : Hub :=
  let ps := (List.range 2).filter fun p => h.get (Obj.TK_REF_SOURCE p) == 1 && h.trunkEnd p == 1
  let h := ps.foldl (fun h p => ((h.put (Obj.TK_REF_SOURCE p) 4).put (Obj.TK_REF_LOCK p) 0).event 0x23 (Obj.TK_REF_SOURCE p)) h
  if ps.isEmpty then h else (h.rtpll false).arm .refSteer (ms 10)

/-- What a trip of a clock does (R511). -/
def Hub.tripAct (h : Hub) (clk : Nat) : Hub :=
  match clk with
  | 0 =>
    let h := (h.put Obj.XTAL_STATE 3).fallBack rcDomains
    let h := [4, 6, 7, 8, 9, 10].foldl (fun h k => h.setLock k false) h
    [6, 7, 8, 9, 10].foldl Hub.pllDomain h
  | 1 =>
    if h.rcFeeds then (h.put Obj.RC_STATE 5).clkFailed (h.get Obj.CLK_FAULT_CAUSE % 256) 1
    else (h.put Obj.RC_STATE 5).disarm .rcTrim
  | 2 => (h.put Obj.REFCLK_STATE 3).refclkLost
  | 3 =>
    (List.range 2).foldl Hub.refHoldover (h.rtpll false)
  | 4 => (h.setLock 4 false).fallBack spllDomains
  | k => (h.setLock k false).pllDomain k

/-- A trip: status, cause and time, count, event, RC started from standby (R509), the action, and cause 2 for SM (R511, R625). Where the clock-fault path of R513
acts, it carries the cause. -/
def Hub.clkTrip (h : Hub) (clk cause : Nat) : Hub :=
  if bitOf (h.get Obj.CLK_MON_STATUS) clk then h
  else
    let h := (h.put Obj.CLK_MON_STATUS (setBit (h.get Obj.CLK_MON_STATUS) clk)).clkFault cause clk
    let h := ((h.bump Obj.MON_TRIPS).event 0x47 Obj.CLK_MON_STATUS)
    let h := if h.get Obj.RC_STATE = 0 then h.put Obj.RC_STATE 1 else h
    let h := h.tripAct clk
    if h.clk.failed then h else h.report 2 clk

/-- Both XTAL and RC tripped without an arbiter: cause 5 and the clock-fault path (R510, R513). -/
def Hub.bothTrip (h : Hub) : Hub :=
  let h := h.put Obj.CLK_MON_STATUS (setBit (setBit (h.get Obj.CLK_MON_STATUS) 0) 1)
  let h := (((h.clkFault 5 0).bumpBy Obj.MON_TRIPS 2).event 0x47 Obj.CLK_MON_STATUS).event 0x47 Obj.CLK_MON_STATUS
  let h := ((h.put Obj.XTAL_STATE 3).put Obj.RC_STATE 5).disarm .rcTrim
  let h := [4, 6, 7, 8, 9, 10].foldl (fun h k => h.setLock k false) h
  ([6, 7, 8, 9, 10].foldl Hub.pllDomain h).clkFailed 5 0

/-- The clock is monitored now (R510). -/
def Hub.monitored (h : Hub) (clk : Nat) : Bool :=
  match clk with
  | 0 => h.get Obj.XTAL_STATE == 2
  | 1 => [2, 3, 4].contains (h.get Obj.RC_STATE)
  | 2 => h.get Obj.REFCLK_STATE == 2
  | k => h.locked k

/-- Meaning of CLOCK_MONITOR_TRIP: 0 missing edges, 1 frequency, 2 unlock of a PLL, 3 XTAL and RC disagree without arbiter. -/
def execClockMonitorTrip (clk : Fin 11) (cause : Fin 4) (s : State) : Host.Outcome State Fault Refusal :=
  s.run fun h =>
    if cause.val = 3 then (if clk.val ≤ 1 ∧ h.monitored 0 ∧ h.monitored 1 ∧ !h.locked 3 then h.bothTrip else h)
    else if h.monitored clk.val && (cause.val != 2 || Nat.ble 3 clk.val) then h.clkTrip clk.val (cause.val + 1)
    else h

/-! ### Qualification (R506, R514) -/

/-- The domains a clock feeds take it (R501, R505, R514). -/
def Hub.clockBack (h : Hub) (clk : Nat) : Hub :=
  match clk with
  | 0 =>
    let h := ((h.put Obj.XTAL_STATE 2).setClk fun c => { c with failed := false }).takeUnit .xtal fun _ => true
    (if h.get (Obj.CD_SOURCE 0) = 1 then h else h.domainClock 0 1 1).rcRest
  | 1 =>
    let h := (h.trimSearch.put Obj.RC_STATE 3).arm .rcTrim (ms 1)
    let h := (h.put Obj.RC_TRIM_SOURCE h.trimSource).heldToRc
    (spllDomains.foldl (fun h d => if h.get (Obj.CD_SOURCE d.val) = 0 && !h.clk.failed then h.toRc d else h) h).rcRest
  | 2 =>
    let h := (h.put Obj.REFCLK_STATE 2).disarm .refSteer
    let h := (List.finRange 2).foldl Hub.rootRef h
    if (List.range 2).any (fun p => h.trunkEnd p == 1 && h.get (Obj.TK_REF_SOURCE p) == 1) then h.rtpll true else h
  | 3 => h.rtpll true
  | 4 => (spllDomains.foldl (fun h d => if h.get (Obj.CD_SOURCE d.val) = 1 then h else h.toSpll d) (h.setLock 4 true)).rcRest
  | 5 => { (h.setLock 5 true).domainClock 4 1 1 with netRuns := true }
  | 8 => ((h.setLock 8 true).domainClock 8 1 1).setCore fun c => { c with spillBusy := false }
  | 9 =>
    let h := (h.setLock 9 true).domainClock 9 1 1
    if h.flag (Obj.DISP_ENABLE 0) && h.disp[(0 : Fin 2)].hpd && h.get (Obj.DISP_LINK 0) == 1 then h.dispTrain 0 else h
  | 10 =>
    let h := (h.setLock 10 true).domainClock 10 1 1
    if h.flag (Obj.DISP_ENABLE 1) && h.disp[(1 : Fin 2)].hpd && h.get (Obj.DISP_LINK 1) == 1 then h.dispTrain 1 else h
  | k => (h.setLock k true).domainClock k 1 1

/-- The reference a PLL needs is there (R499). -/
def Hub.pllReference (h : Hub) (clk : Nat) : Bool :=
  clk == 3 || Nat.ble clk 2 || h.get Obj.XTAL_STATE == 2 || (clk == 5 && h.locked 3)

/-- The clock is not yet qualified or locked, and where it is an oscillator it runs (R506). -/
def Hub.unqualified (h : Hub) (clk : Nat) : Bool :=
  match clk with
  | 0 => h.get Obj.XTAL_STATE != 2
  | 1 => h.get Obj.RC_STATE != 0 && h.get Obj.RC_STATE != 3 && h.rcReference
  | 2 => h.get Obj.REFCLK_STATE != 2
  | k => !h.locked k

/-- Meaning of CLOCK_QUALIFIED: a clock that is not tripped has passed its windows, or a PLL has locked. -/
def execClockQualified (clk : Fin 11) (s : State) : Host.Outcome State Fault Refusal :=
  s.run fun h =>
    if bitOf (h.get Obj.CLK_MON_STATUS) clk.val || !h.pllReference clk.val || !h.unqualified clk.val then h else h.clockBack clk.val

/-- Meaning of CLOCK_REQUALIFIED: the clock's bit clears and its domains return (R514); cause 2 passes with the last bit. -/
def execClockRequalified (clk : Fin 11) (s : State) : Host.Outcome State Fault Refusal :=
  s.run fun h =>
    if !bitOf (h.get Obj.CLK_MON_STATUS) clk.val || !h.pllReference clk.val then h
    else
      let h := (h.put Obj.CLK_MON_STATUS (clrBit (h.get Obj.CLK_MON_STATUS) clk.val)).clockBack clk.val
      h.causesPass.startupCheck

/-- Meaning of REFCLK_HOLDOVER_STEER (R511): under R145, `TK_REF_SOURCE` then reads 5. -/
def execRefclkHoldoverSteer (s : State) : Host.Outcome State Fault Refusal :=
  s.run fun h =>
    if h.due .refSteer then
      let h := h.disarm .refSteer
      (List.range 2).foldl (fun h p =>
        if h.get (Obj.TK_REF_SOURCE p) = 4 ∧ h.trunkEnd p = 1 ∧ h.uplinks.isEmpty ∧ h.get Obj.ROLE_ACTIVE ≠ 0 then
          ((h.put (Obj.TK_REF_SOURCE p) 5).put (Obj.TK_REF_LOCK p) 1).rtpll true
        else h) h
    else h

/-- A running domain's clock frequency in kHz is a measurement: an open value; 0 while it is stopped (R515). -/
def Hub.freqView (h : Hub) (d : Nat) : Nat × Hub := if h.get (Obj.CD_SOURCE d) = 0 then (0, h) else (h.free 32, h.used)

end Sys2Proof.Machine
end

