-- ==== Sys2Proof/Machine/Power.lean ====
section
/-! DEFINITION. Power domains, performance levels, Simmer, AVSBus and the energy meter (chapter 18). -/

namespace Sys2Proof.Machine

/-! ### Needs (R520) -/

/-- A change of a domain's sequence. -/
def Hub.setDom (h : Hub) (d : Domain) (f : DomSt → DomSt) : Hub := { h with doms := h.doms.set d (f h.doms[d]) }

/-- An engine executes. -/
def Hub.engRuns (h : Hub) (e : Engine) : Bool :=
  (h.get (Obj.ENG_STATE e.val) == 2 || h.get (Obj.ENG_STATE e.val) == 6) && !(h.engs[e]).asleep

/-- A port's link is outside L1.2 and detect. L1.2 is a link in L1 whose settings permit it (log entry 40). -/
def Hub.pcieNeeds (h : Hub) (p : Fin 2) : Bool :=
  h.pcie.role[p] != 0 &&
    (let l := h.get (Obj.PCIE_LINK p)
     Nat.ble 2 l && !(l == 5 && bitOf (h.eff (Obj.PCIE_ASPM p)) 2))

/-- A DISP port with an enabled plane reads memory. -/
def Hub.dispReads (h : Hub) (p : Nat) : Bool :=
  h.get (Obj.SR_STATE p) != 3 && h.flag (Obj.DISP_ENABLE p) && (List.range 2).any fun k => h.eff (Obj.PLANE_ENABLE (2 * p + k)) == 1

/-- AXL has work in the present cycle: a link cycle that has not started or not ended, or a response cell not yet presented (R524). -/
def Hub.axlBusy (h : Hub) : Bool :=
  (List.finRange 8).any fun n =>
    let a := h.axl[n]
    let st := h.get (Obj.AXL_STATE n.val)
    ((st == 1 || st == 2) && a.started != h.mot.last) || a.runs ||
      (!h.isMaster && a.started.isSome && Nat.ble (a.sent + 1) (h.respCells n.val).length)

/-- A domain follows the motion schedule (R524). -/
def Hub.scheduled (h : Hub) (d : Nat) : Bool := h.motState == 2 && h.eff (Obj.PD_SCHED d) == 1

/-- A domain is within its scheduled window: on by schedule, with its work for the cycle not done. -/
def Hub.schedWindow (h : Hub) (d : Domain) : Bool :=
  h.scheduled d.val && h.domOn d.val &&
    (if d.val = 24 then h.axlBusy else if he : d.val - 4 < 12 then !(h.engs[d.val - 4]).asleep else false)

/-- The needs of a domain, in the order of the table of R520. -/
def Hub.needRows (h : Hub) (d : Domain) : List Bool :=
  match d.val with
  | 2 => [(List.range 9).any (fun i => h.domOn (16 + i)), (List.finRange 12).any h.engRuns, !h.core.cells.isEmpty]
  | 3 => [(List.range 9).any (fun i => h.domOn (16 + i)), (List.finRange 12).any h.engRuns, !h.core.cells.isEmpty]
  | 16 => [(h.links[(0 : Fin 2)]).mode, h.get (Obj.LINK_STATE 0) != 0]
  | 17 => [(h.links[(1 : Fin 2)]).mode, h.get (Obj.LINK_STATE 1) != 0]
  | 18 => [(List.finRange 2).any h.pcieNeeds, (List.range 64).any (fun c => h.get (Obj.DMA_STATUS c) == 1), !h.pcie.np.isEmpty]
  | 19 => [h.flag (Obj.DISP_ENABLE 0) || h.flag (Obj.DISP_ENABLE 1)]
  | 20 => [h.get Obj.CAM_RX_ENABLE != 0, (List.range 8).any (fun t => h.get (Obj.TRIG_MODE t) != 0)]
  | 21 => [(List.range 2).any (fun e => h.get (Obj.ETH_MODE e) != 0 && h.get (Obj.ETH_LINK e) != 0),
           (List.range 2).any (fun e => h.flag (Obj.ETS_ENABLE e))]
  | 22 => [h.flag Obj.USB_ENABLE && h.get Obj.USB_STATE != 5]
  | 23 => [h.dispReads 0 || h.dispReads 1, h.spillActive || h.spillUsed != 0, h.planes.toList.any (fun q => q.carry.isSome)]
  | 24 => [(List.range 8).any (fun n => h.get (Obj.AXL_STATE n) == 2) && !(h.scheduled 24 && !h.axlBusy)]
  | _ => []

/-- `PD_NEED` (R538): the rows that hold, and [31] for the scheduled window. -/
def Hub.pdNeed (h : Hub) (d : Domain) : Nat :=
  (((h.needRows d).zipIdx.map fun (b, i) => b2n b * 2 ^ i).sum) + (if h.schedWindow d then 2 ^ 31 else 0)

/-- Some need of the domain holds, or AXL is held on until motion first runs (R666). -/
def Hub.needed (h : Hub) (d : Domain) : Bool :=
  (h.needRows d).any id || h.schedWindow d || h.domState d.val == 3 || d.val == 24 && h.boot.axlHold

/-- The resting state of a domain: `PD_REQ`, which rests an engine only as off and only while it is not running (R520). -/
def Hub.restState (h : Hub) (d : Domain) : Nat :=
  let r := h.get (Obj.PD_REQ d.val)
  if 4 ≤ d.val ∧ d.val ≤ 15 then
    (if r = 2 ∧ [0, 4, 5].contains (h.get (Obj.ENG_STATE (d.val - 4))) then 2 else 0)
  else r

/-! ### Rest (R519 to R521) -/

/-- A domain starts to enter a resting state; the lists of the bus masters end when FAB leaves on (R450). -/
def Hub.restStart (h : Hub) (d : Domain) (rest : Nat) : Hub :=
  if h.domState d.val = 0 then
    let h := ((h.put (Obj.DOM_STATE d.val) 4).setDom d fun s => { s with rest := rest }).disarm (.idle d)
    if d.val = 2 then h.abortLists else h
  else h

/-- Idle timers: armed while a domain that is on rests when idle and has no need; stopped by a need. -/
def Hub.idleFollow (h : Hub) (d : Domain) : Hub :=
  if h.domState d.val = 0 ∧ h.restState d ≠ 0 ∧ !h.needed d then
    (if h.armed (.idle d) then h else h.arm (.idle d) (ms (h.get (Obj.PD_IDLE_TIMEOUT d.val))))
  else h.disarm (.idle d)

/-- Meaning of DOMAIN_IDLE_TIMEOUT. -/
def execDomainIdleTimeout (d : Domain) (s : State) : Host.Outcome State Fault Refusal :=
  s.run fun h =>
    if h.due (.idle d) && !h.needed d && h.restState d != 0 then h.restStart d (h.restState d) else h

/-- A trunk port whose domain is off: its link is down, every lane is OFF and the stored sets are lost (R147, R214 cause 7, R519). -/
def Hub.trunkOff (h : Hub) (p : Port) : Hub :=
  let h := if h.linkUp p then h.linkDown p 7 true else h
  let h := ((((h.stopTimers p).disarm (.backoff p)).lanesOff p).l0Gone p).discardSets p
  ((h.put (Obj.LINK_STATE p) 0).put (Obj.TK_RATE p) 0).setEnd p 0

/-- What a domain loses when it is off (R519). -/
def Hub.domainLost (h : Hub) (d : Domain) : Hub :=
  let h := h.setDom d fun s => { s with lost := true }
  let h := ((List.range 15).filter fun k => egressDomain k == some d.val).foldl Hub.egressLost h
  if he : 4 ≤ d.val ∧ d.val ≤ 15 then
    let e : Engine := ⟨d.val - 4, by omega⟩
    ((h.tcmZero e).setEng e fun _ => {}).put (Obj.ENG_STATE e.val) 0
  else if d.val = 3 then h.setCore fun c => { c with cells := c.cells.filter (fun x => x.place == .spill), lines := [] }
  else if d.val = 16 then h.trunkOff 0
  else if d.val = 17 then h.trunkOff 1
  else if d.val = 18 then
    let h := (List.finRange 64).foldl (fun h ch => (h.setDma ch { fetched := h.get (Obj.DMA_HEAD ch.val) }).put (Obj.DMA_STATUS ch.val) 0)
      (h.inboxClear [2, 3])
    ((List.finRange 2).foldl (fun h p => h.pcieDown p 0) h).cfgReset
  else if d.val = 19 then
    let h := (h.dispOff 0).dispOff 1
    let h := (List.range 4).foldl (fun h q => h.put (Obj.FLIP_PENDING q) 0) (h.inboxClear [14])
    { h with planes := Vector.replicate 4 {}, core := { h.core with stalls := h.core.stalls.filter fun x => x.2 != 14 } }
  else if d.val = 20 then { h with cam := Vector.replicate 16 none, trig := Vector.replicate 8 {} }
  else if d.val = 21 then ((h.inboxClear [8, 9]).phyLink 0 0).phyLink 1 0
  else if d.val = 22 then { (h.put Obj.USB_STATE 0).put Obj.DEV_STATE 0 with usb := {} }
  else if d.val = 23 then (h.spillLost.setCore fun c => { c with spillBusy := false }).memZero 0 (2 ^ 33)
  else if d.val = 24 then (h.inboxClear [10]).axlDomain false
  else h

/-- Meaning of DOMAIN_REST_ENTERED. -/
def execDomainRestEntered (d : Domain) (s : State) : Host.Outcome State Fault Refusal :=
  s.run fun h =>
    if h.domState d.val ≠ 4 then h
    else
      let rest := (h.doms[d]).rest
      let h := (h.put (Obj.DOM_STATE d.val) rest).bump (Obj.DOM_RESTS d.val)
      let h := if d.val = 24 then h.emit (.axlTerm false) else h
      if rest = 2 then h.domainLost d else h

/-! ### Wakes (R521 to R526) -/

/-- A cell waits for an egress of the domain, or for a queue of its engine (R523). -/
def Hub.cellWaits (h : Hub) (d : Domain) : Bool :=
  ((List.range 15).any fun k => egressDomain k == some d.val && h.core.cells.any (·.waits k)) ||
    (Nat.ble 4 d.val && Nat.ble d.val 15 && h.core.cells.any fun c => c.waits 13 && (chanQueue c.chan).1 == d.val - 4)

/-- A link event concerns the domain: CC lines the trunk ports, PERSTn, CLKREQn and WAKEn PCIE, HPD DISP, PHYINTn NET, resume USB (R520). -/
def linkConcerns (l d : Nat) : Bool := ([[16, 17], [18], [18], [19], [21], [22]].getD l []).contains d

/-- Meaning of DOMAIN_WAKE: a link event, a need, or a cell queued for an egress of a retained domain. -/
def execDomainWake (d : Domain) (link : Option (Fin 6)) (s : State) : Host.Outcome State Fault Refusal :=
  s.run fun h =>
    match link with
    | some l => if linkConcerns l.val d.val then h.startWake d 5 l.val else h
    | none =>
      if (h.needRows d).any id then h.startWake d 6 d.val
      else if h.domState d.val = 1 ∧ h.flag (Obj.PD_WAKE_ON_ACCESS d.val) ∧ h.cellWaits d then
        (h.startWake d 2 16).bump (Obj.ACCESS_WAKES d.val)
      else h

/-- `PD_REQ` = 0 written: the domain wakes (R522). -/
def Hub.pdReqWritten (h : Hub) (o : Origin) (d : Domain) : Hub :=
  if h.get (Obj.PD_REQ d.val) = 0 then h.startWake d 1 (wakeDetail o) else h

/-- The domain is on after its wake: cause and time recorded, its blocks resume. -/
def Hub.wakeDone (h : Hub) (d : Domain) : Hub :=
  let w := h.doms[d]
  let h := ((h.put (Obj.DOM_STATE d.val) 0).put (Obj.PD_WAKE_LAST d.val) (w.cause + 256 * w.detail)).put (Obj.PD_WAKE_TIME d.val) h.time32
  let h := ((h.bump (Obj.DOM_WAKES d.val)).disarm (.wakeBound d)).setDom d fun s => { s with late := false, lost := false }
  let h := (h.setSm fun x => { x with powerFaults := x.powerFaults.filter (· != d.val) }).causesPass.startupCheck
  if he : 4 ≤ d.val ∧ d.val ≤ 15 then (if w.lost then h.engReload ⟨d.val - 4, by omega⟩ else h)
  else if d.val = 24 then (h.axlDomain true).emit (.axlTerm true)
  else if d.val = 20 ∧ w.lost then h.camStart
  else if d.val = 19 ∧ w.lost then h.dispStart
  else h

/-- Meaning of DOMAIN_WAKE_LATE: late at the bound, a domain power fault at four times the bound (R525). -/
def execDomainWakeLate (d : Domain) (s : State) : Host.Outcome State Fault Refusal :=
  s.run fun h =>
    if !h.due (.wakeBound d) || h.domState d.val != 3 then h
    else if (h.doms[d]).late then
      ((h.disarm (.wakeBound d)).setSm fun x => { x with powerFaults := d.val :: x.powerFaults.filter (· != d.val) }).report 10 d.val
    else
      let h := (((h.setDom d fun s => { s with late := true }).bump (Obj.WAKE_LATE d.val)).event 0x4B (Obj.DOM_STATE d.val))
      h.arm (.wakeBound d) (3 * wakeBound d.val (h.doms[d]).lost)

/-- `PD_WAKE_LEAD` in ns (R524). -/
def wakeLead (d : Nat) : Nat := if d = 24 then 9000 else if 4 ≤ d ∧ d ≤ 15 then 21000 else 0

/-- A scheduled domain whose work for the cycle is done rests until its wake, unless too little time would remain (R524). -/
def Hub.schedFollow (h : Hub) (d : Domain) : Hub :=
  let lead := wakeLead d.val
  if lead = 0 ∨ !h.scheduled d.val ∨ h.domState d.val ≠ 0 ∨ h.schedWindow d ∨ h.armed (.sched d) then h
  else
    let wake := h.cycleStart (h.cycleNow.1 + 1) - lead
    if Nat.ble (h.netNs + h.eff Obj.PD_MIN_DWELL) wake then (h.restStart d 1).arm (.sched d) (wake - h.netNs) else h

/-- Meaning of SCHEDULED_WAKE. A scheduled engine records wake source 3 and resumes after its WFI. -/
def execScheduledWake (d : Domain) (s : State) : Host.Outcome State Fault Refusal :=
  s.run fun h =>
    if !h.due (.sched d) then h
    else
      let h := (h.disarm (.sched d)).startWake d 3 0
      if he : 4 ≤ d.val ∧ d.val ≤ 15 then
        let e : Engine := ⟨d.val - 4, by omega⟩
        if (h.engs[e]).asleep then
          let h := (h.setEng e fun x => { x with asleep := false }).engShow e
          ((h.put (Obj.TGT_WAKE_LAST e.val) 3).put (Obj.TGT_WAKE_TIME e.val) h.time32).bump (Obj.ENG_WAKES e.val)
        else h
      else h

/-! ### Performance levels (R527 to R529, R536) -/

/-- A change of the state of Simmer. -/
def Hub.setSim (h : Hub) (f : SimSt → SimSt) : Hub := { h with sim := f h.sim }

/-- The display floor (R365). -/
def Hub.dispFloor (h : Hub) : Nat := (firstBelow (fun l => Nat.ble (2 * h.fsNeedNow) (levelPeak l)) 4).getD 3

/-- `PL_FLOOR`. -/
def Hub.plFloor (h : Hub) : Nat :=
  max (max (h.get Obj.PL_MIN) h.dispFloor) (if h.spillActive then h.get Obj.PL_SPILL else 0)

/-- The level called for. -/
def Hub.plTarget (h : Hub) : Nat :=
  if h.get Obj.SIM_MODE = 1 then h.plFloor else max h.plFloor (h.get Obj.PL_VSEL_LEVEL)

/-! ### Simmer (R530 to R532) -/

/-- Rows of R258: mV, minimum capacity in Mbit/s, maximum transit in ns. -/
def coreRows : List (Nat × Nat × Nat) :=
  [(580, 1200000, 180), (650, 1350000, 162), (700, 1480000, 150), (720, 1550000, 145), (800, 1850000, 125)]

/-- Minimum capacity at a voltage between two rows meets a demand, given in hundredths of the unit of R696. -/
def capOk (v req : Nat) : Bool :=
  (coreRows.zip (coreRows.drop 1)).any fun ((v0, c0, _), (v1, c1, _)) =>
    Nat.ble v0 v && Nat.ble v v1 && Nat.ble (req * (v1 - v0)) (100 * mbps (c0 * (v1 - v0) + (c1 - c0) * (v - v0)))

/-- Maximum transit at a voltage between two rows meets a target. -/
def transitOk (v target : Nat) : Bool :=
  (coreRows.zip (coreRows.drop 1)).any fun ((v0, _, t0), (v1, _, t1)) =>
    Nat.ble v0 v && Nat.ble v v1 && Nat.ble (t0 * (v1 - v0)) (target * (v1 - v0) + (t0 - t1) * (v - v0))

/-- The least voltage from 580 to 800 mV that satisfies `p`; 800 where none does. -/
def leastMv (p : Nat → Bool) : Nat := 580 + (firstBelow (fun i => p (580 + i)) 221).getD 220

/-- d of R530, exact. -/
def Hub.simDemand (h : Hub) : Nat :=
  ((List.range 14).map fun k =>
    if k < 2 then
      (let pay := fun c => h.codePayNow k c (1 - h.sendDir k)
       if h.linkUp k then max (h.rateIn k) (max (pay (h.get (Obj.ALLOT_NEXT k))) (pay (h.get (Obj.ALLOT_AFTER k)))) else 0)
    else match egressDomain k with
      | some d => if h.domOn d || h.scheduled d then mbps (attachRate k) else 0
      | none => mbps (attachRate k)).sum

/-- The sensor term while it holds. -/
def Hub.sensorTerm (h : Hub) : Nat :=
  if h.sim.sensor = 0 ∨ h.sim.sensorSeen + us (h.get Obj.SIM_DOWN_HOLD) ≤ h.now then 0 else h.sim.sensor

/-- The target of R530. -/
def Hub.simTarget (h : Hub) (demand : Nat) : Nat :=
  let level := max (h.plTarget) (h.get Obj.PL_CURRENT)
  let v3 := levelMv level
  if h.get Obj.SIM_ENABLE = 0 then v3
  else
    let v1 := leastMv fun v => capOk v (demand * (100 + h.get Obj.SIM_MARGIN))
    let v2 := leastMv fun v => transitOk v (h.get Obj.SIM_TRANSIT_TARGET)
    let raise := h.get Obj.SIM_POT_RAISE
    let v4 := if raise ≠ 0 ∧ raise * 131072 ≤ 100 * h.potOcc then 700 else 0
    let v := max (max (h.get Obj.SIM_VMIN) (max v1 v2)) (max v4 h.sensorTerm)
    max (min (5 * ceilDiv v 5) (h.get Obj.SIM_VMAX)) v3

/-- A request sent on the AVSBus; its acknowledgement is awaited for 100 µs from the end of its frame of 1.6 µs (R533, R534). A raise is due within 8 µs + Δv / `AVS_SLEW` (R532). -/
def Hub.avsSend (h : Hub) (k : AvsKind) : Hub :=
  let bound := match k with
    | .write mv => h.now + us 8 + (mv - h.get Obj.VCORE_ACK) * 1000 / h.get Obj.AVS_SLEW
    | _ => h.now
  ((((h.setSim fun s => { s with req := some ⟨k, false, bound⟩, newer := if k = .current then s.newer else none }).bump
    Obj.AVS_REQUESTS).emit (.avs k)).arm .avsAck (us 100 + 1600)).disarm .avsRepeat

/-- A voltage asked for: sent at once, or after the request that waits; in place of a waiting write at its next repeat. -/
def Hub.avsWant (h : Hub) (mv : Nat) : Hub :=
  match h.sim.req with
  | none => if mv = h.get Obj.VCORE_ACK then h else h.avsSend (.write mv)
  | some r => if r.kind = .write mv then h.setSim fun s => { s with newer := none } else h.setSim fun s => { s with newer := some mv }

/-- The voltage last asked for. -/
def Hub.avsAsked (h : Hub) : Nat :=
  match h.sim.newer, h.sim.req with
  | some v, _ => v
  | none, some ⟨.write v, _, _⟩ => v
  | none, _ => h.get Obj.VCORE_ACK

/-- An evaluation in AVS mode: demand and target shown; a higher target is asked for, a lower one after `SIM_DOWN_HOLD` (R532). -/
def Hub.simmer (h : Hub) : Hub :=
  if h.get Obj.SIM_MODE ≠ 1 then h
  else
    let h := h.put Obj.PL_FLOOR h.plFloor
    let d := h.simDemand
    let v := h.simTarget d
    let h := (h.put Obj.SIM_DEMAND (wholeMbps d)).put Obj.VCORE_TARGET v
    let hold := us (h.get Obj.SIM_DOWN_HOLD)
    let old := h.sim.hist.filter fun x => Nat.ble h.now (x.1 + hold)
    let before := h.sim.hist.any fun x => Nat.ble (x.1 + hold) h.now
    let keep := (h.sim.hist.filter fun x => !Nat.ble h.now (x.1 + hold)).take 1
    let h := h.setSim fun s => { s with hist := (h.now, v) :: old ++ keep }
    if h.avsAsked < v then h.avsWant v
    else if v < h.avsAsked ∧ before ∧ (old.all fun x => Nat.ble x.2 v) then h.avsWant v
    else h

/-- What the AVSBus master does as time passes: a frame that SlaveAck 0b01 has put off is repeated after 10 µs, a waiting write with the newer
target; and while a window is metered and no request waits, Current is read every 10 µs (R534, R537). -/
def Hub.avsFollow (h : Hub) : Hub :=
  match h.sim.req with
  | some r =>
    if !h.due .avsRepeat then h
    else match r.kind, h.sim.newer with
      | .write _, some v => h.avsSend (.write v)
      | k, _ => (h.emit (if r.acked then .avsStatus else .avs k)).disarm .avsRepeat
  | none =>
    if h.get Obj.SIM_MODE = 1 ∧ h.get Obj.EN_STATUS = 1 ∧ h.sim.curAt + us 10 ≤ h.now then
      (h.setSim fun s => { s with curAt := h.now }).avsSend .current
    else h

/-- Meaning of SIMMER_EVALUATE. -/
def execSimmerEvaluate (s : State) : Host.Outcome State Fault Refusal := s.run Hub.simmer

/-- Meaning of SENSOR_RAISE: some sensor reads slower; a rise of 10 mV per 100 µs from the acknowledged voltage (R531). -/
def execSensorRaise (s : State) : Host.Outcome State Fault Refusal :=
  s.run fun h =>
    let h := h.setSim fun s => { s with sensor := h.sensorTerm, sensorSeen := h.now }
    if h.sim.sensor ≠ 0 ∧ h.now < h.sim.sensorAt + us 100 then h
    else
      let base := if h.sim.sensor = 0 then h.get Obj.VCORE_ACK else h.sim.sensor
      (h.setSim fun s => { s with sensor := base + 10, sensorAt := h.now }).bump Obj.SENSOR_RAISES

/-! ### VSEL mode (R535, R536) -/

/-- VSEL driven to a level; `VCORE_ACK` reads its preset. -/
def Hub.vselDrive (h : Hub) (l : Nat) : Hub :=
  ((h.put Obj.VCORE_ACK (levelMv l)).setSim fun s => { s with vsel := l, vselWas := s.vsel, vselAt := h.now }).emit (.vsel l)

/-- Meaning of PL_CHANGE: the level called for differs from the level in effect, and its change starts (R528): a raise asks for the
voltage first, a lowering for the DRAM rate. -/
def execPlChange (s : State) : Host.Outcome State Fault Refusal :=
  s.run fun h =>
    let h := h.put Obj.PL_FLOOR h.plFloor
    let t := h.plTarget
    if t = h.get Obj.PL_CURRENT then h.setSim fun x => { x with level := none }
    else if h.sim.level = some t then h
    else
      let h := h.setSim fun x => { x with level := some t, since := h.now, deferred := false }
      if h.get Obj.SIM_MODE = 1 then h.simmer
      else if h.get Obj.PL_CURRENT < t then h.vselDrive t
      else h

/-- A display port lets the DRAM rate change now: in vertical blanking, its next active line 80 µs away or more (R529). -/
def Hub.blankOk (h : Hub) (p : Fin 2) : Bool :=
  let d := h.disp[p]
  !h.dispReads p || !d.runs ||
    (Nat.ble (d.next + h.lineNs p (h.get (Obj.V_ACTIVE p))) (h.now + h.lineNs p (h.get (Obj.V_TOTAL p))) && Nat.ble (h.now + us 80) d.next)

/-- Two frames of the slowest port that reads memory. -/
def Hub.twoFrames (h : Hub) : Nat :=
  ((List.finRange 2).map fun (p : Fin 2) => if h.dispReads p.val then 2 * h.lineNs p (h.get (Obj.V_TOTAL p.val)) else 0).foldl max 0

/-- VDD_CORE did not settle (R535). -/
def Hub.notSettled (h : Hub) : Hub :=
  ((h.setSm fun x => { x with unsettled := true }).event 0x4D Obj.VCORE_MEASURED).report 3 0

/-- A voltage lies within 15 mV of another. -/
def near15 (a b : Nat) : Bool := Nat.ble a (b + 15) && Nat.ble b (a + 15)

/-- The DRAM rate of the level taken: domain 8 stops until MPLL has locked again (R528). -/
def Hub.rateTaken (h : Hub) (t : Nat) : Hub :=
  let h := ((h.put Obj.PL_CURRENT t).setSim fun x => { x with level := none }).bump Obj.PL_CHANGES
  let h := h.event 0x4C Obj.PL_CURRENT
  let h := if h.get (Obj.CD_SOURCE 8) = 0 then h
    else ((h.domainStop 8).setLock 8 false).setCore fun c => { c with spillBusy := true }
  if h.get Obj.SIM_MODE = 1 then h.simmer else if h.get Obj.VCORE_ACK = levelMv t then h else h.vselDrive t

/-- Meaning of DRAM_RATE_CHANGE: an instant is tried. The operand is the VDD_CORE measured, which a raise in VSEL mode waits for. -/
def execDramRateChange (measured : W16) (s : State) : Host.Outcome State Fault Refusal :=
  s.run fun h =>
    match h.sim.level with
    | none => h
    | some t =>
      let raise := h.get Obj.PL_CURRENT < t
      let vsel := h.get Obj.SIM_MODE != 1
      if raise ∧ vsel ∧ !near15 measured.toNat (levelMv t) then
        let h := h.put Obj.VCORE_MEASURED measured.toNat
        if h.sim.since + us 200 ≤ h.now ∧ !h.safety.unsettled then h.notSettled else h
      else if raise ∧ !vsel ∧ h.get Obj.VCORE_ACK < levelMv t then h
      else if (List.finRange 2).all h.blankOk || (raise && Nat.ble (h.sim.since + h.twoFrames) h.now) then h.rateTaken t
      else if h.sim.deferred then h
      else (h.setSim fun x => { x with deferred := true }).bump Obj.PL_DEFERRED

/-! ### AVSBus (R533 to R535) -/

/-- The fallback to VSEL mode. -/
def Hub.avsFallback (h : Hub) : Hub :=
  let h := (h.setSim fun x => { x with req := none, newer := none, misses := 0, hist := [], enBad := true }).disarm .avsAck |>.disarm .avsRepeat
  let h := ((h.put Obj.SIM_MODE 2).bump Obj.AVS_FALLBACKS)
  ((h.event 0x4A Obj.SIM_MODE).vselDrive (max h.plFloor (h.get Obj.PL_VSEL_LEVEL))).arm .vcoreSettle (ms 1)

/-- Meaning of AVS_ACK_TIMEOUT: the third consecutive miss is the fallback; another is repeated at once, with a newer target. -/
def execAvsAckTimeout (s : State) : Host.Outcome State Fault Refusal :=
  s.run fun h =>
    if !h.due .avsAck then h
    else match h.sim.req with
      | none => h.disarm .avsAck
      | some r =>
        let n := h.sim.misses + 1
        let h := (h.setSim fun x => { x with misses := n }).bump Obj.AVS_NO_ACK
        if 3 ≤ n then
          (if h.get Obj.SIM_MODE = 2 then (h.setSim fun x => { x with req := none, newer := none, misses := 0 }).disarm .avsAck
           else h.avsFallback)
        else h.avsSend (match r.kind, h.sim.newer with
          | .write v, w => .write (w.getD v)
          | k, _ => k)

/-- The request that waited has ended; the voltage asked for meanwhile is requested. -/
def Hub.avsEnd (h : Hub) : Hub :=
  let next := h.sim.newer
  let h := ((h.setSim fun x => { x with req := none, newer := none, misses := 0 }).disarm .avsAck).disarm .avsRepeat
  match next with
  | some v => h.avsWant v
  | none => h

/-- A voltage write acknowledged. -/
def Hub.avsAcked (h : Hub) (mv : Nat) : Hub := ((h.put Obj.VCORE_ACK mv).bump Obj.VCORE_CHANGES).avsEnd

/-- Back in AVS mode after `AVS_RESTORE`, at the voltage read. -/
def Hub.avsBack (h : Hub) (mv : Nat) : Hub :=
  let h := (h.setSim fun x => { x with req := none, newer := none, misses := 0 }).disarm .avsAck
  let h := ((h.put Obj.SIM_MODE 1).put Obj.VCORE_ACK mv).setSm fun x => { x with unsettled := false }
  h.causesPass.startupCheck

/-- Energy of one current reading: mV × mA × 10 µs. -/
def Hub.enReading (h : Hub) (ma : Nat) : Hub :=
  if h.get Obj.EN_STATUS = 1 then h.setSim fun x => { x with enCore := x.enCore + h.get Obj.VCORE_ACK * ma } else h

/-- A response with a valid CRC to the request that waits. Status is read from a write's response on until it shows VDone. -/
def Hub.avsResponse (h : Hub) (r : AvsReq) (ack : Nat) (vdone : Bool) (val : Nat) : Hub :=
  if ack = 1 then (if h.armed .avsRepeat then h else h.arm .avsRepeat (us 10))
  else match r.kind with
    | .voltage => if ack = 0 then h.avsBack val else h
    | .current => if ack = 0 then (h.enReading val).avsEnd else h
    | .write mv =>
      if r.acked then (if ack = 0 ∧ vdone then h.avsAcked mv else h.emit .avsStatus)
      else if ack = 0 then (h.setSim fun x => { x with req := some { r with acked := true } }).emit .avsStatus
      else h

/-- Meaning of AVS_RESPONSE_RX: a response frame with its CRC check, SlaveAck, VDone of a Status read, and value. -/
def execAvsResponseRx (crcOk : Bool) (ack : Fin 4) (vdone : Bool) (val : W16) (s : State) : Host.Outcome State Fault Refusal :=
  s.run fun h =>
    match h.sim.req with
    | some r => if crcOk then h.avsResponse r ack.val vdone val.toNat else h
    | none => h

/-- Meaning of VCORE_SETTLE_CHECK. -/
def execVcoreSettleCheck (measured : W16) (s : State) : Host.Outcome State Fault Refusal :=
  s.run fun h =>
    if !h.due .vcoreSettle then h
    else
      let h := (h.disarm .vcoreSettle).put Obj.VCORE_MEASURED measured.toNat
      if near15 measured.toNat (h.get Obj.VCORE_ACK) then (h.setSm fun x => { x with unsettled := false }).causesPass.startupCheck
      else h.notSettled

/-- Voltage is read, to try to return from fallback (R535). -/
def Hub.avsRestore (h : Hub) : Hub := if h.get Obj.SIM_MODE = 2 ∧ h.sim.req = none then h.avsSend .voltage else h

/-- Meaning of AVS_RESTORE: Voltage is read. -/
def execAvsRestore (o : Origin) (v : W32) (s : State) : Host.Outcome State Fault Refusal :=
  s.run fun h => h.guarded o Obj.AVS_RESTORE v.toNat fun h => (rcOk, h.avsRestore)

/-! ### Energy (R537) -/

/-- The end of a window: its results published. The trunk energy is measured on the die. -/
def Hub.enDone (h : Hub) (trunk : Nat) : Hub :=
  let core := h.sim.enCore / 100000
  let bits := 8 * (h.core.transit - h.sim.enFrom)
  let h := ((h.put Obj.EN_CORE_UJ core).put Obj.EN_TK_UJ trunk).put Obj.EN_BITS bits
  let h := if bits = 0 then (h.put Obj.EN_PJ_PER_BIT (h.free 32)).used
    else h.put Obj.EN_PJ_PER_BIT ((2 * (core + trunk) * 100000000 + bits) / (2 * bits))
  ((h.put Obj.EN_STATUS (if h.sim.enBad then 3 else 2)).setSim fun x => { x with enSeen := false }).disarm .enWindow

/-- A metering window starts. -/
def Hub.enStart (h : Hub) : Hub :=
  let bad := h.get Obj.SIM_MODE != 1
  let h := h.setSim fun x => { x with enCore := 0, enFrom := h.core.transit, enBad := bad, enSeen := true }
  (h.put Obj.EN_STATUS 1).arm .enWindow (ms (h.get Obj.EN_WINDOW))

/-- A window that runs ends. -/
def Hub.enStop (h : Hub) (trunk : Nat) : Hub :=
  if h.get Obj.EN_STATUS = 1 then h.enDone trunk else h.setSim fun x => { x with enSeen := true }

/-- Meaning of EN_START. -/
def execEnStart (o : Origin) (s : State) : Host.Outcome State Fault Refusal :=
  s.run fun h => h.guarded o Obj.EN_CONTROL 1 fun h => (rcOk, h.enStart)

/-- Meaning of EN_STOP: a window that runs ends. -/
def execEnStop (o : Origin) (trunk : W64) (s : State) : Host.Outcome State Fault Refusal :=
  s.run fun h => h.guarded o Obj.EN_CONTROL 2 fun h => (rcOk, h.enStop trunk.toNat)

/-- Meaning of EN_WINDOW_END. -/
def execEnWindowEnd (trunk : W64) (s : State) : Host.Outcome State Fault Refusal :=
  s.run fun h => if h.due .enWindow && h.get Obj.EN_STATUS == 1 then h.enDone trunk.toNat else h

end Sys2Proof.Machine
end

