-- ==== Sys2Proof/Machine/Ic.lean ====
section
/-! DEFINITION. The interrupt controller: conditions of the level sources, claims and completions, the wakes of sleeping engines and
the host's line (R488 to R496, R130, R131). -/

namespace Sys2Proof.Machine

/-! ### Conditions of the level sources (R488, R517, R539, R569, R593, R620, R651) -/

/-- A receive queue of an engine that interrupts holds a cell (R472, R488). -/
def Hub.queueHolds (h : Hub) (e : Nat) : Bool :=
  (List.range 8).any fun q =>
    let r := h.get (Obj.Q_RING e q)
    Nat.ble 2 (field r 19 16) && !bitOf r 20 && bitOf r 21 && h.get (Obj.Q_HW e q) != h.get (Obj.Q_SW e q)

/-- A channel of the engine reads this `DMA_STATUS`. -/
def Hub.dmaReads (h : Hub) (e st : Nat) : Bool :=
  (List.range 64).any fun c => h.get (Obj.DMA_OWNER c) == e && h.get (Obj.DMA_STATUS c) == st

/-- A PLL that feeds a running domain is not locked (R499, R501, R516). -/
def Hub.pllLate (h : Hub) : Bool :=
  ([(1, 4), (2, 4), (3, 4), (4, 5), (6, 6), (7, 7), (8, 8), (9, 9), (10, 10)].any fun (x : Nat × Nat) =>
    h.get (Obj.CD_SOURCE x.1) == 1 && !h.locked x.2) || (h.get (Obj.CD_SOURCE 5) != 0 && !h.locked 3)

/-- The condition of a level source holds. -/
def Hub.levelHolds (h : Hub) (s : Nat) : Bool :=
  let active := fun c => bitOf (h.get Obj.SAFE_ACTIVE) c
  if 36 ≤ s ∧ s ≤ 47 then h.dmaReads (s - 36) 2
  else if 48 ≤ s ∧ s ≤ 59 then h.dmaReads (s - 48) 3
  else if 60 ≤ s ∧ s ≤ 71 then h.queueHolds (s - 60)
  else if 72 ≤ s ∧ s ≤ 83 then h.get (Obj.ENG_STATE (s - 72)) == 5
  else match s with
    | 32 => h.get Obj.EVENT_COUNT != 0
    | 33 => h.get Obj.ERRLOG_COUNT != 0
    | 34 => h.get Obj.DISCARD_COUNT != 0
    | 35 => h.get Obj.CPL_SYNTH_CA != 0
    | 84 => h.get Obj.DEV_EVENT != 0
    | 85 => !(h.eth[(0 : Fin 2)]).ptp.isEmpty
    | 86 => !(h.eth[(1 : Fin 2)]).ptp.isEmpty
    | 96 => h.get (Obj.PD_ATTN 0) != 0
    | 97 => h.get (Obj.PD_ATTN 1) != 0
    | 98 => (List.range 8).any fun n => h.get (Obj.SLOT_ATTN n) != 0
    | 99 => (List.range 8).any fun n => h.get (Obj.SLOT_STATE n) == 7
    | 100 => h.get Obj.FEED_ATTN != 0
    | 101 => h.feeds.loss
    | 102 => h.feedStuck
    | 104 => h.get Obj.CLK_MON_STATUS != 0
    | 105 => h.get Obj.RC_STATE == 4
    | 106 => h.pllLate
    | 107 => h.rcFeeds && h.get Obj.RC_TRIM_SOURCE == 0
    | 108 => h.get Obj.SIM_MODE == 2
    | 109 => (List.range 25).any fun d => h.get (Obj.WAKE_LATE d) != 0
    | 110 => Nat.ble (h.get Obj.PL_CURRENT + 1) h.plFloor
    | 111 => (h.get Obj.EN_STATUS == 2 || h.get Obj.EN_STATUS == 3) && !h.sim.enSeen
    | 112 => h.get Obj.CADDY_ATTN != 0
    | 113 => (List.finRange 64).any fun k => bitOf (h.get (Obj.KEY_ATTR k.val)) 2 && (h.caddy.slots[k]).condemned.isSome
    | 114 => h.caddy.integritySinceRead
    | 115 => h.get Obj.ENTROPY_STATE == 2
    | 116 => active 1
    | 117 => active 3 || active 10
    | 118 => h.safety.hwTaken
    | 119 => active 6
    | 120 => active 7
    | 121 => active 15
    | 122 => active 8 || active 9
    | 123 => active 13
    | 124 => active 14 || h.get Obj.SAFE_STATE == 3
    | 125 => h.get Obj.SAFE_STATE == 2
    | 126 => h.get Obj.FREEZE_LOCAL != 0 || h.get Obj.FREEZE_HOP != 0 || (List.range 8).any fun e => h.get (Obj.REMOTE_UNIT_ID e) != 0
    | 127 => h.flag Obj.SS_STATE
    | _ => false

/-- The level sources: those whose condition holds now. -/
def Hub.levelsNow (h : Hub) : List Nat := (List.range 96).filterMap fun i => if h.levelHolds (32 + i) then some (32 + i) else none

/-- Level sources brought up to date: pending at the rise of the condition, and again while it holds and the source is neither pending
nor active. -/
def Hub.icLevels (h : Hub) : Hub :=
  let ls := h.levelsNow
  let h' := ls.foldl (fun h s => if h.icActive s && h.fw.was.contains s then h else h.icSet s) h
  { h' with fw := { h'.fw with was := ls } }

/-! ### Delivery, claims and completions (R489 to R492) -/

/-- The source is enabled, routed to the target, pending and not active. -/
def Hub.claimable (h : Hub) (t s : Nat) : Bool :=
  bitOf (h.srcCfg s) 4 && h.srcCfg s % 16 == t && h.icPend s && !h.icActive s && !reservedSource s

/-- The source is deliverable to the target. -/
def Hub.deliverable (h : Hub) (t s : Nat) : Bool := h.claimable t s && !bitOf (h.get (Obj.TGT_MASK t (s / 32))) (s % 32)

/-- The source of a list with the highest priority, and among those the lowest number. -/
def Hub.firstSource (h : Hub) (ss : List Nat) : Option Nat :=
  ss.foldl (fun best s => match best with
    | none => some s
    | some b => if field (h.srcCfg b) 7 5 < field (h.srcCfg s) 7 5 then some s else best) none

/-- A read of `TGT_CLAIM`. -/
def Hub.claim (h : Hub) (t : Nat) : Nat × Hub :=
  let h := h.icLevels
  match h.firstSource ((List.range 192).filter (h.claimable t)) with
  | none => (0, h.bump Obj.IC_SPURIOUS)
  | some s =>
    let h := h.put (Obj.IC_PENDING (s / 32)) (clrBit (h.get (Obj.IC_PENDING (s / 32))) (s % 32))
    let h := h.put (Obj.IC_ACTIVE (s / 32)) (setBit (h.get (Obj.IC_ACTIVE (s / 32))) (s % 32))
    (s + 1, { h with fw := { h.fw with activeAt := (s, t) :: h.fw.activeAt.filter (·.1 != s) } })

/-- A write of `TGT_COMPLETE`. -/
def Hub.complete (h : Hub) (t v : Nat) : Hub :=
  if Nat.ble (v + 1) 192 && h.fw.activeAt.contains (v, t) then
    let h := h.put (Obj.IC_ACTIVE (v / 32)) (clrBit (h.get (Obj.IC_ACTIVE (v / 32))) (v % 32))
    let h := { h with fw := { h.fw with activeAt := h.fw.activeAt.filter (· != (v, t)) } }
    if h.icPend v then h.bump Obj.IC_REFIRES else h
  else h.bump Obj.IC_BAD_COMPLETE

/-- Meaning of TGT_COMPLETE. -/
def execTgtComplete (o : Origin) (t : Fin 14) (v : W32) (s : State) : Host.Outcome State Fault Refusal :=
  s.run fun h => h.guarded o (Obj.TGT_COMPLETE t.val) v.toNat fun h => (rcOk, h.complete t.val v.toNat)

/-- Meaning of IC_RAISE. -/
def execIcRaise (o : Origin) (v : W32) (s : State) : Host.Outcome State Fault Refusal :=
  s.run fun h => h.guarded o Obj.IC_RAISE v.toNat fun h => (rcOk, h.icSet v.toNat)

/-- A pending word written: all 32 bits take the value (R494). -/
def Hub.icWrite (h : Hub) (w v : Nat) : Hub :=
  let old := h.get (Obj.IC_PENDING w)
  let h := h.put (Obj.IC_PENDING w) (old &&& v)
  (List.range 32).foldl (fun h k => if bitOf v k then h.icSet (32 * w + k) else h) h

/-- Meaning of IC_PENDING_WRITE. -/
def execIcPendingWrite (o : Origin) (w : Fin 6) (v : W32) (s : State) : Host.Outcome State Fault Refusal :=
  s.run fun h => h.guarded o (Obj.IC_PENDING w.val) v.toNat fun h => (rcOk, h.icWrite w.val v.toNat)

/-! ### Engines asleep (R492) -/

/-- Sources that are pending and active, at the WFI of an engine. -/
def Hub.pendingActive (h : Hub) : List Nat := (List.range 192).filter fun s => h.icPend s && h.icActive s

/-- The machine timer interrupt of an engine is pending and enabled. -/
def Hub.timerWakes (h : Hub) (e : Engine) : Bool := (h.engs[e]).mtip && bitOf (h.engs[e]).mie.toNat 7

/-- The sources that wake a sleeping engine: enabled, routed to it, and become pending since its WFI. -/
def Hub.wakers (h : Hub) (e : Engine) : List Nat :=
  (List.range 192).filter fun s =>
    bitOf (h.srcCfg s) 4 && h.srcCfg s % 16 == e.val && h.icPend s && !reservedSource s &&
      !(h.icActive s && (h.engs[e]).atWfi.contains s)

/-- A WFI of an engine: it sleeps when nothing is claimable for it, and its domain rests when so set. -/
def Hub.engSleep (h : Hub) (e : Engine) : Hub :=
  let h := h.icLevels
  if (List.range 192).any (h.claimable e.val) || h.timerWakes e then h
  else
    let h := (h.setEng e fun s => { s with asleep := true, atWfi := h.pendingActive }).engShow e
    if h.get (Obj.ENG_SLEEP_DEPTH e.val) = 1 then
      (if hd : 4 + e.val < 25 then h.restStart ⟨4 + e.val, hd⟩ 1 else h)
    else h

/-- Meaning of ENGINE_WFI: the engine executes a WFI. -/
def execEngineWfi (e : Engine) (s : State) : Host.Outcome State Fault Refusal :=
  s.run fun h =>
    if (h.get (Obj.ENG_STATE e.val) = 2 ∨ h.get (Obj.ENG_STATE e.val) = 6) ∧ !(h.engs[e]).asleep ∧ (h.engs[e]).stall = none then
      (h.setEng e fun s => { s with pc := s.pc + 4, minstret := s.minstret + 1 }).engSleep e
    else h

/-- A sleeping engine that a source or its timer wakes goes on after its WFI; a domain that rests wakes for it (R492, R526). -/
def Hub.engWake (h : Hub) (e : Engine) : Hub :=
  if !(h.engs[e]).asleep || !h.engLive e.val then h
  else
    let src := h.firstSource (h.wakers e)
    if src.isNone && !h.timerWakes e then h
    else
      let h := (h.setEng e fun s => { s with asleep := false, atWfi := [] }).engShow e
      let h := match src with
        | some s => (h.put (Obj.TGT_WAKE_LAST e.val) s).put (Obj.TGT_WAKE_TIME e.val) h.time32
        | none => h
      let h := h.bump (Obj.ENG_WAKES e.val)
      if hd : 4 + e.val < 25 then
        let d : Domain := ⟨4 + e.val, hd⟩
        if h.domState d.val = 1 ∨ h.domState d.val = 4 then h.startWake d 4 (src.getD 0xFF) else h
      else h

/-- Meaning of ENGINE_WAKE. -/
def execEngineWake (e : Engine) (s : State) : Host.Outcome State Fault Refusal := s.run fun h => h.icLevels.engWake e

/-- Meaning of MTIMECMP_MATCH: MTIME has reached MTIMECMP. -/
def execMtimecmpMatch (e : Engine) (s : State) : Host.Outcome State Fault Refusal :=
  s.run fun h =>
    if (h.engs[e]).mtimecmp.toNat ≤ h.now then (h.setEng e fun s => { s with mtip := true }).engWake e else h

/-! ### The host's line (R130, R131, R489) -/

/-- The host target has a deliverable source. -/
def Hub.hostDeliverable (h : Hub) : Bool := (List.range 192).any (h.deliverable 13)

/-- MSI-X vector 0, INTn and the interrupt message of a composite member follow the host target and the summary of the members. -/
def Hub.hostFollow (h : Hub) : Hub :=
  let now := h.hostDeliverable
  let rose := now && !h.fw.hostLine
  let h := if rose then h.takeUnit .irq fun _ => true else h
  let route := h.eff Obj.HOST_IRQ_ROUTE
  let low := (route == 1 || route == 2) && (now || h.get Obj.SB_SUMMARY != 0)
  let h' := if rose && (route == 0 || route == 2) then h.post (.msix 0) else h
  let h' := if rose && h.inUnit && !h.headsUnit && !h.uplinks.isEmpty then h'.emit .irqMessage else h'
  let h' := if low != h.fw.intLow then h'.emit (.intn low) else h'
  { h' with fw := { h'.fw with hostLine := now, intLow := low } }

end Sys2Proof.Machine
end

