-- ==== Sys2Proof/Machine/Start.lean ====
section
/-! DEFINITION. Resets, the start-up sequence, straps, JTAG, partial resets and the junction temperature (R32 to R48, R61, R627, R654
to R671, R688). -/

namespace Sys2Proof.Machine

/-! ### What a reset leaves -/

/-- A command after which nothing of the object values and memories is left but what `f` puts there. -/
def State.fresh (s : State) (f : Hub → Hub) : Host.Outcome State Fault Refusal :=
  .next { s with hub := Hub.settle { s.hub with objs := ⟨[], []⟩, mem := ⟨[], []⟩ } (f { s.hub with out := [] }) }

/-- What survives PORn: the MRAM with the Caddy's records, the levels of the seat contacts, far sources that feed the hub, and the model's
own time. -/
def Hub.bare (h : Hub) : Hub :=
  { now := h.now, freeCtr := h.freeCtr, mram := h.mram, slots := h.slots, caddy := h.caddy
    pd := h.pd.map fun p => { fed := p.fed }
    boot := { since := h.boot.since, started := h.boot.started, chain := h.boot.chain } }

/-- What a loss of VDD_AON keeps of the straps and of TESTEN, which are taken at PORn release only (R43, R47). -/
def Hub.strapped (h n : Hub) : Hub :=
  { n.put Obj.STRAP_VALUE (h.get Obj.STRAP_VALUE) with
    timers := h.timers.filter fun t => t.1 == .strap
    boot := { n.boot with sampling := h.boot.sampling, samples := h.boot.samples, factory := h.boot.factory } }

/-- Timed events of the blocks that RSTn leaves as they were (R659). -/
def keptTimer : Timer → Bool
  | .seat _ | .ramp _ | .slotRetry _ | .goodTime _ | .feedHold _ | .feedReturn => true
  | .drp _ | .pdCaps _ | .pdCode _ | .vbusSettle _ | .pdRdy _ | .pdStable _ | .pdWait _ | .keepAlive _ | .reclose _ => true
  | .divRamp _ | .rcQual | .rcTrim | .refSteer | .strap => true
  | _ => false

/-- Objects that RSTn leaves as they were (R43, R659): straps, contracts, slots, feeds, clocks. -/
def keptObjects : List Nat :=
  [Obj.STRAP_VALUE, Obj.XTAL_STATE, Obj.REFCLK_STATE, Obj.RC_STATE, Obj.RC_TRIM, Obj.RC_TRIM_SOURCE, Obj.PLL_LOCK, Obj.CLK_MON_STATUS,
    Obj.FEED_IN_USE, Obj.FA_STATE, Obj.FB_STATE] ++
  ((List.range 11).flatMap fun d => [Obj.CD_SOURCE d, Obj.CD_DIV d]) ++
  ((List.range 8).flatMap fun n => [Obj.SLOT_STATE n, Obj.SLOT_FAULT_CAUSE n, Obj.SLOT_FAULT_COUNT n]) ++
  ((List.range 2).flatMap fun p => [Obj.PD_STATE p, Obj.PD_POWER_ROLE p, Obj.PD_DATA_ROLE p, Obj.PD_CONTRACT_MV p, Obj.PD_CONTRACT_MA p,
    Obj.PD_CONTRACT_POS p, Obj.PD_EPR_ACTIVE p, Obj.PD_CONTRACT_STABLE p, Obj.PD_MODE p, effOffset + Obj.PD_POWER_CAP p,
    effOffset + Obj.PD_VSEL_GPIO p, effOffset + Obj.PD_FRS_ENABLE p, effOffset + Obj.PD_CABLE_MAX_MA p, effOffset + Obj.PD_EPR_ENABLE p])

/-- Settings of the slots and feeds: in effect while RSTn is low too, until the release loads defaults and persisted values (R61, R659). -/
def kettleSettings : List Nat :=
  ((List.range 8).flatMap fun n => (List.range 11).map fun s => 256 * (0x7200 + n) + s + 1) ++
  [Obj.FEED_MODE, Obj.FEED_PRIORITY, Obj.FEED_RETURN_HOLD, Obj.FEED_VALID_HOLD, Obj.FEED_FRS_PORTS] ++
  ((List.finRange 2).flatMap fun f => [feedKey f Obj.FA_UV, feedKey f Obj.FA_OV, feedKey f Obj.FA_PD_PORT])

/-- What survives RSTn (R659). -/
def Hub.warm (h : Hub) : Hub :=
  let n : Hub := { h.bare with
    boot := { h.bare.boot with sampling := h.boot.sampling, samples := h.boot.samples, clocked := h.boot.clocked }
    pd := h.pd, feeds := h.feeds, clk := h.clk, netTime := h.netTime, netRuns := h.netRuns
    net := { last := if h.netRuns then some (h.netNs / 125000) else none }
    timers := h.timers.filter fun t => keptTimer t.1
    links := h.links.map fun l => { ({} : LinkSt) with mode := l.mode } }
  keptObjects.foldl (fun n k => n.put k (h.get k)) n

/-- Values of MRAM counters shown by objects, which no reset changes (R67, R618, R644, R670). -/
def Hub.lifeCounters (h n : Hub) : Hub :=
  let n := (n.put Obj.STORE_COUNT n.mram.stores).put Obj.RESET_COUNT n.mram.resets
  let n := match n.mram.signature with
    | some v => n.put Obj.SAFE_SIGNATURE v.toNat
    | none => n
  (List.range 64).foldl (fun n k => n.put (Obj.KEY_MRAM_WRITES k) (h.get (Obj.KEY_MRAM_WRITES k))) n

/-- The hub held in reset. -/
def Hub.holdAll (h : Hub) (why : Hold) : Hub := { h.lifeCounters h.bare with hold := why }

/-! ### Loading (R61, R63) -/

/-- A value loaded or defaulted: what a read returns and what is in effect. -/
def Hub.load (h : Hub) (k v : Nat) : Hub := if deferred k then (h.put k v).put (effOffset + k) v else h.put k v

/-- The bank with the valid CRC and the higher sequence number (R63). -/
def Mram.newest (m : Mram) : Option (Fin 2 × Bank) :=
  match m.bank0.valid, m.bank1.valid with
  | true, true => if m.bank1.seq < m.bank0.seq then some (0, m.bank0) else some (1, m.bank1)
  | true, false => some (0, m.bank0)
  | false, true => some (1, m.bank1)
  | false, false => none

/-- One persisted value whose object exists with attribute P and is wide enough for it. -/
def Hub.loadOne (h : Hub) (c : Nat × Nat) : Hub :=
  match rowOf c.1 with
  | some r => if r.persist && Nat.ble (c.2 + 1) (2 ^ r.ty.width) then h.load c.1 c.2 else h
  | none => h

/-- A persisted value passes the check that is made when all are loaded (R59, R61). -/
def Hub.loadOk (h : Hub) (c : Nat × Nat) : Bool :=
  match rowOf c.1 with
  | some r => r.persist && Nat.ble (c.2 + 1) (2 ^ r.ty.width) && legalOk r.legal r.ty.width c.2 && h.extraLegal c.1 c.2
  | none => false

/-- The check of one persisted value: one that fails gives way to the default, with the event. -/
def Hub.loadCheck (h : Hub) (c : Nat × Nat) : Hub :=
  if h.loadOk c then h else (h.load c.1 (objDefault c.1)).event 0x03 c.1

/-- One persisted value of bytes. -/
def Hub.loadBytes (h : Hub) (c : Nat × List Byte) : Hub :=
  match rowOf c.1 with
  | some r => if r.persist && (r.ty == .domain || Nat.ble c.2.length r.n) then h.putOct c.1 c.2 else h.event 0x03 c.1
  | none => h.event 0x03 c.1

/-- The persisted values over the defaults, then the check of each (R61). -/
def Hub.persistLoad (h : Hub) : Hub :=
  match h.mram.newest with
  | none => h
  | some (i, b) =>
    let h := { h with mram := { h.mram with last := i } }
    let h := b.vals.foldl Hub.loadOne h
    let h := h.put Obj.PIN_EFFECTIVE (h.get Obj.PIN_MAP)
    let ok := h.loadOk
    let h := b.octs.foldl Hub.loadBytes (b.vals.foldl Hub.loadCheck h)
    let has := fun k => b.vals.any fun c => c.1 == k && ok c
    { h with boot := { h.boot with
      roleKept := has Obj.NODE_ROLE, capKept := has (Obj.PD_POWER_CAP 0), pcieKept := has (Obj.PCIE_ROLE 0) } }

/-- The node role a strap value gives; 0b11 is a head node (R41). -/
def strapRole (v : Nat) : Nat := if v % 4 = 3 then 1 else v % 4

/-- What the contract that RSTn leaves standing runs by stays in effect; the loaded values wait for the next attach, contract or
capabilities (R545, R659, log entry 95). -/
def Hub.pdKeep (h n : Hub) (p : Nat) : Hub :=
  [Obj.PD_POWER_CAP p, Obj.PD_VSEL_GPIO p, Obj.PD_FRS_ENABLE p, Obj.PD_CABLE_MAX_MA p, Obj.PD_EPR_ENABLE p].foldl (fun n k =>
    if h.get (Obj.PD_STATE p) ≤ 1 then n.put (effOffset + k) (n.get k)
    else if h.eff k = n.get k then n
    else { n.put (effOffset + k) (h.eff k) with waiting := n.waiting ++ [⟨k, n.get k, n.now, none, unitOf k⟩] }) n

/-- The role in effect and the defaults that follow it (R12, R13, R310, R568). -/
def Hub.takeRole (h : Hub) : Hub :=
  let h := if h.boot.roleKept then h else h.load Obj.NODE_ROLE (strapRole (h.get Obj.STRAP_VALUE))
  let role := h.get Obj.NODE_ROLE
  let h := h.put Obj.ROLE_ACTIVE role
  let h := if h.boot.capKept then h else h.load (Obj.PD_POWER_CAP 0) (b2n (role == 0))
  let h := if h.boot.pcieKept then h else h.load (Obj.PCIE_ROLE 0) (if role = 0 then 1 else 2)
  let h := h.setPcie fun p => { p with
    role := Vector.ofFn fun i => h.get (Obj.PCIE_ROLE i.val)
    owner := Vector.ofFn fun i => h.get (Obj.PCIE_RP_OWNER i.val) }
  let h := h.retree
  if h.headsUnit then (h.put (Obj.MEMBER_UNIT_ID 0) Config.unitId.toNat).put (Obj.MEMBER_PATH 0) 0 else h

/-! ### The sequence of R660 -/

/-- Steps 2 and 3: XTAL and RC qualified, SPLL locked, domains 0 to 3 on their primary sources. -/
def Hub.startClocks (h : Hub) : Hub :=
  let h := ((h.put Obj.XTAL_STATE 2).put Obj.RC_STATE 3).setLock 4 true
  let h := (h.put Obj.RC_TRIM_SOURCE h.trimSource).arm .rcTrim (ms 1)
  let h := (h.put (Obj.CD_SOURCE 0) 1).put (Obj.CD_DIV 0) 1
  ((List.range 3).foldl (fun h d => (h.put (Obj.CD_SOURCE (d + 1)) 1).put (Obj.CD_DIV (d + 1)) (h.get (Obj.CD_DIV_SET (d + 1)))) h).rcRest

/-- A domain at step 5: on, with wake cause 7, when it has a need or is to be on; else in its resting state. -/
def Hub.startDomain (h : Hub) (d : Domain) : Hub :=
  if h.get (Obj.PD_REQ d.val) = 0 ∨ h.needed d then
    (((h.put (Obj.DOM_STATE d.val) 0).put (Obj.PD_WAKE_LAST d.val) 7).put (Obj.PD_WAKE_TIME d.val) h.time32).bump (Obj.DOM_WAKES d.val)
  else h.put (Obj.DOM_STATE d.val) (h.get (Obj.PD_REQ d.val))

/-- Step 7: with STRAP_BOOT = 0 the loader reads QSPI; otherwise it waits for the host (R479). -/
def Hub.startLoader (h : Hub) : Hub := if bitOf (h.get Obj.STRAP_VALUE) 5 then h else h.fwStart 1

/-- Root ports hold PERSTn until their clock is stable (R312). -/
def Hub.startPcie (h : Hub) : Hub :=
  h.setPcie fun p => { p with reset := Vector.ofFn fun i => if p.role[i] = 2 then 5 else 0 }

/-- AXL is woken at step 5, and held on until motion first runs: motion and a link group are enabled (R666). -/
def Hub.axlNeeded (h : Hub) : Bool :=
  h.get Obj.MOT_ENABLE == 1 && (List.range 8).any fun n => h.get (Obj.AXL_ENABLE n) == 1

/-- The slots go by their enables and couplings as loaded (R575, R660). -/
def Hub.slotsStart (h : Hub) : Hub := (List.finRange 8).foldl (fun h n => (h.slotEnabled n).slotCouple n) h

/-- The USB hub after start-up: unattached where it is enabled, its ports powered where they always are (R456, R458). -/
def Hub.usbStart (h : Hub) : Hub :=
  let h := h.put Obj.USB_STATE (b2n (h.eff Obj.USB_ENABLE == 1))
  (List.finRange 3).foldl (fun h p => if h.eff Obj.USB_PWR_MODE = 1 then h.usbPwr p true else h) h

/-- The start-up sequence after step 1 (the straps are latched), up to the points where the self-test, the loader, the trunks and network
time go on in parallel. `cause` is that of `RESET_CAUSE`; `RESET_COUNT` counts releases of PORn and RSTn. With STRAP_AVS the hub is in VSEL mode (R535). -/
def Hub.startUp (h : Hub) (cause : Nat) : Hub :=
  let n := if cause = 2 then h.warm else h.strapped h.bare
  let n := h.lifeCounters { n with mram := { h.mram with resets := if cause = 3 then h.mram.resets else (h.mram.resets + 1) % 2 ^ 32 } }
  let n := { n with boot := { n.boot with started := true, clocked := true } }
  let n := n.put Obj.SIM_MODE (if bitOf (n.get Obj.STRAP_VALUE) 6 then 0 else 1)
  let n := ((n.caddyLoad (cause == 1)).persistLoad.takeRole.startPcie).slotStart
  let n := if cause = 2 then h.pdKeep (h.pdKeep n 0) 1 else n
  let n := { n with boot := { n.boot with axlHold := n.axlNeeded } }
  let n := if cause = 2 ∧ h.boot.clocked then n else n.startClocks
  let n := ((n.put Obj.RESET_CAUSE cause).put Obj.STARTUP_STEP 3).arm .pathWait (n.boot.since + ms (n.eff Obj.PATH_WAIT) - n.now)
  let n := (List.finRange 25).foldl Hub.startDomain n
  let n := if n.domOn 24 then (n.axlDomain true).emit (.axlTerm true) else n
  let n := (List.range 256).foldl (fun n t => if n.tunUsed t then Hub.tunGroupDone { n with objs := ⟨[], []⟩ } n t else n) n
  let n := if n.domOn 2 then (List.finRange 24).foldl (fun n i =>
    if n.get (Obj.POLL_PERIOD i.val) = 0 then n else n.pollCommit i) n else n
  let n := (n.rescaleAll.startLoader.kettleStart 0).kettleStart 1
  let n := (List.finRange 2).foldl (fun (n : Hub) (p : Fin 2) => if (n.links[p]).mode then n.modeEntered p else n) n
  (n.camStart.dispStart.feedSelect false).slotsStart.usbStart

/-- A release of PORn or RSTn, or of the reset that a low VDD_AON is: the instant its bounds are measured from. -/
def Hub.sinceNow (h : Hub) : Hub := { h with boot := { h.boot with since := h.now } }

/-- Step 1 under way: the hub waits for its straps, and starts with this cause once they are latched (R42, R43). -/
def Hub.strapWait (h n : Hub) (cause : Nat) : Hub :=
  { h.lifeCounters n with hold := .strap, boot := { n.boot with cause := cause } }

/-- A reset begins: the balls that change are shown (R32, R33). -/
def Hub.intoReset (h n : Hub) : Hub := n.emit (.balls (h.ballsMoved n))

/-- Meaning of PORN_RELEASE: TESTEN is checked, and the straps are sampled from 20 µs on (R42, R47). -/
def execPornRelease (testen : Bool) (s : State) : Host.Outcome State Fault Refusal :=
  if s.hub.hold = .porn ∨ s.hub.hold = .run then
    s.fresh fun h =>
      let h := h.sinceNow
      if testen then
        let n := h.holdAll .factory
        { n with boot := { n.boot with factory := true } }
      else
        let n := h.bare
        (h.strapWait { n with boot := { n.boot with sampling := true } } 1).arm .strap (us 20)
  else s.always id

/-- Meaning of PORN_ASSERT. -/
def execPornAssert (s : State) : Host.Outcome State Fault Refusal := s.fresh fun h => h.intoReset (h.holdAll .porn)

/-- Meaning of RSTN_ASSERT: low for 1 µs. The straps go on being sampled at their instants. -/
def execRstnAssert (s : State) : Host.Outcome State Fault Refusal :=
  if s.hub.hold = .run ∨ s.hub.hold = .strap then
    s.fresh fun h =>
      let n := kettleSettings.foldl (fun n k => n.put k (h.get k)) h.warm
      h.intoReset { h.lifeCounters n with
        hold := .rstn, pd := Vector.ofFn fun p => { n.pd[p] with cap := some (h.get (Obj.PD_POWER_CAP p.val)) } }
  else s.always id

/-- Meaning of RSTN_RELEASE: the sequence starts from its first step (R658), which is done unless the straps are still being sampled. -/
def execRstnRelease (s : State) : Host.Outcome State Fault Refusal :=
  if s.hub.hold = .rstn ∨ s.hub.hold = .run then
    s.fresh fun h =>
      let h := h.sinceNow
      if h.boot.sampling then h.strapWait h.warm 2 else h.startUp 2
  else s.always id

/-- Meaning of VDD_AON_UNDERVOLTAGE_RESET. -/
def execVddAonUndervoltageReset (s : State) : Host.Outcome State Fault Refusal :=
  if s.hub.hold = .porn then s.always id else s.fresh fun h => h.intoReset (h.strapped (h.holdAll .vddAon))

/-- Meaning of VDD_AON_RESTORED: a start with the straps and TESTEN as PORn's release left them (R43, R47). -/
def execVddAonRestored (s : State) : Host.Outcome State Fault Refusal :=
  if s.hub.hold = .vddAon then
    s.fresh fun h =>
      let h := h.sinceNow
      if h.boot.factory then h.strapped (h.holdAll .factory)
      else if h.boot.sampling then h.strapWait (h.strapped h.bare) 3
      else h.startUp 3
  else s.always id

/-- The majority of three samples of each strap (R42). -/
def strapMajority (a b c : BitVec 7) : Nat := ((a &&& b) ||| (a &&& c) ||| (b &&& c)).toNat

/-- One sample of the straps; the third latches the majorities (R42, R43). -/
def Hub.strapSampled (h : Hub) (balls : BitVec 7) : Hub :=
  let h := { h with boot := { h.boot with samples := h.boot.samples ++ [balls] } }
  match h.boot.samples with
  | [a, b, c] =>
    { (h.disarm .strap).put Obj.STRAP_VALUE (strapMajority a b c) with boot := { h.boot with sampling := false, samples := [] } }
  | _ => h.arm .strap (us 20)

/-- Meaning of STRAP_SAMPLE: STRAP_ROLE, STRAP_MPSEL, STRAP_MPADDR, STRAP_BOOT, STRAP_AVS from bit 0; latched at the third, after which the
start goes on. -/
def execStrapSample (balls : BitVec 7) (s : State) : Host.Outcome State Fault Refusal :=
  if !s.hub.boot.sampling || !s.hub.due .strap then s.always id
  else if s.hub.hold = .rstn then s.always fun h => h.strapSampled balls
  else if s.hub.hold = .strap then
    s.fresh fun h =>
      let h := h.strapSampled balls
      if h.boot.sampling then h else h.startUp h.boot.cause
  else s.always id

/-! ### JTAG (R48) -/

/-- The TAP's instruction, and what it returns, captures and drives. -/
def Hub.tap (h : Hub) (ir : JtagIr) (id : Option Nat) (captured : List Bool) (driven : List (Ball × Bool)) : Hub :=
  { h with boot := { h.boot with jtag := ir } }.emit (.tap id captured driven)

/-- A command of the TAP, which has its supply unless PORn is low or VDD_AON is absent. -/
def State.tap (s : State) (f : Hub → Hub) : Host.Outcome State Fault Refusal :=
  if s.hub.hold = .porn ∨ s.hub.hold = .vddAon then s.always id else s.always f

/-- Meanings of JTAG_BYPASS and JTAG_IDCODE. -/
def execJtagBypass (s : State) : Host.Outcome State Fault Refusal := s.tap fun h => h.tap .bypass none [] []
def execJtagIdcode (s : State) : Host.Outcome State Fault Refusal := s.tap fun h => h.tap .idcode (some 0x14816A5B) [] []

/-- Meaning of JTAG_SAMPLE_PRELOAD: while RSTn is held low, the chain captures the levels of the balls, `pins` being those of their nets,
and takes the shifted values. -/
def execJtagSamplePreload (pins chain : List Bool) (s : State) : Host.Outcome State Fault Refusal :=
  s.tap fun h =>
    if h.hold = .rstn then { h with boot := { h.boot with chain := chainCells chain } }.tap .sample none (h.capture pins) []
    else h.tap .bypass none [] []

/-- Meaning of JTAG_EXTEST: while RSTn is held low, the chain drives its balls and captures the inputs. -/
def execJtagExtest (pins : List Bool) (s : State) : Host.Outcome State Fault Refusal :=
  s.tap fun h =>
    if h.hold = .rstn then h.tap .extest none (captureExtest h.boot.chain pins) (chainDrive h.boot.chain)
    else h.tap .bypass none [] []

/-! ### Partial resets (R667) -/

/-- The logic of a trunk port reset: a link that is up goes down and waits as R213 says, a port in Jensar mode trains anew;
stored sets are discarded. -/
def Hub.resetTrunk (h : Hub) (p : Port) : Hub :=
  if h.linkUp p then ((h.linkDown p 7 true).backoff p).discardSets p
  else if h.links[p].mode then (h.discardSets p).trainStart p
  else h.discardSets p

/-- The logic of an Ethernet port reset: its MAC reads link down, its PHY is reset for 1 ms, its PTP state restarts. -/
def Hub.netReset (h : Hub) (e : Fin 2) : Hub :=
  ((((h.phyLink e 0).emit (.phyReset e)).arm (.phyReset e) (ms 1)).put (Obj.PTP_PORT_STATE e.val)
    (objDefault (Obj.PTP_PORT_STATE e.val))).setMac e fun _ => {}

/-- What a partial reset does to the logic of its domain. -/
def Hub.resetBlock (h : Hub) (d : Nat) : Hub :=
  match d with
  | 16 => h.resetTrunk 0
  | 17 => h.resetTrunk 1
  | 18 =>
    let h := h.npLost fun _ => true
    let h := (List.finRange 64).foldl (fun h c =>
      (h.setDma c { fetched := h.get (Obj.DMA_HEAD c.val) }).put (Obj.DMA_STATUS c.val) 0) (h.inboxClear [2, 3]).cfgReset
    (List.finRange 2).foldl (fun h (p : Fin 2) =>
      if h.pcie.role[p] = 2 then
        (h.rootReset p 3).setPcie fun x => { x with reset := x.reset.set p 5, cko := x.cko.set p none }
      else if h.pcie.role[p] = 1 then h.upstreamReset p true else h) h
  | 19 =>
    (((h.inboxClear [14]).dispOff 0).dispOff 1).dispStart
  | 20 =>
    let h := (List.finRange 16).foldl (fun h s => h.closeFrame s true) h
    { h with trig := Vector.replicate 8 {} }.camStart
  | 21 => ((h.inboxClear [8, 9]).netReset 0).netReset 1
  | 22 =>
    let h := (List.finRange 3).foldl (fun h u => (h.usbPwr u false).put (Obj.PORT_STATUS u) (objDefault (Obj.PORT_STATUS u))) h.usbOff
    ({ h with usb := {} }.put Obj.DEV_STATE (h.get Obj.DEV_CONNECT)).usbStart
  | 23 => ((h.spillLost.setCore fun c => { c with spillBusy := false }).memZero 0 (2 ^ 33))
  | 24 => ((h.inboxClear [10]).axlDomain false).axlDomain true
  | _ => h

/-- `BLOCK_RESET` written (R667); the domain serves again at once. -/
def Hub.blockReset (h : Hub) (d : Nat) : Nat × Hub :=
  (rcOk, ((h.resetBlock d).put Obj.BLOCK_RESET_LAST d).event 0x6A Obj.BLOCK_RESET_LAST)

/-- Meaning of BLOCK_RESET. -/
def execBlockReset (o : Origin) (v : W32) (s : State) : Host.Outcome State Fault Refusal :=
  s.run fun h => h.guarded o Obj.BLOCK_RESET v.toNat fun h => h.blockReset v.toNat

/-! ### Temperature (R688) -/

/-- The highest of the eight readings (R688). -/
def highestOf (sensors : Vector W32 8) : W32 := sensors.toList.foldl (fun a b => if a.toInt < b.toInt then b else a) sensors[0]

/-- Meaning of TJ_SAMPLE: the readings of the eight sensors, in 0.1 °C. -/
def execTjSample (sensors : Vector W32 8) (s : State) : Host.Outcome State Fault Refusal :=
  s.run fun h =>
    let highest := highestOf sensors
    let t := highest.toInt
    let warn := (BitVec.ofNat 32 (h.get Obj.TJ_WARN)).toInt
    let peak := (BitVec.ofNat 32 (h.get Obj.TJ_PEAK)).toInt
    let h := h.put Obj.TJ_NOW highest.toNat
    let h := if !h.boot.tjSeen ∨ peak < t then h.put Obj.TJ_PEAK highest.toNat else h
    let h := { h with boot := { h.boot with tjSeen := true } }
    if warn ≤ t then
      (if h.boot.tjHigh then h else { h with boot := { h.boot with tjHigh := true } }.event 0x6B Obj.TJ_NOW)
    else if t ≤ warn - 50 then { h with boot := { h.boot with tjHigh := false } }
    else h

end Sys2Proof.Machine
end

