-- ==== Sys2Proof/Machine/Epoch.lean ====
section
/-! DEFINITION. The allotment epoch boundary (R217): what every block does at it, in the order of its rules. -/

namespace Sys2Proof.Machine

/-- A cell with the route tag is queued for the trunk port. -/
def Hub.tagQueued (h : Hub) (p tag : Nat) : Bool :=
  h.core.cells.any fun c => c.pinned && byteAt c.hdr 5 % 16 == tag && c.waits p

/-- A lost port is lost until it has been up for its hold (R269). -/
def Hub.pinFound (h : Hub) : Hub :=
  let back := fun p => (List.finRange 2).any fun (q : Fin 2) => q.val == p && h.linkUp p && Nat.ble (h.links[q]).revertAt h.now
  h.setCore fun c => { c with pinLost := c.pinLost.filter fun p => !back p }

/-- A route tag goes to its port of `PIN_MAP` unless that port is lost, once no cell with the tag is queued for the other port (R267,
R269). -/
def Hub.tagReturn (h : Hub) (g : Nat) : Hub :=
  let cur := b2n (bitOf (h.get Obj.PIN_EFFECTIVE) g)
  if cur = b2n (bitOf (h.eff Obj.PIN_MAP) g) ∨ h.core.pinLost.contains (1 - cur) ∨ h.tagQueued cur g then h
  else (h.put Obj.PIN_EFFECTIVE (putBit (h.get Obj.PIN_EFFECTIVE) g (cur == 0))).bump Obj.PIN_MOVES

/-- Route tags return tag by tag. -/
def Hub.pinRevert (h : Hub) : Hub := (List.range 16).foldl Hub.tagReturn h.pinFound

/-- A step of network time whose boundary this is: the motion cycles it passes over are not run, and it is applied (R402, R435). -/
def Hub.boundaryStep (h : Hub) : Hub :=
  let before := h.netNs
  let steps := h.net.steps
  let h := h.stepDue
  if h.net.steps = steps then h else h.motStep before

/-- The time exchange of a link in the new epoch, 25 µs after it at a root end and 75 µs at a leaf end (R399). -/
def Hub.exchangeArm (h : Hub) (p : Fin 2) : Hub :=
  if h.linkUp p.val then h.arm (.exchange p) (us (if h.trunkEnd p.val = 1 then 25 else 75)) else h

/-- The value takes effect at this boundary (R57): RW ones at the next, RWE ones at the first that follows acceptance by 5 µs of network
time (R693); after a step back the boundary follows by more. A block whose domain is not on takes none (R60). -/
def Hub.epochTakes (h : Hub) (w : Waiting) : Bool :=
  h.domOn (domainOfIdx (keyIdx w.key)) &&
    match rowOf w.key, w.net with
    | some r, some t => r.acc != .rwe || Nat.ble (t + us 5) h.netNs || Nat.ble (h.netNs + 1) t
    | _, _ => true

/-- The work of a boundary. -/
def Hub.epochBoundary (h : Hub) : Hub :=
  let h := h.takeUnit .epoch h.epochTakes
  let h := (h.put Obj.CORE_DELIVERED (h.core.delivered * 8 / 125)).setCore fun c => { c with delivered := 0 }
  let h := h.boundaryStep
  let h := (List.finRange 2).foldl (fun h p => h.linkBoundary p) h
  let h := (List.finRange 2).foldl (fun h (p : Fin 2) => if (h.links[p]).rebuild then h.rebuildTimes p else h) h
  let h := (List.finRange 2).foldl Hub.exchangeArm h
  let h := (h.pinRevert.keyZeroise).icSet 2
  if h.headsUnit then { h with bridge := { h.bridge with sincePoll := h.bridge.sincePoll + 1 } } else h

/-- A boundary is due: the counter runs and has reached a multiple of 125 µs whose boundary has not been taken (R217), and which no step
of network time passes over (R402). -/
def Hub.boundaryDue (h : Hub) : Bool :=
  h.netRuns && h.net.last != some (h.netNs / 125000) && Nat.ble h.net.skip (h.netNs / 125000 * 125000)

/-- Meaning of EPOCH_BOUNDARY: without effect while none is due. -/
def execEpochBoundary (s : State) : Host.Outcome State Fault Refusal :=
  s.run fun h =>
    if h.boundaryDue then Hub.epochBoundary { h with net := { h.net with last := some (h.netNs / 125000) } } else h

end Sys2Proof.Machine
end

