-- ==== Sys2Proof/Machine/Access.lean ====
section
/-! DEFINITION. Access to the object dictionary (chapter 03): reads with their side effects and computed values, the effect of an
accepted write of each object that has one, commits of groups, the memory-mapped view with its 64-bit objects, the store image,
segmented transfer, and the end of a domain's wake, when held writes take effect. -/

namespace Sys2Proof.Machine

/-! ### Values that are computed at the read -/

/-- The 64-bit object whose high word this key is (R56; the tables say which subindex it also occupies). -/
def wideOf (k : Nat) : Option Nat :=
  if k % 256 = 0 then none
  else match rowOf (k - 1) with
    | some r => if r.ty == .u64 then some (k - 1) else none
    | none => none

/-- Code of a type in `DESC_INFO` (R55). -/
def ObjType.code : ObjType → Nat
  | .bool => 1 | .u8 => 2 | .u16 => 3 | .u32 => 4 | .u64 => 5 | .i32 => 6 | .time32 => 7 | .enum => 8 | .bits32 => 9
  | .octets => 10 | .domain => 11

/-- Code of an access in `DESC_INFO` (R75). -/
def Access.code : Access → Nat
  | .ro => 0 | .rw => 1 | .wo => 2 | .rc => 3 | .rwe => 4 | .rwf => 5 | .rwp => 6

/-- `DESC_INFO` of a target (R75). -/
def descInfo (k : Nat) : Nat :=
  match rowOf k with
  | some r => r.ty.code + 256 * r.acc.code + 4096 * b2n r.persist + 8192 * b2n r.safety + 16384 +
      (if r.ty == .octets then 65536 * r.n else 0)
  | none => if k % 256 = 0 ∧ idxDefined (k / 256) then 2 + 16384 else 0

/-- `DESC_DEFAULT` of a target: some defaults follow the straps and the role (R12, R310, R568). -/
def Hub.descDefault (h : Hub) (k : Nat) : Nat :=
  if k = Obj.NODE_ROLE then strapRole (h.get Obj.STRAP_VALUE)
  else if k = Obj.PD_POWER_CAP 0 then b2n (h.get Obj.ROLE_ACTIVE == 0)
  else if k = Obj.PCIE_ROLE 0 then (if h.get Obj.ROLE_ACTIVE = 0 then 1 else 2)
  else if k % 256 = 0 then highSub (k / 256)
  else objDefault k

/-- `DESC_GROUP` of a target (R75). -/
def descGroup (k : Nat) : Nat := match rowOf k with
  | some r => if r.acc == .rwp then leaderOf k else 0
  | none => 0

/-- The state of an interrupt target (R496): an engine's, or SM and the host, which are awake. -/
def Hub.targetState (h : Hub) (t : Nat) : Nat :=
  if 12 ≤ t then 1
  else if h.get (Obj.ENG_STATE t) ≤ 1 ∨ !h.domOn (4 + t) then 0
  else if h.get (Obj.ENG_STATE t) = 3 then 2
  else 1

/-- Milliseconds until a slot's retry timer expires, rounded up; 0 while it does not run (R591). -/
def Hub.retryLeft (h : Hub) (n : Fin 8) : Nat :=
  match h.timers.find? (fun x => x.1 == .slotRetry n) with
  | some x => ceilDiv (x.2 - h.now) 1000000
  | none => 0

/-- Quantities measured at the read or on the die: free values (log entry 5). -/
def measuredKey (k : Nat) : Bool :=
  let idx := k / 256
  let sub := k % 256
  (Nat.ble 0x7200 idx && Nat.ble idx 0x7207 && Nat.ble 0x14 sub && Nat.ble sub 0x16) ||
  (idx == 0x7300 && Nat.ble 0x23 sub && Nat.ble sub 0x25) ||
  ((idx == 0x7000 || idx == 0x7100) && sub == 0x39) || ((idx == 0x3000 || idx == 0x3100) && sub == 5) || k == Obj.VCORE_MEASURED

/-- The word of a channel's data window (R81, R83): bytes beyond the length read 0. -/
def Hub.segWord (h : Hub) (ch : Fin 4) (k : Nat) : Nat :=
  let s := h.seg[ch]
  let isOct := match rowOf s.target with
    | some r => r.ty == .octets
    | none => false
  let bytes := if s.owner.isSome && !s.writing && isOct then h.oct s.target else s.bytes
  ofLE ((slice bytes (h.get (Obj.SEG_OFFSET ch.val) + 4 * k) 4) ++ List.replicate 4 0) % 2 ^ 32

/-- The value a read of a scalar object returns to an origin. -/
def Hub.view (h : Hub) (o : Origin) (k : Nat) : Nat × Hub :=
  let idx := k / 256
  let sub := k % 256
  let st := h.origin o
  let one := idx % 2
  match h.coreView k <|> h.trunkView k with
  | some v => (v, h)
  | none =>
    if measuredKey k then (h.free 16, h.used)
    else if idx = 0x1204 then
      (if sub = 1 then (st.descTarget, h)
        else if sub = 2 then (descInfo (st.descTarget % 2 ^ 24), h.setOrigin o { st with descSeen := st.descTarget })
        else (if sub = 4 then h.descDefault (st.descSeen % 2 ^ 24) else descGroup (st.descSeen % 2 ^ 24), h))
    else if k = Obj.GROUPS_STAGED then ((h.staged.filter fun g => !h.stale g).length, h)
    else if 0x1210 ≤ idx ∧ idx ≤ 0x1213 ∧ 0x10 ≤ sub then (h.segWord (Fin.ofNat 4 (idx - 0x1210)) (sub - 0x10), h)
    else if k = Obj.TT_ROLE 0 ∨ k = Obj.TT_ROLE 1 then (h.ttRole one, h)
    else if k = Obj.PCIE_DEVICE 0 ∨ k = Obj.PCIE_DEVICE 1 then h.pcieDevice (Fin.ofNat 2 idx)
    else if (idx = 0x5208 ∨ idx = 0x520A) ∧ (sub = 6 ∨ sub = 7) then (0, h)
    else if idx = 0x5203 ∧ 0xF ≤ sub ∧ sub ≤ 0x11 then (0, h)
    else if k = Obj.ETS_CURRENT 0 ∨ k = Obj.ETS_CURRENT 1 then (h.etsCurrent (Fin.ofNat 2 idx), h)
    else if k = Obj.MOT_STATE then (h.motState, h)
    else if k = Obj.PL_FLOOR then (h.plFloor, h)
    else if k = Obj.GM_IDENTITY then (h.gmIdentity, h)
    else if k = Obj.FS_NEED then (h.fsNeedNow, h)
    else if k = Obj.FRAME_COUNT 0 ∨ k = Obj.FRAME_COUNT 1 then (h.frameCount (Fin.ofNat 2 one), h)
    else if k = Obj.TIME_SEC then
      (h.netNs / 1000000000, h.setOrigin o { h.origin o with timeLatch := h.netNs % 1000000000 })
    else if k = Obj.TIME_NS_LATCHED then (st.timeLatch, h)
    else if k = Obj.TIME32_NOW then (h.time32, h)
    else if 0x2120 ≤ idx ∧ idx ≤ 0x2138 ∧ sub = 8 then (wakeLead (idx - 0x2120), h)
    else if 0x2120 ≤ idx ∧ idx ≤ 0x2138 ∧ sub = 9 then (h.pdNeed (Fin.ofNat 25 (idx - 0x2120)), h)
    else if 0x2320 ≤ idx ∧ idx ≤ 0x232D ∧ sub = 3 then (h.targetState (idx - 0x2320), h)
    else if 0x2010 ≤ idx ∧ idx ≤ 0x201A ∧ sub = 4 then h.freqView (idx - 0x2010)
    else if 0x5110 ≤ idx ∧ idx ≤ 0x511F ∧ sub = 8 then ((h.camTunnel (idx - 0x5110)).getD 0xFFFF, h)
    else if 0x7200 ≤ idx ∧ idx ≤ 0x7207 ∧ sub = 0x13 then (h.retryLeft (Fin.ofNat 8 (idx - 0x7200)), h)
    else if k = Obj.CADDY_PHASE then (h.caddyPhase, h)
    else (h.get k, h)

/-! ### Reads -/

/-- The side effect of a read of an RC object other than a claim: it starts again from zero, a peak from the level that stands
now. -/
def Hub.readEffect (h : Hub) (k : Nat) : Hub :=
  let idx := k / 256
  let sub := k % 256
  if k = Obj.POT_OCC_PEAK then h.put k h.potOcc
  else if idx = 0x9071 ∧ 0x11 ≤ sub then h.put k (h.classCells (sub - 0x11))
  else if 0x6000 ≤ idx ∧ idx ≤ 0x60FF ∧ sub = 0x35 then
    h.put k (((List.range 15).map (h.depth (idx - 0x6000))).foldl max 0)
  else if 0x9080 ≤ idx ∧ idx ≤ 0x908E ∧ 0x11 ≤ sub then
    h.put k ((h.queueAt (idx - 0x9080)).filter fun c => c.cls == sub - 0x11).length
  else if k = Obj.NP_PEAK then h.put k (h.get Obj.NP_INFLIGHT)
  else if k = Obj.TJ_PEAK then h.put k (h.get Obj.TJ_NOW)
  else if k = Obj.CADDY_ATTN then { h.put k 0 with caddy := { h.caddy with integritySinceRead := false } }
  else h.put k 0

/-- The channel at this index is another origin's (R82). -/
def Hub.segBusy (h : Hub) (o : Origin) (idx : Nat) : Bool :=
  Nat.ble 0x1210 idx && Nat.ble idx 0x1213 && match (h.seg[Fin.ofNat 4 (idx - 0x1210)]).owner with
    | some x => x != o
    | none => false

/-- An access of the owner to its channel keeps it (R82). -/
def Hub.segTouch (h : Hub) (o : Origin) (idx : Nat) : Hub :=
  if Nat.ble 0x1210 idx && Nat.ble idx 0x1213 && (h.seg[Fin.ofNat 4 (idx - 0x1210)]).owner == some o then
    h.arm (.segExpire (Fin.ofNat 4 (idx - 0x1210))) 1000000000
  else h

/-- A read of the last word of the window moves it on while the channel is open for read (R83). -/
def Hub.segAdvance (h : Hub) (k : Nat) : Hub :=
  let ch : Fin 4 := Fin.ofNat 4 (k / 256 - 0x1210)
  if k % 256 = 0x4F ∧ (h.seg[ch]).owner.isSome ∧ !(h.seg[ch]).writing then
    h.put (Obj.SEG_OFFSET ch.val) ((h.get (Obj.SEG_OFFSET ch.val) + 256) % 2 ^ 32)
  else h

/-- The block behind an object is off, or waking from off (R60). -/
def Hub.isOff (h : Hub) (idx : Nat) : Bool :=
  let d := domainOfIdx idx
  h.domState d == 2 || (h.domState d == 3 && if hd : d < 25 then (h.doms[d]).lost else false)

/-- The origin has read an object: a snapshot of another one is over (R79). -/
def Hub.sawObject (h : Hub) (o : Origin) (snap : Option (Nat × W32)) : Hub :=
  if (h.origin o).snapshot = snap then h else h.setOrigin o { h.origin o with snapshot := snap }

/-- Meaning of TGT_CLAIM: a read of the object by an origin (R79, R490). -/
def execTgtClaim (o : Origin) (t : Fin 14) (s : State) : Host.Outcome State Fault Refusal :=
  s.run fun h =>
    if h.frozen o then h.emit (.data o rcFrozen 0)
    else
      let (v, h) := h.claim t.val
      (h.sawObject o none).emit (.data o rcOk v)

/-- A failed access of a segmented-transfer channel leaves its result code in `SEG_STATUS` [15:8] (R81). -/
def Hub.segNote (h : Hub) (idx c : Nat) : Hub :=
  if Nat.ble 0x1210 idx && Nat.ble idx 0x1213 && c != rcOk then
    h.put (Obj.SEG_STATUS (idx - 0x1210)) (putField (h.get (Obj.SEG_STATUS (idx - 0x1210))) 15 8 c)
  else h

/-- A read of a whole object by an origin, but for what R79 and R81 keep of it (R57, R60, R74, R82). Subindex 0 belongs to the object server,
not to the index's block, and reads in every domain state (log entry 97). -/
def Hub.readRaw (h : Hub) (o : Origin) (k : Nat) : Nat × Nat × Hub :=
  if h.frozen o then (rcFrozen, 0, h)
  else match rowOf k with
    | none => if k % 256 = 0 ∧ idxDefined (k / 256) then (rcOk, highSub (k / 256), h) else (rcNoObject, 0, h)
    | some r =>
      if h.segBusy o (k / 256) then (rcBusy, 0, h)
      else if r.acc == .wo then (rcWriteOnly, 0, h)
      else if r.ty == .octets || r.ty == .domain then (rcTypeMismatch, 0, h)
      else
        let h := (h.accessWake o (k / 256)).segTouch o (k / 256)
        if (r.acc == .ro || r.acc == .rc) && h.isOff (k / 256) then (rcDomainOff, 0, h)
        else if 0x232001 ≤ k ∧ k ≤ 0x232D01 ∧ k % 256 = 1 then
          let (v, h) := h.claim (k / 256 - 0x2320)
          (rcOk, v, h)
        else
          let (v, h) := h.view o k
          let h := if r.acc == .rc then h.readEffect k else h
          (rcOk, v, if 0x121000 ≤ k ∧ k ≤ 0x1213FF then h.segAdvance k else h)

/-- A read of a whole object by an origin: its result, its value, and the hub after the side effect. -/
def Hub.readObj (h : Hub) (o : Origin) (k : Nat) : Nat × Nat × Hub :=
  let (c, v, h) := h.readRaw o k
  (c, v, if c = rcOk then h.sawObject o none else h.segNote (k / 256) c)

/-- A read of one word of the memory-mapped view (R77, R79). -/
def Hub.readWord (h : Hub) (o : Origin) (k : Nat) : Nat × Nat × Hub :=
  match wideOf k with
  | some low =>
    if h.frozen o then (rcFrozen, 0, h.segNote (k / 256) rcFrozen)
    else
      match (h.origin o).snapshot with
      | some (s, hi) => if s = low then (rcOk, hi.toNat, h) else
          let (c, v, _) := h.readRaw o low
          (c, v / 2 ^ 32, (h.accessWake o (low / 256)).sawObject o none)
      | none =>
        let (c, v, _) := h.readRaw o low
        (c, v / 2 ^ 32, h.accessWake o (low / 256))
  | none =>
    let (c, v, h) := h.readObj o k
    if c ≠ rcOk then (c, 0, h)
    else match rowOf k with
      | some r => if r.ty == .u64 then (c, v % 2 ^ 32, h.sawObject o (some (k, BitVec.ofNat 32 (v / 2 ^ 32)))) else (c, v, h)
      | none => (c, v, h)

/-- A read of `n` bytes at a byte offset of the view (R77, R78). -/
def Hub.readView (h : Hub) (o : Origin) (off n : Nat) : Nat × Nat × Hub :=
  if h.frozen o then (rcFrozen, 0, h.segNote (off / 1024) rcFrozen)
  else if n = 0 ∨ 4 < off % 4 + n then (rcTypeMismatch, 0, h.segNote (off / 1024) rcTypeMismatch)
  else if 2 ^ 26 ≤ off then (rcNoObject, 0, h)
  else
    let (c, v, h) := h.readWord o (off / 1024 * 256 + off % 1024 / 4)
    (c, v / 2 ^ (8 * (off % 4)) % 2 ^ (8 * n), h)

/-! ### The store image (R62 to R65) -/

/-- The keys that a row covers within page `g`. -/
def ObjRow.keys (r : ObjRow) (g : Nat) : List Nat :=
  let idxs := (List.range r.count).map (r.base + ·) ++ (if r.ports = 2 then (List.range r.count).map (r.base + 0x100 + ·) else [])
  (idxs.filter (· / 256 == g)).flatMap fun i => (List.range r.subs).map fun j => 256 * i + r.sub + r.step * j

/-- The keys of every object with attribute P. -/
def persistKeys : List Nat :=
  (List.range 256).flatMap fun g => ((objRows g).filter (·.persist)).flatMap (·.keys g)

/-- The value a store captures: the value in effect (R62), which for an object whose write is held is the one before that write (R60);
for an object that takes effect at a reset, the value last accepted, so that writing and persisting it acts at the next reset as the
example of chapter 02 states. -/
def Hub.storeVal (h : Hub) (k : Nat) : Nat :=
  if unitOf k = .reset then h.get k else if deferred k then h.eff k else (h.heldWas k).getD (h.get k)

/-- The values captured at the acceptance of a store. -/
def Hub.storeImage (h : Hub) : Bank :=
  let scal := persistKeys.filter fun k => match rowOf k with
    | some r => r.ty.width != 0
    | none => false
  { valid := true
    seq := max h.mram.bank0.seq h.mram.bank1.seq + 1
    vals := scal.map fun k => (k, h.storeVal k)
    octs := h.octs.filter fun c => match rowOf c.1 with
      | some r => r.persist
      | none => false }

/-- A bank of the MRAM set. -/
def Mram.setBank (m : Mram) (i : Fin 2) (b : Bank) : Mram := if i = 0 then { m with bank0 := b } else { m with bank1 := b }

/-- A store accepted: the bank not used last is written (R63, R64). -/
def Hub.storeStart (h : Hub) (hop : Option KeySlot) : Nat × Hub :=
  if h.storeRun = .idle then
    let i : Fin 2 := if h.mram.last = 0 then 1 else 0
    (rcOk, { h.put Obj.STORE_STATUS 1 with storeRun := .store h.storeImage hop, mram := h.mram.setBank i { valid := false } })
  else (rcBusy, h)

/-- A restore accepted (R64, R65). -/
def Hub.restoreStart (h : Hub) : Nat × Hub :=
  if h.storeRun = .idle then (rcOk, { h.put Obj.STORE_STATUS 1 with storeRun := .restore }) else (rcBusy, h)

/-- A failed command: status 3 and the event (R694). -/
def Hub.storeFail (h : Hub) : Hub := ({ h.put Obj.STORE_STATUS 3 with storeRun := .idle }).event 0x04 Obj.STORE_CMD

/-- A store or restore ends. Which banks a failed restore had invalidated is open. -/
def Hub.storeEnd (h : Hub) (fault : Bool) : Hub :=
  match h.storeRun with
  | .idle => h
  | .store image _ =>
    if fault then h.storeFail
    else
      let i : Fin 2 := if h.mram.last = 0 then 1 else 0
      let m := h.mram.setBank i image
      let h := { h with mram := { m with last := i, stores := m.stores + 1 }, storeRun := .idle }
      (h.put Obj.STORE_STATUS 2).put Obj.STORE_COUNT h.mram.stores
  | .restore =>
    let m := h.mram
    if fault then
      let b := h.free 2
      let m := { m with bank0 := { m.bank0 with valid := m.bank0.valid && !bitOf b 0 }, bank1 := { m.bank1 with valid := m.bank1.valid && !bitOf b 1 } }
      ({ h with mram := m }).used.storeFail
    else
      let m := { m with bank0 := { m.bank0 with valid := false }, bank1 := { m.bank1 with valid := false } }
      { h.put Obj.STORE_STATUS 2 with mram := m, storeRun := .idle }

/-! ### Writes of bytes -/

/-- The effect of a write of an OCTETS or DOMAIN object. -/
def Hub.octAct (h : Hub) (o : Origin) (key : Nat) (data : List Byte) : Nat × Hub :=
  if isCaddyKey key then
    (if key % 256 = 5 then h.keyMaterial o (slotNo (key / 256 - 0x7800)) data else h.keyDerive o (slotNo (key / 256 - 0x7800)) data)
  else match rowOf key with
    | some r =>
      if r.acc == .rwp then h.stageWrite o key (fun g => { g with octs := stageVal key data g.octs }) else (rcOk, h.putOct key data)
    | none => (rcNoObject, h)

/-- A write of bytes by an origin. -/
def Hub.octWrite (h : Hub) (o : Origin) (key : Nat) (data : List Byte) : Nat × Hub :=
  h.octGuardedR o key data fun h => h.octAct o key data

/-! ### Segmented transfer (R81 to R84) -/

/-- A channel left: free, or failed with a result code. -/
def Hub.segEnd (h : Hub) (ch : Fin 4) (failed : Option Nat) : Hub :=
  let h := { h with seg := h.seg.set ch {} }
  let h := (h.put (Obj.SEG_LENGTH ch.val) 0).disarm (.segExpire ch)
  match failed with
  | some c => h.put (Obj.SEG_STATUS ch.val) (3 + 256 * c)
  | none => h.put (Obj.SEG_STATUS ch.val) (field (h.get (Obj.SEG_STATUS ch.val)) 15 8 * 256)

/-- The result of an open, without its effect. -/
def Hub.segOpenCheck (h : Hub) (o : Origin) (t : Nat) (writing : Bool) : Nat :=
  match rowOf t with
  | none => if t % 256 = 0 ∧ idxDefined (t / 256) then rcTypeMismatch else rcNoObject
  | some r =>
    if r.ty != .octets && r.ty != .domain then rcTypeMismatch
    else if writing then
      (if r.acc == .ro || r.acc == .rc then rcReadOnly else if r.safety && !h.safetyOrigin o then rcNotInSession else rcOk)
    else if r.acc == .wo then rcWriteOnly
    else if h.isOff (t / 256) then rcDomainOff
    else rcOk

/-- A channel opened: the origin becomes its owner; a DOMAIN target is captured. -/
def Hub.segOpen (h : Hub) (o : Origin) (ch : Fin 4) (writing : Bool) : Nat × Hub :=
  let t := h.get (Obj.SEG_TARGET ch.val) % 2 ^ 24
  let c := h.segOpenCheck o t writing
  if c ≠ rcOk then (c, h.segEnd ch (some c))
  else
    let bytes := if writing then [] else h.oct t
    let h := { h with seg := h.seg.set ch { owner := some o, target := t, writing := writing, bytes := bytes } }
    let h := (h.put (Obj.SEG_LENGTH ch.val) bytes.length).put (Obj.SEG_STATUS ch.val)
      (putField (h.get (Obj.SEG_STATUS ch.val)) 3 0 (if writing then 2 else 1))
    (rcOk, h.arm (.segExpire ch) 1000000000)

/-- A word written in the window of a channel open for write; bytes below it that nothing has written are free values. -/
def Hub.segPut (h : Hub) (ch : Fin 4) (k v : Nat) : Nat × Hub :=
  let s := h.seg[ch]
  if s.owner.isNone || !s.writing then (rcReadOnly, h)
  else
    let at_ := h.get (Obj.SEG_OFFSET ch.val) + 4 * k
    let gap := (List.range (at_ - s.bytes.length)).map fun i => Config.freeValue 8 (h.freeCtr + i)
    let bytes := s.bytes ++ gap
    let bytes := bytes.take at_ ++ toLE 4 v ++ bytes.drop (at_ + 4)
    let h := { h with seg := h.seg.set ch { s with bytes := bytes }, freeCtr := h.freeCtr + gap.length }
    let h := h.put (Obj.SEG_LENGTH ch.val) (bytes.length % 2 ^ 32)
    (rcOk, if k = 0x3F then h.put (Obj.SEG_OFFSET ch.val) ((h.get (Obj.SEG_OFFSET ch.val) + 256) % 2 ^ 32) else h)

/-- Close and apply (R84). A channel that is not open has nothing to apply. -/
def Hub.segClose (h : Hub) (o : Origin) (ch : Fin 4) : Nat × Hub :=
  let s := h.seg[ch]
  if s.owner.isNone then (rcNotStaged, h)
  else if !s.writing then (rcOk, h.segEnd ch none)
  else
    let (c, h) := h.octWrite o s.target s.bytes
    if c = rcOk then (c, h.segEnd ch none) else (c, h.segEnd ch (some c))

/-- `SEG_CONTROL` written. -/
def Hub.segControl (h : Hub) (o : Origin) (ch : Fin 4) (v : Nat) : Nat × Hub :=
  if v = 1 then h.segOpen o ch false
  else if v = 2 then h.segOpen o ch true
  else if v = 3 then h.segClose o ch
  else (rcOk, h.segEnd ch none)

/-! ### Commits of groups (R69 to R72) -/

/-- Bytes of a target space (R107). -/
def targetSize (t : Nat) : Nat := if t = 1 then 2 ^ 26 else if t = 2 then 2 ^ 24 else if t = 3 then Config.dramMiB * 1048576 else 0

/-- Hop byte `i` of a unit path held as a number (R85). -/
def pathByte (path i : Nat) : Nat := path / 256 ^ (7 - i) % 256

/-- A byte of a unit path names a composite member (R85). -/
def isMember (b : Nat) : Bool := Nat.ble 0x80 b && Nat.ble b 0x9F

/-- A window's path names this hub: it ends at once, or its member byte does so in the member table (R85, R87, R88). -/
def Hub.pathHome (h : Hub) (path : Nat) : Bool :=
  let b := pathByte path 0
  b == 0 || (isMember b && h.headsUnit && h.get (Obj.MEMBER_UNIT_ID (b % 32)) != 0 && pathByte (h.get (Obj.MEMBER_PATH (b % 32))) 0 == 0)

/-- A window group would be legal (R109). -/
def Hub.windowOk (h : Hub) (g : Staged) : Bool :=
  let w := g.leader / 256 - 0x2510
  let v := h.newVal g
  let size := 2 ^ v (Obj.WIN_SIZE w)
  let base := v (Obj.WIN_BASE w)
  let t := v (Obj.WIN_TARGET w)
  let path := v (Obj.WIN_PATH w)
  base % size == 0 && v (Obj.WIN_OFFSET w) % size == 0 && Nat.ble (base + size) (2 ^ 28) &&
  (t == 0 || !h.pathHome path || Nat.ble (v (Obj.WIN_OFFSET w) + size) (targetSize t)) &&
  (t == 0 || (List.range 16).all fun u => u == w || h.get (Obj.WIN_TARGET u) == 0 ||
    Nat.ble (base + size) (h.get (Obj.WIN_BASE u)) || Nat.ble (h.get (Obj.WIN_BASE u) + 2 ^ h.get (Obj.WIN_SIZE u)) base) &&
  (!isMember (pathByte path 0) || h.headsUnit) && (List.range 7).all fun i => !isMember (pathByte path (i + 1))

/-- Camera conditions of a tunnel group (R342). -/
def Hub.camTunOk (h : Hub) (g : Staged) : Bool :=
  let t := tunOf g.leader
  let a := h.newVal g (Obj.TUN_END_A t)
  !(Nat.ble 4 a && Nat.ble a 7) || (List.range 256).all fun u =>
    u == t || h.get (Obj.TUN_END_A u) != a || h.get (Obj.TUN_LOCAL u) % 4 != h.newVal g (Obj.TUN_LOCAL t) % 4

/-- Display conditions of a tunnel group (R367). -/
def Hub.dispTunOk (h : Hub) (g : Staged) : Bool :=
  let t := tunOf g.leader
  !(h.newVal g (Obj.TUN_END_A t) != 0xFF && bitOf (h.newVal g (Obj.TUN_END_B t)) 14) ||
    (h.newVal g (Obj.TUN_CLASS t) == 4 && (List.range 256).all fun u =>
      u == t || !h.tunUsed u || !h.hasEnd u 14 || h.get (Obj.TUN_LOCAL u) % 4 != h.newVal g (Obj.TUN_LOCAL t) % 4)

/-- Engine conditions of a tunnel group (R471). -/
def Hub.seTunOk (h : Hub) (g : Staged) : Bool :=
  let t := tunOf g.leader
  let a := h.newVal g (Obj.TUN_END_A t)
  h.engTunOk t (h.newVal g (Obj.TUN_CLASS t)) (h.newVal g (Obj.TUN_LOCAL t))
    (a == 13 || (a != 0xFF && bitOf (h.newVal g (Obj.TUN_END_B t)) 13))

/-- The HOP address group would be legal (R103): a gateway of 0 or within the subnet. -/
def Hub.hopAddrOk (h : Hub) (g : Staged) : Bool :=
  let gw := h.newVal g Obj.HOP_IPV4_GW
  let m := h.newVal g Obj.HOP_IPV4_MASK
  gw == 0 || gw &&& m == h.newVal g Obj.HOP_IPV4_ADDR &&& m

/-- The block accepts the new group (R71). -/
def Hub.groupOk (h : Hub) (g : Staged) : Bool :=
  let i := g.leader / 256
  let s := g.leader % 256
  let within := fun a b => Nat.ble a i && Nat.ble i b
  if i = 0x1200 then h.hopAddrOk g
  else if within 0x2510 0x251F then h.windowOk g
  else if i = 0x4003 then h.spillOk g
  else if within 0x4120 0x4121 then h.gateOk g
  else if within 0x5030 0x506F then h.dmaOk g
  else if within 0x5120 0x5127 then h.trigOk g
  else if i = 0x5200 then h.fsOk g
  else if within 0x5204 0x5205 then h.timingOk g
  else if i = 0x5300 then h.timeSetOk
  else if within 0x5308 0x5309 then h.etsOk g
  else if i = 0x5400 then h.motGroupOk g
  else if within 0x5420 0x5427 then h.axlGroupOk g
  else if within 0x5448 0x545F then h.ilGroupOk g
  else if within 0x6000 0x60FF then
    (if s = 1 then h.tunGroupOk g && h.tunPcieOk g && h.camTunOk g && h.dispTunOk g && h.ethTunOk g && h.motTunOk g && h.periphTunOk g && h.seTunOk g
      else if s = 0x27 then h.policerOk g else true)
  else if i = 0x7000 ∨ i = 0x7100 then (if s = 0x10 then h.srcPdoOk g (i / 256 - 0x70) else h.pdReqOk g (i / 256 - 0x70))
  else if within 0x7200 0x7207 then h.slotGroupOk g (i - 0x7200)
  else if i = 0x7300 then h.feedGroupOk g (if s = 0x10 then 0 else 1)
  else true

/-- One committed value: in effect, or waiting for the instant its group's table names. -/
def Hub.commitVal (h : Hub) (c : Nat × Nat) : Hub :=
  if unitOf c.1 = .now then h.put c.1 c.2 else { h with waiting := h.waiting ++ [⟨c.1, c.2, h.now, if h.netRuns then some h.netNs else none, unitOf c.1⟩] }

/-- The value waits for the point of a group. -/
def Waiting.inGroup (w : Waiting) (leader : Nat) : Bool :=
  (match rowOf w.key with
    | some r => r.acc == .rwp
    | none => false) && leaderOf w.key == leader

/-- The new group handed to its block: every staged value, none of them left behind (R71). It was formed from the values in effect, so
the values of an earlier commit that still wait for the same point are not mixed with it (log entry 84). A trigger's group waits whole,
for each commit has a point of its own (R354). -/
def Hub.applyGroup (h : Hub) (g : Staged) : Hub :=
  let i := g.leader / 256
  let h := h.unstage g.leader
  if Nat.ble 0x5120 i && Nat.ble i 0x5127 then
    ((List.range 6).map fun j => (256 * i + 1 + j, h.newVal g (256 * i + 1 + j))).foldl Hub.commitVal h
  else
    let h := g.vals.foldl Hub.commitVal { h with waiting := h.waiting.filter fun w => !w.inGroup g.leader }
    g.octs.foldl (fun h c => h.putOct c.1 c.2) h

/-- What the block does when its group commits. -/
def Hub.groupDone (old h : Hub) (g : Staged) : Hub :=
  let i := g.leader / 256
  let s := g.leader % 256
  let within := fun a b => Nat.ble a i && Nat.ble i b
  if within 0x2510 0x251F then h.discardPrefetch (Fin.ofNat 16 (i - 0x2510))
  else if i = 0x5020 then h.slotWritten (s / 2)
  else if within 0x5030 0x506F then
    h.dmaCommitted (Fin.ofNat 64 (i - 0x5030)) (old.newVal g (Obj.DMA_ENABLE (i - 0x5030)) == 1)
  else if within 0x5120 0x5127 then
    (if h.armed (.trigApply (Fin.ofNat 8 (i - 0x5120))) then h else h.arm (.trigApply (Fin.ofNat 8 (i - 0x5120))) (us 10))
  else if i = 0x5300 then h.timeSetDone
  else if within 0x5308 0x5309 then h.etsCommit (Fin.ofNat 2 (i - 0x5308)) g
  else if within 0x5420 0x5427 then h.axlCommit (Fin.ofNat 8 (i - 0x5420)) (old.newVal g (Obj.AXL_ENABLE (i - 0x5420)) == 1)
  else if within 0x5510 0x5527 then h.pollCommit (Fin.ofNat 24 (i - 0x5510))
  else if within 0x6000 0x60FF then
    (if s = 1 then (old.tunGroupDone h (i - 0x6000)).uartTunnel (i - 0x6000)
      else if s = 0x20 then h.shaperDone (i - 0x6000) .committed
      else if s = 0x23 then h.shaperDone (i - 0x6000) .peak
      else h.policerDone (i - 0x6000))
  else if i = 0x7000 ∨ i = 0x7100 then
    (if s = 0x10 then h.pdCapsChanged (Fin.ofNat 2 (i / 256)) else h.pdReqChanged (Fin.ofNat 2 (i / 256)))
  else if i = 0x7300 then h.feedSelect false
  else h

/-- `GROUP_COMMIT` with a value, or the commit of a HOP operation (R70 to R72, R75). -/
def Hub.commitGroup (h : Hub) (o : Origin) (v : Nat) : Nat × Hub :=
  if !namesGroup v then (rcOutOfRange, h)
  else
    let h := h.expireGroup (leaderOf (v % 2 ^ 24))
    match h.stagedGroup (leaderOf (v % 2 ^ 24)) with
    | none => (rcNotStaged, h)
    | some g =>
      if g.owner ≠ o then (rcGroupBusy, h)
      else if h.groupOk g then
        (rcOk, if h.domOn (domainOfIdx (g.leader / 256)) then h.groupDone (h.applyGroup g) g
          else (h.unstage g.leader).holdLast (.group g))
      else (rcGroupInvalid, h.unstage g.leader)

/-- `GROUP_ABORT` with a value (R70, R75). -/
def Hub.abortNamed (h : Hub) (o : Origin) (v : Nat) : Nat × Hub :=
  if !namesGroup v then (rcOutOfRange, h) else (h.expireGroup (leaderOf (v % 2 ^ 24))).abortGroup o (v % 2 ^ 24)

/-! ### The effect of an accepted write -/

/-- A value accepted, then what its block does at once. -/
def Hub.acceptThen (h : Hub) (o : Origin) (k v : Nat) (f : Hub → Hub) : Nat × Hub := (rcOk, f (h.plainWrite o k v).2)

/-- `HOP_SLOT_MASK` accepted: subscriptions of slots no longer enabled end (R96, R99). -/
def Hub.maskWritten (h : Hub) : Hub :=
  { h with hop := { h.hop with subs := h.hop.subs.filter fun s => match s.slot with
      | some k => bitOf (h.get Obj.HOP_SLOT_MASK) k.val
      | none => true } }

/-- Writes of the trunk objects at 0x30xx and 0x31xx. What the far end answers to a loop request is open here: the
row of the table that names the command brings it as an operand. -/
def Hub.trunkAct (h : Hub) (o : Origin) (k v : Nat) : Nat × Hub :=
  let p : Port := Fin.ofNat 2 (k / 65536)
  let i := k / 256 % 256
  let l : Lane := Fin.ofNat 4 i
  let s := k % 256
  if k = Obj.TK_TEST_MODE p.val then
    (if v = 0 then (rcOk, h.inService p)
      else if v = 3 then h.used.farLoopAsk p (h.free 1 == 1)
      else (rcOk, (h.enterLoop p v true false).put (Obj.TK_TEST_MODE p) v))
  else if 0x20 ≤ i ∧ i ≤ 0x23 ∧ s = 5 then
    (if v = 1 then h.tstStart p l
      else if v = 2 then (rcOk, h.tstStop p l) else (rcOk, h.tstInject p l))
  else if 0x20 ≤ i ∧ i ≤ 0x23 ∧ s = 6 then (rcOk, if v = 1 then h.eyeStart p l else h.eyeAbort p l)
  else if k = Obj.RETRAIN_CMD p.val then (rcOk, h.retrain p)
  else if k = Obj.PHASE_CHANGE p.val then (rcOk, h.announcePhase p 0)
  else h.plainWrite o k v

/-- Writes of the engine, firmware and interrupt objects at 0x23xx and 0x24xx. -/
def Hub.engineAct (h : Hub) (o : Origin) (k v : Nat) : Nat × Hub :=
  let i := k / 256
  let s := k % 256
  let e : Engine := Fin.ofNat 12 (i - 0x2410)
  if k = Obj.IC_RAISE then (rcOk, h.icSet v)
  else if i = 0x2300 ∧ s ≤ 6 then (rcOk, h.icWrite (s - 1) v)
  else if 0x2320 ≤ i ∧ i ≤ 0x232D ∧ s = 2 then (rcOk, h.complete (i - 0x2320) v)
  else if k = Obj.FW_LOAD_CMD then (if v = 0x66776C64 then h.fwLoad else (rcOk, h.sbxStart))
  else if 0x2410 ≤ i ∧ i ≤ 0x241B ∧ s = 1 then (rcOk, h.engRun e v)
  else if 0x2410 ≤ i ∧ i ≤ 0x241B ∧ s = 6 then (rcOk, h.engKick e)
  else if 0x2410 ≤ i ∧ i ≤ 0x241B ∧ s = 9 then (rcOk, if v = 1 then h.engReload e else h)
  else h.plainWrite o k v

/-- Writes of the clock, reset, power, Simmer and metering objects at 0x20xx to 0x22xx. -/
def Hub.powerAct (h : Hub) (o : Origin) (k v : Nat) : Nat × Hub :=
  let i := k / 256
  if 0x2011 ≤ i ∧ i ≤ 0x2013 ∧ k % 256 = 2 then (rcOk, h.divWritten (Fin.ofNat 25 (i - 0x2010)) v)
  else if k = Obj.BLOCK_RESET then h.blockReset v
  else if 0x2120 ≤ i ∧ i ≤ 0x2138 ∧ k % 256 = 1 then h.acceptThen o k v fun h => h.pdReqWritten o (Fin.ofNat 25 (i - 0x2120))
  else if k = Obj.AVS_RESTORE then (rcOk, h.avsRestore)
  else if k = Obj.EN_CONTROL then (rcOk, if v = 1 then h.enStart else h.used.enStop (h.free 64))
  else h.plainWrite o k v

/-- Writes of the tunnel-end objects at 0x50xx to 0x56xx. -/
def Hub.tunnelAct (h : Hub) (o : Origin) (k v : Nat) : Nat × Hub :=
  let i := k / 256
  let one : Fin 2 := Fin.ofNat 2 i
  if 0x5030 ≤ i ∧ i ≤ 0x506F ∧ k % 256 = 8 then (rcOk, h.put k v)
  else if k = Obj.CAM_RX_ENABLE then h.acceptThen o k v Hub.camFollow
  else if k = Obj.DISP_ENABLE 0 ∨ k = Obj.DISP_ENABLE 1 then (rcOk, h.dispWritten one v)
  else if k = Obj.SR_MODE 0 ∨ k = Obj.SR_MODE 1 then h.acceptThen o k v fun h => h.srLeave one
  else if 0x5208 ≤ i ∧ i ≤ 0x520B ∧ k % 256 = 0xB then (rcOk, h.markFlip (Fin.ofNat 4 i) 0 none)
  else if 0x5208 ≤ i ∧ i ≤ 0x520B then (if h.rwfOk k v then h.plainWrite o k v else (rcOutOfRange, h))
  else if k = Obj.MDIO_CMD 0 ∨ k = Obj.MDIO_CMD 1 then (rcOk, h.mdioStart one (BitVec.ofNat 32 v))
  else if k = Obj.GPTP_SAMPLE then (rcOk, h.gptpTake v (if h.get (Obj.PTP_PORT_STATE 0) = 2 then 0 else 1))
  else if k = Obj.DEV_CONNECT then h.acceptThen o k v Hub.devConnect
  else if k = Obj.DEV_WAKE then (rcOk, h.wakeAsk)
  else h.plainWrite o k v

/-- Writes of the Kettle's objects at 0x70xx to 0x73xx. -/
def Hub.kettleAct (h : Hub) (o : Origin) (k v : Nat) : Nat × Hub :=
  let i := k / 256
  let s := k % 256
  let p : Fin 2 := Fin.ofNat 2 (i / 256)
  let n : Fin 8 := Fin.ofNat 8 i
  if i = 0x7000 ∨ i = 0x7100 then
    (if s = 1 then h.acceptThen o k v fun h => h.pdEnableWritten p
      else if s = 6 then h.acceptThen o k v fun h => if v = 1 then h.pdEntryWritten p else h
      else if s = 7 then h.pdCableWrite o p v
      else if s = 0xD then h.pdCommand p v
      else h.plainWrite o k v)
  else if 0x7200 ≤ i ∧ i ≤ 0x7207 then
    (if s = 1 then h.acceptThen o k v fun h => h.slotEnabled n
      else if s = 0xA then h.acceptThen o k v fun h => h.slotCouple n
      else if s = 0x17 then (rcOk, h.slotCleared n)
      else h.plainWrite o k v)
  else if k = Obj.FEED_MODE then h.acceptThen o k v Hub.feedModeWritten
  else if k = Obj.FEED_PRIORITY then h.acceptThen o k v fun h => h.feedSelect false
  else if k = Obj.FEED_CLEAR then (rcOk, h.feedCleared)
  else h.plainWrite o k v

/-- Writes of the object server's own objects at 0x12xx. -/
def Hub.serverAct (h : Hub) (o : Origin) (k v : Nat) : Nat × Hub :=
  let i := k / 256
  let s := k % 256
  let ch : Fin 4 := Fin.ofNat 4 (i - 0x1210)
  if k = Obj.STORE_CMD then h.storeStart none
  else if k = Obj.RESTORE_CMD then h.restoreStart
  else if k = Obj.GROUP_COMMIT then h.commitGroup o v
  else if k = Obj.GROUP_ABORT then h.abortNamed o v
  else if k = Obj.DESC_TARGET then (rcOk, h.setOrigin o { h.origin o with descTarget := v })
  else if k = Obj.HOP_SLOT_MASK then h.acceptThen o k v Hub.maskWritten
  else if 0x1210 ≤ i ∧ i ≤ 0x1213 ∧ s = 4 then h.segControl o ch v
  else if 0x1210 ≤ i ∧ i ≤ 0x1213 ∧ 0x10 ≤ s then h.segPut ch (s - 0x10) v
  else h.plainWrite o k v

/-- The effect of a write that has passed the guard. -/
def Hub.writeAct (h : Hub) (o : Origin) (k v : Nat) : Nat × Hub :=
  let i := k / 256
  let v := match rowOf k with
    | some r => keepBits r v
    | none => v
  if i / 256 = 0x12 then h.serverAct o k v
  else if i / 256 = 0x30 ∨ i / 256 = 0x31 then h.trunkAct o k v
  else if k = Obj.PLAN_CHOICE 0 ∨ k = Obj.PLAN_CHOICE 1 then (rcOk, h.planChoice (Fin.ofNat 2 i) v)
  else if k = Obj.SWAP_CMD 0 ∨ k = Obj.SWAP_CMD 1 then (rcOk, h.setLink (Fin.ofNat 2 i) fun k => { k with swapCmd := true })
  else if 0x6000 ≤ i ∧ i ≤ 0x60FF ∧ k % 256 = 9 then h.floorWrite (i - 0x6000) v
  else if 0x4110 ≤ i ∧ i ≤ 0x411E then h.acceptThen o k v fun h => h.rescale (i - 0x4110)
  else if i / 256 = 0x23 ∨ i / 256 = 0x24 then h.engineAct o k v
  else if 0x20 ≤ i / 256 ∧ i / 256 ≤ 0x22 then h.powerAct o k v
  else if 0x50 ≤ i / 256 ∧ i / 256 ≤ 0x56 then h.tunnelAct o k v
  else if 0x70 ≤ i / 256 ∧ i / 256 ≤ 0x73 then h.kettleAct o k v
  else if isCaddyKey k ∧ k % 256 = 7 then h.keyControl o (slotNo (i - 0x7800)) v
  else if isCaddyKey k ∧ k % 256 = 0xA then h.keyCommitted o (slotNo (i - 0x7800)) v
  else if k = Obj.SAFE_RESET then h.safeReset
  else if k = Obj.SS_OPEN then h.ssOpen o
  else if k = Obj.SS_CLOSE then h.ssClose o
  else if k = Obj.FREEZE_RELEASE then (rcOk, h.freezeRelease (v % 256))
  else h.plainWrite o k v

/-- The origin may not write this object: it is another origin's alone (R227, R390). -/
def Hub.reservedWrite (h : Hub) (o : Origin) (k : Nat) : Bool :=
  ((k == Obj.PLAN_CHOICE 0 || k == Obj.PLAN_CHOICE 1) && !h.isPlanner o) || (k == Obj.GPTP_SAMPLE && !h.isPtp o)

/-- A write of a whole scalar object by an origin, but for what R81 keeps of it: the low word held before it breaks its sequence
first (R80), then the owner of a channel and the one origin of some objects. -/
def Hub.writeRaw (h : Hub) (o : Origin) (k v : Nat) : Nat × Hub :=
  if h.frozen o then (rcFrozen, h)
  else if (h.origin o).held.isSome then (rcPartial64, h.setOrigin o { h.origin o with held := none })
  else if h.segBusy o (k / 256) then (rcBusy, h)
  else if h.reservedWrite o k then (rcFrozen, h.freeze o 3)
  else (h.segTouch o (k / 256)).guardedR o k v fun h => h.writeAct o k v

/-- A write of a whole scalar object by an origin. -/
def Hub.writeObj (h : Hub) (o : Origin) (k v : Nat) : Nat × Hub :=
  let (c, h) := h.writeRaw o k v
  (c, h.segNote (k / 256) c)

/-- The low word of a 64-bit object written: held, unless the object takes no write (R80). -/
def Hub.writeLow (h : Hub) (o : Origin) (k : Nat) (v : W32) (r : ObjRow) : Nat × Hub :=
  let st := h.origin o
  if st.held.isSome then (rcPartial64, h.setOrigin o { st with held := none })
  else if isCaddyKey k && !h.caddyRights o then (rcFrozen, h.freeze o 5)
  else if r.acc == .ro || r.acc == .rc then (rcReadOnly, h)
  else (rcOk, h.setOrigin o { st with held := some (k, v) })

/-- The high word of a 64-bit object written: it completes the pair, or the sequence is broken (R80). -/
def Hub.writeHigh (h : Hub) (o : Origin) (low : Nat) (v : W32) : Nat × Hub :=
  let st := h.origin o
  match st.held with
  | some (k, lo) =>
    let h := h.setOrigin o { st with held := none }
    if k = low then h.writeObj o low (v.toNat * 2 ^ 32 + lo.toNat) else (rcPartial64, h)
  | none => (rcPartial64, h)

/-- A write of one word of the memory-mapped view (R77, R80). -/
def Hub.writeWord (h : Hub) (o : Origin) (k : Nat) (v : W32) : Nat × Hub :=
  if h.frozen o then (rcFrozen, h.segNote (k / 256) rcFrozen)
  else match rowOf k with
    | some r => if r.ty == .u64 then h.writeLow o k v r else h.writeObj o k v.toNat
    | none => match wideOf k with
      | some low => h.writeHigh o low v
      | none => h.writeObj o k v.toNat

/-- A write of `n` bytes at a byte offset of the view (R77, R78). -/
def Hub.writeView (h : Hub) (o : Origin) (off n : Nat) (v : W32) : Nat × Hub :=
  if h.frozen o then (rcFrozen, h.segNote (off / 1024) rcFrozen)
  else if n ≠ 4 ∨ off % 4 ≠ 0 then (rcTypeMismatch, h.segNote (off / 1024) rcTypeMismatch)
  else if 2 ^ 26 ≤ off then (rcNoObject, h)
  else h.writeWord o (off / 1024 * 256 + off % 1024 / 4) v

/-! ### The commands -/

/-- A write with its result reported. -/
def Hub.reported (o : Origin) (x : Nat × Hub) : Hub := x.2.ret o x.1

/-- A read with its result and value reported. -/
def Hub.answered (o : Origin) (x : Nat × Nat × Hub) : Hub := x.2.2.emit (.data o x.1 x.2.1)

/-- Meaning of OBJECT_WRITE: a write of an object by its index and subindex. -/
def execObjectWrite (o : Origin) (k : BitVec 24) (v : W64) (s : State) : Host.Outcome State Fault Refusal :=
  s.run fun h => Hub.reported o (h.writeObj o k.toNat v.toNat)

/-- Meaning of READ_CLEAR_OBJECT_READ. -/
def execReadClearObjectRead (o : Origin) (k : BitVec 24) (s : State) : Host.Outcome State Fault Refusal :=
  s.run fun h => Hub.answered o (h.readObj o k.toNat)

/-- Meaning of MMIO_LOW_WORD_READ. -/
def execMmioLowWordRead (o : Origin) (k : BitVec 24) (s : State) : Host.Outcome State Fault Refusal :=
  s.run fun h => Hub.answered o (h.readWord o k.toNat)

/-- Meaning of MMIO_LOW_WORD_WRITE. -/
def execMmioLowWordWrite (o : Origin) (k : BitVec 24) (v : W32) (s : State) : Host.Outcome State Fault Refusal :=
  s.run fun h => Hub.reported o (h.writeWord o k.toNat v)

/-- Meaning of MMIO_HIGH_WORD_WRITE: `k` names the 64-bit object. -/
def execMmioHighWordWrite (o : Origin) (k : BitVec 24) (v : W32) (s : State) : Host.Outcome State Fault Refusal :=
  s.run fun h => Hub.reported o (h.writeWord o (k.toNat + 1) v)

/-- Meaning of TIME_LATCH_READ: a read of the low word of `TIME_SEC` (R79, R395). -/
def execTimeLatchRead (o : Origin) (s : State) : Host.Outcome State Fault Refusal :=
  s.run fun h => Hub.answered o (h.readWord o Obj.TIME_SEC)

/-- Meaning of STORE_CMD. -/
def execStoreCmd (o : Origin) (v : W32) (s : State) : Host.Outcome State Fault Refusal :=
  s.run fun h => h.guarded o Obj.STORE_CMD v.toNat fun h => h.storeStart none

/-- Meaning of RESTORE_CMD. -/
def execRestoreCmd (o : Origin) (v : W32) (s : State) : Host.Outcome State Fault Refusal :=
  s.run fun h => h.guarded o Obj.RESTORE_CMD v.toNat Hub.restoreStart

/-- Meaning of GROUP_STAGE_WRITE: a write of a member of a commit group. -/
def execGroupStageWrite (o : Origin) (k : BitVec 24) (v : W64) (s : State) : Host.Outcome State Fault Refusal :=
  s.run fun h => h.guarded o k.toNat v.toNat fun h => h.writeAct o k.toNat v.toNat

/-- Meaning of GROUP_COMMIT. -/
def execGroupCommit (o : Origin) (v : W32) (s : State) : Host.Outcome State Fault Refusal :=
  s.run fun h => h.guarded o Obj.GROUP_COMMIT v.toNat fun h => h.commitGroup o v.toNat

/-- Meaning of GROUP_ABORT. -/
def execGroupAbort (o : Origin) (v : W32) (s : State) : Host.Outcome State Fault Refusal :=
  s.run fun h => h.guarded o Obj.GROUP_ABORT v.toNat fun h => h.abortNamed o v.toNat

/-- Meaning of GROUP_EXPIRED (R72). -/
def execGroupExpired (leader : BitVec 24) (s : State) : Host.Outcome State Fault Refusal := s.run fun h => h.expireGroup leader.toNat

/-- Meaning of SEG_OPEN_READ. -/
def execSegOpenRead (ch : Fin 4) (o : Origin) (s : State) : Host.Outcome State Fault Refusal :=
  s.run fun h => Hub.reported o (h.writeObj o (Obj.SEG_CONTROL ch.val) 1)

/-- Meaning of SEG_OPEN_WRITE. -/
def execSegOpenWrite (ch : Fin 4) (o : Origin) (s : State) : Host.Outcome State Fault Refusal :=
  s.run fun h => Hub.reported o (h.writeObj o (Obj.SEG_CONTROL ch.val) 2)

/-- Meaning of SEG_CLOSE_APPLY. -/
def execSegCloseApply (ch : Fin 4) (o : Origin) (s : State) : Host.Outcome State Fault Refusal :=
  s.run fun h => Hub.reported o (h.writeObj o (Obj.SEG_CONTROL ch.val) 3)

/-- Meaning of SEG_ABORT. -/
def execSegAbort (ch : Fin 4) (o : Origin) (s : State) : Host.Outcome State Fault Refusal :=
  s.run fun h => Hub.reported o (h.writeObj o (Obj.SEG_CONTROL ch.val) 4)

/-- Meaning of SEG_DATA_LAST_READ. -/
def execSegDataLastRead (ch : Fin 4) (o : Origin) (s : State) : Host.Outcome State Fault Refusal :=
  s.run fun h => Hub.answered o (h.readObj o (Obj.SEG_DATA ch.val 0x3F))

/-- Meaning of SEG_DATA_LAST_WRITE. -/
def execSegDataLastWrite (ch : Fin 4) (o : Origin) (v : W32) (s : State) : Host.Outcome State Fault Refusal :=
  s.run fun h => Hub.reported o (h.writeObj o (Obj.SEG_DATA ch.val 0x3F) v.toNat)

/-- Meaning of SEGMENT_EXPIRED (R82). -/
def execSegmentExpired (ch : Fin 4) (s : State) : Host.Outcome State Fault Refusal :=
  s.run fun h =>
    if h.due (.segExpire ch) && (h.seg[ch]).owner.isSome then
      (h.segEnd ch none).event 0x06 (h.seg[ch]).target
    else h

/-- What was held takes effect. -/
def Hub.heldOne (h : Hub) (x : Held) : Hub :=
  match x with
  | .write o k v _ => (h.writeAct o k v).2
  | .group g => h.groupDone (h.applyGroup g) g

/-- The writes and groups held for a domain take effect in the order of their acceptance (R60). -/
def Hub.heldTake (h : Hub) (d : Domain) : Hub :=
  let mine := h.heldActs.filter fun x => domainOfIdx (x.key / 256) == d.val
  let h := { h with heldActs := h.heldActs.filter fun x => domainOfIdx (x.key / 256) != d.val }
  mine.foldl Hub.heldOne h

/-- Meaning of DOMAIN_WAKE_READY. -/
def execDomainWakeReady (d : Domain) (s : State) : Host.Outcome State Fault Refusal :=
  s.run fun h => if h.domState d.val = 3 then (h.wakeDone d).heldTake d else h

end Sys2Proof.Machine
end

