-- ==== Sys2Proof/Machine/Hop.lean ====
section
/-! DEFINITION. The Hertal Object Protocol (R85 to R103): frames, unit paths, sessions, operations, subscriptions, forwarding, and
the end of a store, whose answer a HOP operation may await. -/

namespace Sys2Proof.Machine

/-! ### Frames (R91, R92, R95) -/

/-- The response, tagged and notification flags, and the hop pointer of a frame. -/
def hopIsResponse (f : List Byte) : Bool := bitOf (byteAt f 1) 7
def hopTagged (f : List Byte) : Bool := bitOf (byteAt f 1) 6
def hopIsNotice (f : List Byte) : Bool := bitOf (byteAt f 1) 5
def hopPointer (f : List Byte) : Nat := byteAt f 1 % 16
def hopSeq (f : List Byte) : Nat := ofBE (slice f 2 4)
def hopSlot (f : List Byte) : Nat := byteAt f 15 % 64

/-- The session a frame belongs to: its slot, or 64 for open frames. -/
def hopSession (f : List Byte) : Nat := if hopTagged f then hopSlot f else 64

/-- `n` operations at the front of some bytes, and what follows them. A read request carries no data (R93). -/
def hopOps (response : Bool) : Nat → List Byte → Option (List (List Byte) × List Byte)
  | 0, bs => some ([], bs)
  | n + 1, bs =>
    let d := if !response && byteAt bs 0 == 1 then 0 else byteAt bs 5
    if bs.length < 6 + d then none
    else match hopOps response n (bs.drop (6 + d)) with
      | some (ops, rest) => some (bs.take (6 + d) :: ops, rest)
      | none => none

/-- The operations and the tag of a frame without a format fault (R91, R92, R102). -/
def hopParse (f : List Byte) : Option (List (List Byte) × List Byte) :=
  if f.length < 16 ∨ 1472 < f.length ∨ byteAt f 0 ≠ 1 ∨ byteAt f 14 = 0 ∨ 32 < byteAt f 14 ∨ 8 < hopPointer f then none
  else match hopOps (hopIsResponse f) (byteAt f 14) (f.drop 16) with
    | some (ops, rest) => if rest.length = (if hopTagged f then 16 else 0) then some (ops, rest) else none
    | none => none

/-- A frame with its hop pointer set. -/
def hopSetPointer (f : List Byte) (p : Nat) : List Byte := setByte f 1 (byteAt f 1 / 16 * 16 + p % 16)

/-- The tag of a header and operations: the pointer, the path and, in a request, the status bytes count as 0 (R95). -/
def hopTag (key hdr : List Byte) (ops : List (List Byte)) (response : Bool) : List Byte :=
  let hd := (hopSetPointer hdr 0).take 6 ++ List.replicate 8 0 ++ slice hdr 14 2
  let body := (if response then ops else ops.map fun op => setByte op 1 0).flatten
  (hmacSha256 key (hd ++ body)).take 16

/-- The path back to the origin: the bytes before the pointer, read backwards (R86). -/
def hopReverse (hdr : List Byte) : List Byte :=
  let back := (slice hdr 6 (hopPointer hdr)).reverse
  back ++ List.replicate (8 - back.length) 0

/-- The header of a response or notification. -/
def hopHeader (flags seq : Nat) (path : List Byte) (count slot : Nat) : List Byte :=
  [1, BitVec.ofNat 8 flags] ++ toBE 4 seq ++ path ++ [BitVec.ofNat 8 count, BitVec.ofNat 8 slot]

/-- The object an operation names. -/
def opKey (op : List Byte) : Nat := byteAt op 2 * 65536 + byteAt op 3 * 256 + byteAt op 4

/-- An operation of a response: its head with the status, and data where there is any (R93). -/
def opAnswer (op : List Byte) (code : Nat) (data : List Byte) : List Byte :=
  [BitVec.ofNat 8 (byteAt op 0), BitVec.ofNat 8 code, BitVec.ofNat 8 (byteAt op 2), BitVec.ofNat 8 (byteAt op 3),
    BitVec.ofNat 8 (byteAt op 4), BitVec.ofNat 8 data.length] ++ data

/-! ### Sending (R90, R100, R193) -/

/-- The HOP part set. -/
def Hub.setHop (h : Hub) (f : HopSt → HopSt) : Hub := { h with hop := f h.hop }

/-- The carriage cells of a frame: up to `n` bytes each, counted from `count`. -/
def hopCells (tag n : Nat) : Nat → Bool → Nat → List Byte → List (List Byte × List Byte)
  | 0, _, _, _ => []
  | fuel + 1, first, count, bs =>
    let part := bs.take n
    let rest := bs.drop n
    let hdr := [BitVec.ofNat 8 tag, BitVec.ofNat 8 (8 * b2n first + 4 * b2n rest.isEmpty)] ++ toBE 2 (count % 65536) ++
      [BitVec.ofNat 8 part.length, 0xD0, 0, 0]
    (setByte hdr 4 (part.length % 128), padTo 128 part) :: (if rest.isEmpty then [] else hopCells tag n fuel false (count + 1) rest)

/-- HOP carriage cells have joined the queue of class SC0 (R308). -/
def Hub.hopPeak (h : Hub) (p : Port) : Hub := h.peak (Obj.CLASS_QUEUE_PEAK p 0) (h.classQueue p 0)

/-- A frame sent on a trunk whose link is up, as carriage cells of 128 bytes, or 112 where SC0 is encrypted; without a link, or with SC0
closed on it, it is lost (R193, R206, R210). -/
def Hub.hopTrunkSend (h : Hub) (p : Port) (f : List Byte) : Hub :=
  if h.linkUp p && bitOf (h.get Obj.HOP_ENABLE) 2 && !h.closed p 0 then
    let k := h.links[p]
    let cells := hopCells k.hopTag (if h.encrypts p 0 then 112 else 128) 16 true k.hopCount f
    ((h.setLink p fun k => { k with hopTx := k.hopTx ++ cells, hopTag := (k.hopTag + 1) % 256, hopCount := (k.hopCount + cells.length) % 65536 }).hopPeak p).emit
      (.hopTrunk p f)
  else h

/-- The interface on which a frame comes in or leaves is enabled (R103). -/
def Hub.hopOn (h : Hub) (src : HopSrc) : Bool :=
  match src with
  | .usb => true
  | .trunk _ => bitOf (h.get Obj.HOP_ENABLE) 2
  | .udp e _ _ => bitOf (h.get Obj.HOP_ENABLE) e.val && h.get Obj.HOP_IPV4_ADDR != 0

/-- The address a datagram for a client is handed to: the client in the subnet of `HOP_IPV4_MASK`, else the gateway; none without one
(R103). -/
def Hub.hopVia (h : Hub) (ip : W32) : Option W32 :=
  let m := h.get Obj.HOP_IPV4_MASK
  if ip.toNat &&& m = h.get Obj.HOP_IPV4_ADDR &&& m then some ip
  else if h.get Obj.HOP_IPV4_GW = 0 then none else some (BitVec.ofNat 32 (h.get Obj.HOP_IPV4_GW))

/-- A response or notification sent back the way its request came, where that interface is enabled. -/
def Hub.hopSend (h : Hub) (src : HopSrc) (f : List Byte) : Hub :=
  if !h.hopOn src then h
  else match src with
  | .usb => h.setUsb fun u => { u with ep1In := u.ep1In ++ [f] }
  | .udp e ip port => match h.hopVia ip with
    | some via => h.emit (.hopUdp e ip port via f)
    | none => h
  | .trunk p => h.hopTrunkSend p f

/-! ### Sessions (R96 to R98) -/

/-- The session of a slot, or of open frames. -/
def Hub.hopSess (h : Hub) (slot : Option KeySlot) : HopSess :=
  match slot with
  | some k => ((h.hop.sessions.find? fun x => x.1 == k.val).map (·.2)).getD {}
  | none => h.hop.openSess

/-- The same, set. -/
def Hub.setSess (h : Hub) (slot : Option KeySlot) (f : HopSess → HopSess) : Hub :=
  let s := f (h.hopSess slot)
  match slot with
  | some k => h.setHop fun x => { x with sessions := (k.val, s) :: x.sessions.filter fun y => y.1 != k.val }
  | none => h.setHop fun x => { x with openSess := s }

/-- The origin of a session. -/
def hopOrigin : Option KeySlot → Origin
  | some k => .hop k
  | none => .openHop

/-- Transactions in the table (R101). -/
def Hub.hopBusy (h : Hub) : Bool := Nat.ble 64 (h.hop.fwd.length + b2n h.hop.storing.isSome)

/-! ### Operations (R93, R94) -/

/-- Bytes that a read of an object returns. -/
def Hub.hopSize (h : Hub) (k : Nat) : Nat := match rowOf k with
  | some r => if r.ty == .octets then (h.oct k).length else r.ty.hopBytes
  | none => 1

/-- A read of `n` bytes, 0 for the object's full size. Where `n` exceeds the present length of an OCTETS object, its bytes are all the
response returns; a response that is not OK carries no data (log entry 83). -/
def Hub.hopReadRaw (h : Hub) (o : Origin) (k n room : Nat) : Nat × List Byte × Hub :=
  if h.frozen o then (rcFrozen, [], h)
  else
    let size := h.hopSize k
    let wanted := if n = 0 then size else min n size
    let scalar := fun (h : Hub) =>
      if n ≠ 0 ∧ n ≠ size then (rcTypeMismatch, [], h)
      else
        let (c, v, h) := h.readObj o k
        (c, if c = rcOk then toBE size v else [], h)
    match rowOf k with
    | none => if k % 256 = 0 ∧ idxDefined (k / 256) then scalar h else (rcNoObject, [], h)
    | some r =>
      if r.acc == .wo then (rcWriteOnly, [], h)
      else if r.ty == .domain || Nat.ble 256 wanted || Nat.ble (room + 1) wanted then (rcTypeMismatch, [], h)
      else if r.ty == .octets then
        (if (r.acc == .ro || r.acc == .rc) && h.isOff (k / 256) then (rcDomainOff, [], h)
          else (rcOk, (h.oct k).take wanted, h.accessWake o (k / 256)))
      else scalar h

/-- The same, with what a segmented-transfer channel keeps of a refusal (R81). -/
def Hub.hopReadOp (h : Hub) (o : Origin) (k n room : Nat) : Nat × List Byte × Hub :=
  let (c, bs, h) := h.hopReadRaw o k n room
  (c, bs, h.segNote (k / 256) c)

/-- A write, denied in an open frame. -/
def Hub.hopWriteRaw (h : Hub) (o : Origin) (k : Nat) (data : List Byte) : Nat × Hub :=
  if h.frozen o then (rcFrozen, h)
  else if o = .openHop then (rcAccessDenied, h)
  else match rowOf k with
    | none => h.writeObj o k (ofBE data)
    | some r =>
      if r.ty == .domain then (rcTypeMismatch, h)
      else if r.ty == .octets then (if data.isEmpty then (rcTypeMismatch, h) else h.octWrite o k data)
      else if data.length ≠ r.ty.hopBytes then (rcTypeMismatch, h)
      else h.writeObj o k (ofBE data)

/-- The same, with what a segmented-transfer channel keeps of a refusal (R81). -/
def Hub.hopWriteOp (h : Hub) (o : Origin) (k : Nat) (data : List Byte) : Nat × Hub :=
  let (c, h) := h.hopWriteRaw o k data
  (c, h.segNote (k / 256) c)

/-- A commit, denied in an open frame. -/
def Hub.hopCommitOp (h : Hub) (o : Origin) (k : Nat) : Nat × Hub :=
  if h.frozen o then (rcFrozen, h) else if o = .openHop then (rcAccessDenied, h) else h.commitGroup o k

/-- A store, denied in an open frame. -/
def Hub.hopStoreOp (h : Hub) (slot : Option KeySlot) (k : Nat) : Nat × Hub :=
  if h.frozen (hopOrigin slot) then (rcFrozen, h)
  else if slot.isNone then (rcAccessDenied, h)
  else if k ≠ 0 then (rcOutOfRange, h)
  else h.storeStart slot

/-- What a notification on change compares: the result and the bytes of the value, as a number in which their count shows. -/
def Hub.hopNow (h : Hub) (o : Origin) (k : Nat) : Nat :=
  let (c, bs, _) := h.hopReadOp o k 0 255
  c + 256 * ofBE (1 :: bs)

/-- Subscriptions and records of clients together (R99). -/
def Hub.hopServed (h : Hub) : Nat := h.hop.subs.length + h.hop.clients.length

/-- A subscription added, changed or cancelled (R93, R99). A session that subscribes again to an object replaces its subscription, by
whichever path the frame came; one that cancels what it has not subscribed to is answered OK; no notification is sent at once (log
entry 83). -/
def Hub.hopSubscribeOp (h : Hub) (slot : Option KeySlot) (src : HopSrc) (path : List Byte) (k : Nat) (data : List Byte) : Nat × Hub :=
  let o := hopOrigin slot
  let old := h.hop.subs.find? fun s => s.slot == slot && s.key == k
  let period := ofBE data
  if h.frozen o then (rcFrozen, h)
  else if data.length ≠ 2 then (rcTypeMismatch, h)
  else if period = 0xFFFF then
    (rcOk, match old with
      | some s => (h.setHop fun x => { x with subs := x.subs.filter fun y => y.id != s.id }).disarm (.hopNotify s.id)
      | none => h)
  else
    let c := match rowOf k with
      | some r => if r.acc == .wo then rcWriteOnly else if r.ty == .domain then rcTypeMismatch else rcOk
      | none => if k % 256 = 0 ∧ idxDefined (k / 256) then rcOk else rcNoObject
    if c ≠ rcOk then (c, h)
    else if old.isNone ∧ 64 ≤ h.hopServed then (rcSubscribeFull, h)
    else
      let id := match old with
        | some s => s.id
        | none => h.hop.nextId
      let sub : HopSub := { id := id, slot := slot, key := k, period := period, path := path, src := src, value := h.hopNow o k, sent := h.now }
      let h := h.setHop fun x => { x with
        subs := sub :: x.subs.filter fun y => y.id != id
        nextId := if old.isNone then x.nextId + 1 else x.nextId }
      (rcOk, if period = 0 then h.disarm (.hopNotify id) else h.arm (.hopNotify id) (ms period))

/-- One operation but a store: its status and data. An opcode that R92 does not list carries nothing the hub knows. -/
def Hub.hopOp (h : Hub) (slot : Option KeySlot) (src : HopSrc) (path op : List Byte) (room : Nat) : Nat × List Byte × Hub :=
  let o := hopOrigin slot
  let k := opKey op
  let code := byteAt op 0
  if code = 1 then h.hopReadOp o k (byteAt op 5) room
  else
    let (c, h) :=
      if code = 2 then h.hopWriteOp o k (op.drop 6)
      else if code = 3 then h.hopCommitOp o k
      else if code = 5 then h.hopSubscribeOp slot src path k (op.drop 6)
      else if h.frozen o then (rcFrozen, h) else (rcTypeMismatch, h)
    (c, [], h)

/-- The response of a frame whose operations are done: tagged with the value its own tag was checked with, cached while its sequence is
the session's last, sent (R97, R100, R609, R617). -/
def Hub.hopReply (h : Hub) (x : HopExec) (ops : List (List Byte)) : Hub :=
  let hdr := hopHeader (0x80 + 0x40 * b2n x.slot.isSome) (hopSeq x.hdr) (hopReverse x.hdr) ops.length (byteAt x.hdr 15)
  match x.slot with
  | none => h.hopSend x.src (hdr ++ ops.flatten)
  | some k =>
    let f := hdr ++ ops.flatten ++ hopTag x.key hdr ops true
    let h := h.bump (Obj.KEY_USES k.val)
    (if (h.hopSess x.slot).last = hopSeq x.hdr then h.setSess x.slot fun s => { s with cached := some (x.tag, f) } else h).hopSend x.src f

/-- The operations of a frame in order: after the first that fails, none is executed; a store waits for its completion (R93, R94). Data that
come with a commit or a store are passed over (log entry 83). -/
def Hub.hopGo (x : HopExec) : List (List Byte) → List (List Byte) → Bool → Hub → Hub
  | [], done, _, h => h.hopReply x done
  | op :: rest, done, failed, h =>
    if failed then Hub.hopGo x rest (done ++ [opAnswer op rcNotExecuted []]) true h
    else if byteAt op 0 = 4 then
      let (c, h) := h.hopStoreOp x.slot (opKey op)
      if c = rcOk then h.setHop fun y => { y with storing := some { x with done := done, rest := op :: rest } }
      else Hub.hopGo x rest (done ++ [opAnswer op c []]) true h
    else
      let room := 1472 - 16 - 16 * b2n x.slot.isSome - 6 * (rest.length + 1) - done.flatten.length
      let (c, data, h) := h.hopOp x.slot x.src (hopReverse x.hdr) op room
      Hub.hopGo x rest (done ++ [opAnswer op c data]) (c != rcOk) h

/-! ### Receiving (R86, R87, R94 to R102) -/

/-- A request accepted: the sequence is its session's last, and its operations run. -/
def Hub.hopAccept (h : Hub) (src : HopSrc) (slot : Option KeySlot) (f : List Byte) (ops : List (List Byte)) (key tag : List Byte) : Hub :=
  let h := (h.bump Obj.HOP_RX_LOCAL).setSess slot fun s => { s with last := hopSeq f, cached := none }
  let h := match slot with
    | some k => if h.flag Obj.SS_STATE && h.get Obj.SS_SLOT == k.val then h.sessionRestart else h
    | none => h
  Hub.hopGo { slot := slot, src := src, hdr := f.take 16, key := key, tag := tag, done := [], rest := [] } ops [] false h

/-- The sequence rule (R96). -/
def seqNew (seq last : Nat) : Bool := Nat.ble 1 ((seq + 2 ^ 32 - last) % 2 ^ 32) && Nat.ble ((seq + 2 ^ 32 - last) % 2 ^ 32) (2 ^ 31 - 1)

/-- A request whose target this hub is. A repeat is answered with the cached response, whose path is the first frame's, by the interface it
arrives on (R97, log entry 83). -/
def Hub.hopRequest (h : Hub) (src : HopSrc) (f : List Byte) (ops : List (List Byte)) (tag : List Byte) : Hub :=
  let seq := hopSeq f
  if !hopTagged f then
    if !h.flag Obj.HOP_ALLOW_OPEN then h.bump Obj.HOP_DROP_SLOT
    else if !seqNew seq (h.hopSess none).last then h.bump Obj.HOP_DROP_REPLAY
    else if h.hopBusy then h.bump Obj.HOP_DROP_BUSY
    else h.hopAccept src none f ops [] []
  else
    let k := slotNo (hopSlot f)
    if !bitOf (h.get Obj.HOP_SLOT_MASK) k.val then h.bump Obj.HOP_DROP_SLOT
    else match h.keyUse k.val useMac with
      | (none, h) => h.bump Obj.HOP_DROP_SLOT
      | (some key, h) =>
        let s := h.hopSess (some k)
        if hopTag key (f.take 16) ops false ≠ tag then h.bump Obj.HOP_DROP_TAG
        else if seq = s.last then
          match s.cached with
          | some (t, r) => if t = tag then (h.bump Obj.HOP_RESENT).hopSend src r else h.bump Obj.HOP_DROP_REPLAY
          | none => match h.hop.storing with
            | some x => if x.slot = some k ∧ x.tag = tag then h else h.bump Obj.HOP_DROP_REPLAY
            | none => h.bump Obj.HOP_DROP_REPLAY
        else if !seqNew seq s.last then h.bump Obj.HOP_DROP_REPLAY
        else if h.hopBusy then h.bump Obj.HOP_DROP_BUSY
        else h.hopAccept src (some k) f ops key tag

/-- The hop bytes from the pointer on: the way of a request to its target. -/
def hopWay (f : List Byte) : List Byte := (slice f (6 + hopPointer f) (8 - hopPointer f)).takeWhile (· != 0)

/-- The hop bytes by which a response has come, read backwards: those its request left by (R86, R100). -/
def hopCame (f : List Byte) : List Byte := (slice f 6 (hopPointer f)).reverse

/-- A response or notification that has reached the end of its path: it goes on to the client recorded for it (R99 to R101). The spec
states no key: a response belongs to the transaction with its session, its sequence and the path to the hub that answers (log entry
83). -/
def Hub.hopResponse (h : Hub) (f : List Byte) (ops : List (List Byte)) : Hub :=
  if hopIsNotice f then
    match h.hop.clients.find? fun c => c.session == hopSession f && c.key == opKey (ops.headD []) && c.route == hopCame f with
    | some c => h.hopSend c.src f
    | none => h
  else match h.hop.fwd.find? fun x => x.seq == hopSeq f && x.session == hopSession f && x.route == hopCame f with
    | some x => ((h.setHop fun y => { y with fwd := y.fwd.filter fun z => z.id != x.id }).disarm (.hopFwd x.id)).hopSend x.src f
    | none => h.bump Obj.HOP_LATE_RESPONSE

/-- The clients of subscriptions that pass through this hub recorded, or removed (R99). -/
def Hub.hopRecord (h : Hub) (src : HopSrc) (session : Nat) (route : List Byte) (ops : List (List Byte)) : Hub :=
  ops.foldl (fun h op =>
    if byteAt op 0 ≠ 5 then h
    else
      let k := opKey op
      let h := h.setHop fun x => { x with clients := x.clients.filter fun c => !(c.session == session && c.key == k && c.route == route) }
      if ofBE (op.drop 6) = 0xFFFF ∨ 64 ≤ h.hopServed then h
      else h.setHop fun x => { x with clients := ⟨session, k, route, src⟩ :: x.clients }) h

/-- A frame forwarded by a trunk port; a request received over UDP keeps a transaction (R86, R101). -/
def Hub.hopForward (h : Hub) (src : HopSrc) (f : List Byte) (ops : List (List Byte)) (p : Port) : Hub :=
  let tracked := match src with
    | .udp _ _ _ => !hopIsResponse f
    | _ => false
  if tracked && h.hopBusy then h.bump Obj.HOP_DROP_BUSY
  else
    let h := if tracked then
        let id := h.hop.nextId
        let h := h.setHop fun x => { x with fwd := x.fwd ++ [⟨id, hopSeq f, hopSession f, hopWay f, src⟩], nextId := id + 1 }
        (h.arm (.hopFwd id) (ms (h.get Obj.HOP_FWD_TIMEOUT))).hopRecord src (hopSession f) (hopWay f) ops
      else h
    (h.bump Obj.HOP_FORWARDED).hopTrunkSend p f

/-- The path holds no reserved value, and no member byte where none may stand (R85, R87). -/
def pathOk (f : List Byte) : Bool := (slice f 6 8).all fun b => Nat.ble b.toNat 2

/-- A frame received on a trunk: the path byte that led here becomes the way back (R86); a member byte or a reserved value anywhere in its
path is a format fault (R87), and so is a pointer of 8, which leaves no byte to become the way back (log entry 83). -/
def hopArrive (src : HopSrc) (f : List Byte) : Option (List Byte) :=
  match src with
  | .trunk q => if hopPointer f = 8 || !pathOk f then none
    else some (hopSetPointer (setByte f (6 + hopPointer f) (q.val + 1)) (hopPointer f + 1))
  | _ => some f

/-- A member byte replaced by the member's path, where it is valid (R87). -/
def Hub.hopMember (h : Hub) (f : List Byte) : Option (List Byte) :=
  let b := byteAt f 6
  if hopPointer f = 0 ∧ isMember b then
    (if h.headsUnit then some (f.take 6 ++ toBE 8 (h.get (Obj.MEMBER_PATH (b % 32))) ++ f.drop 14) else none)
  else some f

/-- A frame with no format fault finds its way: to this hub, or on by a trunk port (R86). -/
def Hub.hopRoute (h : Hub) (src : HopSrc) (f : List Byte) (ops : List (List Byte)) (tag : List Byte) : Hub :=
  let b := if hopPointer f = 8 then 0 else byteAt f (6 + hopPointer f)
  if b = 0 then (if hopIsResponse f then h.hopResponse f ops else h.hopRequest src f ops tag)
  else if b = 1 then h.hopForward src f ops 0
  else if b = 2 then h.hopForward src f ops 1
  else h.bump Obj.HOP_DROP_FORMAT

/-- A frame received. A frame of the USB function is this hub's own (R460). -/
def Hub.hopRx (h : Hub) (src : HopSrc) (f : List Byte) : Hub :=
  if !h.hopOn src then h
  else match hopParse f with
    | none => h.bump Obj.HOP_DROP_FORMAT
    | some (ops, tag) =>
      if src = .usb then (if hopIsResponse f then h else h.hopRequest src (hopSetPointer f 0) ops tag)
      else match (hopArrive src f).bind h.hopMember with
        | some f => if pathOk f then h.hopRoute src f ops tag else h.bump Obj.HOP_DROP_FORMAT
        | none => h.bump Obj.HOP_DROP_FORMAT

/-! ### The commands -/

/-- Meaning of HOP_FRAME_RX: a frame that arrives, or, with none given, the oldest that a trunk or the USB function has assembled. -/
def execHopFrameRx (src : HopSrc) (frame : Option (List Byte)) (s : State) : Host.Outcome State Fault Refusal :=
  s.run fun h => match frame with
    | some f => h.hopRx src f
    | none => match h.hopIn with
      | (src, f) :: rest => { h with hopIn := rest }.hopRx src f
      | [] => h

/-- One operation of a session on its own, its status and data reported. -/
def Hub.hopAlone (h : Hub) (slot : Option KeySlot) (src : HopSrc) (path op : List Byte) : Hub :=
  let (c, data, h) := h.hopOp slot src path op 255
  h.emit (.octets (hopOrigin slot) c data)

/-- The head of an operation. -/
def opHead (code : Nat) (k : BitVec 24) (n : Nat) : List Byte := [BitVec.ofNat 8 code, 0] ++ toBE 3 k.toNat ++ [BitVec.ofNat 8 n]

/-- Meaning of HOP_READ. -/
def execHopRead (slot : Option KeySlot) (k : BitVec 24) (n : Byte) (s : State) : Host.Outcome State Fault Refusal :=
  s.run fun h => h.hopAlone slot .usb [] (opHead 1 k n.toNat)

/-- Meaning of HOP_WRITE. -/
def execHopWrite (slot : Option KeySlot) (k : BitVec 24) (data : List Byte) (s : State) : Host.Outcome State Fault Refusal :=
  s.run fun h => h.hopAlone slot .usb [] (opHead 2 k data.length ++ data)

/-- Meaning of HOP_COMMIT. -/
def execHopCommit (slot : Option KeySlot) (k : BitVec 24) (s : State) : Host.Outcome State Fault Refusal :=
  s.run fun h => h.hopAlone slot .usb [] (opHead 3 k 0)

/-- Meaning of HOP_STORE: answered at once only where it is refused. -/
def execHopStore (slot : Option KeySlot) (s : State) : Host.Outcome State Fault Refusal :=
  s.run fun h =>
    let (c, h) := h.hopStoreOp slot 0
    if c = rcOk then h.setHop fun y => { y with storing := some { slot := slot, src := .usb, hdr := [], key := [], tag := [], done := [], rest := [] } }
    else h.emit (.octets (hopOrigin slot) c [])

/-- Meaning of HOP_SUBSCRIBE: `path` leads back to the client from the interface the frame came in on. -/
def execHopSubscribe (slot : Option KeySlot) (src : HopSrc) (path : W64) (k : BitVec 24) (period : W16) (s : State) :
    Host.Outcome State Fault Refusal :=
  s.run fun h => h.hopAlone slot src (toBE 8 path.toNat) (opHead 5 k 2 ++ toBE 2 period.toNat)

/-- A subscription's notification is due: its period has passed, or its value has changed and a millisecond has passed (R99). -/
def Hub.hopDue (h : Hub) (s : HopSub) : Bool :=
  if s.period = 0 then h.hopNow (hopOrigin s.slot) s.key != s.value && Nat.ble (ms 1) (h.now - s.sent) else h.due (.hopNotify s.id)

/-- The notification of a subscription sent (R99): open and with slot byte 0 for one made in an open frame, as its responses are (R98,
log entry 83). -/
def Hub.hopNotice (h : Hub) (s : HopSub) : Hub :=
  let v := h.hopNow (hopOrigin s.slot) s.key
  let (c, data, h) := h.hopReadOp (hopOrigin s.slot) s.key 0 255
  let op := opAnswer (opHead 1 (BitVec.ofNat 24 s.key) 0) c data
  let h := h.setSess s.slot fun x => { x with notify := (x.notify + 1) % 2 ^ 32 }
  let hdr := hopHeader (0xA0 + 0x40 * b2n s.slot.isSome) (h.hopSess s.slot).notify s.path 1 (match s.slot with
    | some k => k.val
    | none => 0)
  let h := h.setHop fun x => { x with subs := x.subs.map fun y => if y.id = s.id then { y with value := v, sent := h.now } else y }
  let h := if s.period = 0 then h else h.arm (.hopNotify s.id) (ms s.period)
  match s.slot with
  | none => h.hopSend s.src (hdr ++ op)
  | some k => match h.keyUse k.val useMac with
    | (some key, h) => h.hopSend s.src (hdr ++ op ++ hopTag key hdr [op] true)
    | (none, h) => h

/-- Meaning of HOP_NOTIFY: a subscription whose slot no longer meets R96 ends instead. -/
def execHopNotify (id : W32) (s : State) : Host.Outcome State Fault Refusal :=
  s.run fun h => match h.hop.subs.find? fun x => x.id == id.toNat with
    | none => h
    | some x =>
      let ok := match x.slot with
        | some k => h.slotMac k.val
        | none => h.flag Obj.HOP_ALLOW_OPEN
      if !ok then (h.setHop fun y => { y with subs := y.subs.filter fun z => z.id != x.id }).disarm (.hopNotify x.id)
      else if h.hopDue x then h.hopNotice x
      else h

/-- Meaning of HOP_RESPONSE_RX: a response arrives on a trunk. -/
def execHopResponseRx (p : Port) (frame : List Byte) (s : State) : Host.Outcome State Fault Refusal :=
  s.run fun h => if hopIsResponse frame then h.hopRx (.trunk p) frame else h

/-- Meaning of HOP_FWD_TIMEOUT (R101). -/
def execHopFwdTimeout (id : W32) (s : State) : Host.Outcome State Fault Refusal :=
  s.run fun h =>
    if h.due (.hopFwd id.toNat) then (h.setHop fun y => { y with fwd := y.fwd.filter fun z => z.id != id.toNat }).disarm (.hopFwd id.toNat)
    else h

/-- The HOP operation that waited for a store goes on. Which code of R76 a failed store answers with is open: a free value among those
that are not OK. -/
def Hub.hopStored (h : Hub) (fault : Bool) : Hub :=
  match h.hop.storing with
  | none => h
  | some x =>
    let code := if fault then 1 + h.free 8 % 17 else rcOk
    let h := (if fault then h.used else h).setHop fun y => { y with storing := none }
    match x.rest with
    | [] => h.emit (.octets (hopOrigin x.slot) code [])
    | op :: rest => Hub.hopGo x rest (x.done ++ [opAnswer op code []]) fault h

/-- Meaning of STORE_COMPLETE. -/
def execStoreComplete (fault : Bool) (s : State) : Host.Outcome State Fault Refusal :=
  s.run fun h => if h.storeRun = .idle then h else (h.storeEnd fault).hopStored fault

/-- Meaning of RAIL_OUT_OF_WINDOW: eight consecutive samples of the rail are at `uv` µV, outside its window. A store or restore that runs fails when VDD_MRAM, rail 6 of R695, leaves its window (R694). -/
def execRailOutOfWindow (r : Fin 12) (uv : W32) (s : State) : Host.Outcome State Fault Refusal :=
  s.run fun h =>
    if h.safety.railsOut.contains r.val ∨ h.railWithin r.val uv.toNat then h
    else
      let h := if r.val = 6 ∧ h.storeRun ≠ .idle then (h.storeEnd true).hopStored true else h
      h.railOut r.val

end Sys2Proof.Machine
end

