-- ==== Sys2Proof/Machine/Bridge.lean ====
section
/-! DEFINITION. The host bridge (chapter 04): windows and their prefetch, remote accesses at both ends, the management port, and the
carriage of interrupts from the members of a composite unit. -/

namespace Sys2Proof.Machine

/-- The bridge set. -/
def Hub.setBridge (h : Hub) (f : Bridge → Bridge) : Hub := { h with bridge := f h.bridge }

/-! ### Target spaces (R107, R523) -/

/-- A retained domain wakes for a window access (R523); what the access finds: on or waking, or not to be served. -/
def Hub.spaceWake (h : Hub) (o : Origin) (d : Domain) : Bool × Hub :=
  if h.domState d.val = 1 ∧ h.flag (Obj.PD_WAKE_ON_ACCESS d.val) then
    (true, (h.startWake d 2 (wakeDetail o)).bump (Obj.ACCESS_WAKES d.val))
  else (h.domOn d.val || (h.domState d.val == 3 && !(h.doms[d]).lost), h)

/-- Bytes `off` on of a word, `n` of them, none where they run into the next (R78). -/
def wholeIn (off n : Nat) : Bool := n != 0 && Nat.ble (off % 4 + n) 4

/-- An offset of a target space that reaches no object: beyond the space, or outside the frame-store region (R107, R361). The size is looked
at before the width for the peripheral region and the frame store (log entry 87). -/
def Hub.noTarget (h : Hub) (target off : Nat) : Bool :=
  Nat.ble (targetSize target) off || (target == 3 &&
    !(Nat.ble (h.get Obj.FS_BASE) off && Nat.ble (off + 1) (h.get Obj.FS_BASE + h.get Obj.FS_SIZE * 1048576)))

/-- A read of `n` bytes at an offset of a target space of this hub: result, value, hub. -/
def Hub.targetRead (h : Hub) (o : Origin) (target off n : Nat) : Nat × Nat × Hub :=
  if h.frozen o then (rcFrozen, 0, h)
  else if target = 1 then h.readView o off n
  else if h.noTarget target off then (rcNoObject, 0, h)
  else if target = 2 then
    (if n ≠ 4 then (rcTypeMismatch, 0, h)
      else match h.spaceWake o 2 with
        | (true, h) => h.regionRead off
        | (false, h) => (rcDomainOff, 0, h))
  else if !wholeIn off n then (rcTypeMismatch, 0, h)
  else match h.spaceWake o 23 with
    | (true, h) => (rcOk, ofLE (h.memRead (dramAddr off) n), h)
    | (false, h) => (rcDomainOff, 0, h)

/-- A write of `n` bytes at an offset of a target space of this hub. -/
def Hub.targetWrite (h : Hub) (o : Origin) (target off n : Nat) (v : W32) : Nat × Hub :=
  if h.frozen o then (rcFrozen, h)
  else if target = 1 then h.writeView o off n v
  else if h.noTarget target off then (rcNoObject, h)
  else if target = 2 then
    (if n ≠ 4 then (rcTypeMismatch, h)
      else match h.spaceWake o 2 with
        | (true, h) => (h.dropBlock 2 0 off).regionWrite off v.toNat
        | (false, h) => (rcDomainOff, h))
  else if !wholeIn off n then (rcTypeMismatch, h)
  else match h.spaceWake o 23 with
    | (true, h) => (rcOk, (h.dropBlock 3 0 off).memWrite (dramAddr off) (toLE n v.toNat))
    | (false, h) => (rcDomainOff, h)

/-! ### Prefetch (R119 to R121) -/

/-- The object of a word of the object view. -/
def objAt (off : Nat) : Nat :=
  let k := off / 1024 * 256 + off % 1024 / 4
  (wideOf k).getD k

/-- A word of a target space that is no RC or WO object (R120). -/
def fetchable (target off : Nat) : Bool :=
  target != 1 || match rowOf (objAt off) with
    | some r => r.acc != .rc && r.acc != .wo
    | none => true

/-- Its domain at the target is on. -/
def Hub.fetchOn (h : Hub) (target off : Nat) : Bool :=
  h.domOn (if target = 1 then domainOfIdx (objAt off / 256) else if target = 2 then 2 else 23)

/-- No word of the block up to this one fails a condition (R120). -/
def blockAll (off : Nat) (f : Nat → Bool) : Bool := (List.range (off % 16 / 4 + 1)).all fun i => f (off / 16 * 16 + 4 * i)

/-- A word may be fetched ahead: neither it nor any word before it in its block is one that may not (R120). -/
def Hub.mayFill (h : Hub) (target off : Nat) : Bool := blockAll off fun a => fetchable target a && h.fetchOn target a

/-- The words of the block behind the word read. -/
def behind (off : Nat) : List Nat := (List.range (3 - off % 16 / 4)).map fun i => off / 4 * 4 + 4 * (i + 1)

/-- A word read ahead: none where it may not be. It has the read's effects (R83), but disturbs no snapshot of the origin. -/
def Hub.fillRead (h : Hub) (o : Origin) (target off : Nat) : Option Nat × Hub :=
  if !h.mayFill target off then (none, h)
  else
    let (c, v, h') := h.targetRead o target off 4
    (if c = rcOk then some v else none, if target = 1 then h'.setOrigin o (h.origin o) else h')

/-- A new prefetch into a window's buffer: what it holds unconsumed is discarded (R121). -/
def Hub.fillStart (h : Hub) (o : Origin) (d : WinDec) (ws : List (Nat × W32)) : Hub :=
  let h := h.discardPrefetch d.win
  let h := h.setBridge fun b => { b with
    prefetch := b.prefetch.set d.win (some ⟨o, b.nextFill, d.target, d.path, d.off / 16 * 16, ws⟩), nextFill := b.nextFill + 1 }
  if ws.isEmpty then h else h.arm (.prefetchIdle d.win) (us 20)

/-- The words of the block read ahead into the window's buffer. -/
def Hub.prefetchLocal (h : Hub) (o : Origin) (d : WinDec) : Hub :=
  let (ws, h) := (behind d.off).foldl (fun (x : List (Nat × W32) × Hub) a =>
    match x.2.fillRead o d.target a with
    | (some v, h) => (x.1 ++ [(a, BitVec.ofNat 32 v)], h)
    | (none, h) => (x.1, h)) ([], h)
  if ws.isEmpty then h else h.fillStart o d ws

/-- A word held in the window's buffer, taken out of it (R121). -/
def Hub.prefetchHit (h : Hub) (w : Fin 16) (off n : Nat) : Option (Nat × Hub) :=
  match h.bridge.prefetch[w] with
  | none => none
  | some p =>
    if !wholeIn off n then none
    else match p.words.find? fun c => c.1 == off / 4 * 4 with
      | none => none
      | some c =>
        let rest := p.words.filter fun x => x.1 != c.1
        let spent := rest.isEmpty && !h.filling p.serial
        let h := h.setBridge fun b => { b with prefetch := b.prefetch.set w (if spent then none else some { p with words := rest }) }
        some (c.2.toNat / 2 ^ (8 * (off % 4)) % 2 ^ (8 * n), if spent then h.disarm (.prefetchIdle w) else h.arm (.prefetchIdle w) (us 20))

/-! ### Windows (R108 to R115) -/

/-- The enabled window that contains an aperture offset (R110). -/
def Hub.windowAt (h : Hub) (off : Nat) : Option (Fin 16) :=
  (List.finRange 16).find? fun w => h.get (Obj.WIN_TARGET w) != 0 && Nat.ble (h.get (Obj.WIN_BASE w)) off &&
    Nat.ble (off + 1) (h.get (Obj.WIN_BASE w) + 2 ^ h.get (Obj.WIN_SIZE w))

/-- The decoding of an aperture offset under the groups in effect (R110). -/
def Hub.decodeAt (h : Hub) (off : Nat) : Option WinDec :=
  (h.windowAt off).map fun w =>
    ⟨w, h.get (Obj.WIN_TARGET w), h.get (Obj.WIN_PATH w), h.get (Obj.WIN_OFFSET w) + (off - h.get (Obj.WIN_BASE w)),
      h.get (Obj.WIN_FLAGS w), h.get (Obj.WIN_TIMEOUT w)⟩

/-- A window's path with a member byte replaced, 0 where it ends at once and so names this hub (R85, R110); none for a member number that
is free (R87). -/
def Hub.memberRoute (h : Hub) (path : Nat) : Option Nat :=
  let b := pathByte path 0
  let home := fun p => if pathByte p 0 = 0 then 0 else p
  if !isMember b then some (home path)
  else if !h.headsUnit || h.get (Obj.MEMBER_UNIT_ID (b % 32)) == 0 then none
  else some (home (h.get (Obj.MEMBER_PATH (b % 32))))

/-- The trunk port a path leaves by, if its link is up. -/
def Hub.pathPort (h : Hub) (path : Nat) : Option Port :=
  let b := pathByte path 0
  if b = 1 ∧ h.linkUp 0 then some 0 else if b = 2 ∧ h.linkUp 1 then some 1 else none

/-- The request cell of a remote access (R112). The kind of an engine's origin is that of BAR0 (log entry 87). -/
def Hub.remoteCell (h : Hub) (x : RemoteAcc) : Hub :=
  h.emit (.bridgeReq x.path (bitOf x.dec.flags 4) x.id (originMp x.origin) x.write x.dec.target x.dec.off x.n x.data x.fill.isSome)

/-- A remote request issued: a tracked entry, its wait, and the request cell (R112, R116). -/
def Hub.remoteIssue (h : Hub) (x : RemoteAcc) : Hub :=
  let h := h.setBridge fun b => { b with remote := b.remote ++ [x] }
  ((h.npTake (.bridge x.id) 0 ((h.pathPort x.path.toNat).map (·.val)) 0).arm (.remoteAcc x.id) (us x.dec.timeout)).remoteCell x

/-- A remote write in a posted window: it leaves at once, and counts against the tracked transactions until then (R112, R123; log entry
89). Its result is awaited for the error log alone. -/
def Hub.remotePost (h : Hub) (x : RemoteAcc) : Hub :=
  let x := { x with id := h.bridge.nextId }
  let h := h.setBridge fun b => { b with nextId := b.nextId + 1, remote := b.remote ++ [x] }
  let h := if h.npFull then h else h.peak Obj.NP_PEAK (h.pcie.np.length + 1)
  (h.arm (.remoteAcc x.id) (us x.dec.timeout)).remoteCell x

/-- A remote request asked for: held while every non-posted transaction is taken (R326). -/
def Hub.remoteAsk (h : Hub) (x : RemoteAcc) : Hub :=
  let x := { x with id := h.bridge.nextId }
  let h := h.setBridge fun b => { b with nextId := b.nextId + 1 }
  if h.npFull then (h.setBridge fun b => { b with held := b.held ++ [x] }).bump Obj.NP_FULL else h.remoteIssue x

/-- A read through a window of another hub; the words behind it that may be fetched ahead are asked for with it (R112, R119, R120). -/
def Hub.remoteRead (h : Hub) (a : BridgeAcc) (d : WinDec) (path : Nat) : Hub :=
  if (h.pathPort path).isNone then h.answerRead a.origin a.addr (some d) causeNoRoute 0
  else
    let x : RemoteAcc := ⟨0, a.num, a.origin, d, false, false, a.addr, 0, BitVec.ofNat 64 path, a.n, none, false⟩
    let h := h.remoteAsk x
    let ws := if bitOf d.flags 1 then (behind d.off).filter fun o => blockAll o (fetchable d.target) else []
    if ws.isEmpty then h
    else
      let serial := h.bridge.nextFill
      ws.foldl (fun h o => h.remoteAsk { x with dec := { d with off := o }, n := 4, fill := some serial }) (h.fillStart a.origin d [])

/-- A read through a window. A buffer is known by the route its block lies behind. -/
def Hub.windowRead (h : Hub) (a : BridgeAcc) (d : WinDec) : Hub :=
  let ahead := bitOf d.flags 1
  match (if ahead then h.prefetchHit d.win d.off a.n else none) with
  | some (v, h) => h.answerRead a.origin a.addr (some d) rcOk (BitVec.ofNat 32 v)
  | none =>
    match h.memberRoute d.path with
    | none => h.answerRead a.origin a.addr (some d) causeNoRoute 0
    | some 0 =>
      let d := { d with path := 0 }
      let (c, v, h) := h.targetRead a.origin d.target d.off a.n
      let h := if ahead && c == rcOk then h.prefetchLocal a.origin d else h
      h.answerRead a.origin a.addr (some d) c (BitVec.ofNat 32 v)
    | some path => h.remoteRead a { d with path := path } path

/-- A write through a window: without write enable a rights violation (R115). -/
def Hub.windowWrite (h : Hub) (a : BridgeAcc) (d : WinDec) : Hub :=
  if !bitOf d.flags 2 then (h.answerWrite a.origin a.addr (some d) causeWriteDisabled a.data).freeze a.origin 2
  else match h.memberRoute d.path with
    | none => h.answerWrite a.origin a.addr (some d) causeNoRoute a.data
    | some 0 =>
      let (c, h) := h.targetWrite a.origin d.target d.off a.n a.data
      h.answerWrite a.origin a.addr (some d) c a.data
    | some path =>
      let h := h.dropBlock d.target path d.off
      if (h.pathPort path).isNone then h.answerWrite a.origin a.addr (some d) causeNoRoute a.data
      else
        let x : RemoteAcc := ⟨0, a.num, a.origin, d, true, isPosted (some d), a.addr, a.data, BitVec.ofNat 64 path, a.n, none, false⟩
        if x.posted then (h.remotePost x).answerWrite a.origin a.addr (some d) rcOk a.data else h.remoteAsk x

/-- An accepted access carried out (R105, R106, R110, R117). -/
def Hub.accessRun (h : Hub) (a : BridgeAcc) : Hub :=
  let h := h.setBridge fun b => { b with cur := a.num }
  if a.ap then
    (if h.frozen a.origin then
      (if a.write then h.answerWrite a.origin a.addr a.dec rcFrozen a.data else h.answerRead a.origin a.addr a.dec rcFrozen 0)
    else match a.dec with
      | none => if a.write then h.answerWrite a.origin a.addr none causeNoWindow a.data else h.answerRead a.origin a.addr none causeNoWindow 0
      | some d => if a.write then h.windowWrite a d else h.windowRead a d)
  else if a.write then
    let (c, h) := h.writeView a.origin a.off a.n a.data
    h.answerWrite a.origin a.addr none c a.data
  else
    let (c, v, h) := h.readView a.origin a.off a.n
    h.answerRead a.origin a.addr none c (BitVec.ofNat 32 v)

/-- A write of the origin in a non-posted window awaits its result: the origin's next access is held (R111). -/
def Hub.originHeld (h : Hub) (o : Origin) : Bool :=
  (h.bridge.remote ++ h.bridge.held).any fun x => x.origin == o && x.write && !x.posted

/-- Accesses of the origin wait at the bridge, or a write of a non-posted window awaits its result: its next access, to the object view too,
comes after them (R111). -/
def Hub.originBusy (h : Hub) (o : Origin) : Bool := h.originHeld o || (h.bridge.queue ++ h.bridge.waits).any fun x => x.origin == o

/-- Bytes in the inbound posted buffer (R123). -/
def Hub.inboundBytes (h : Hub) : Nat := ((h.bridge.queue.filter (·.write)).map (·.n)).sum

/-- An access is accepted: it is decoded under the groups in effect, counted, and carried out or held behind its origin's write. -/
def Hub.accept1 (h : Hub) (a : BridgeAcc) : Hub :=
  let dec := if a.ap then (if 0x10000000 ≤ a.off then none else h.decodeAt a.off) else none
  let h := match dec with
    | some d => h.bump (Obj.WIN_HITS d.win)
    | none => h
  let a := { a with dec := dec }
  if h.originHeld a.origin || h.bridge.queue.any (fun x => x.origin == a.origin) then h.setBridge fun b => { b with queue := b.queue ++ [a] }
  else h.accessRun a

/-- An access that the bridge does not accept yet: a write that finds the inbound posted buffer full, or what its origin has behind one. -/
def Hub.backPressed (h : Hub) (before : List BridgeAcc) (a : BridgeAcc) : Bool :=
  (a.write && (Nat.ble 16385 (h.inboundBytes + a.n) || before.any (·.write))) || before.any (fun x => x.origin == a.origin)

/-- An access reaches the bridge. -/
def Hub.access (h : Hub) (o : Origin) (addr : Nat) (ap : Bool) (off n : Nat) (write : Bool) (v : W32) : Hub :=
  let a : BridgeAcc := ⟨h.bridge.nextAcc, o, addr, ap, none, off, n, write, v⟩
  let h := h.setBridge fun b => { b with nextAcc := b.nextAcc + 1 }
  if h.backPressed h.bridge.waits a then h.setBridge fun b => { b with waits := b.waits ++ [a] } else h.accept1 a

/-- Held requests go out while there is room, held accesses run once nothing of their origin is in their way, and accesses are accepted
once the buffer has room: no posted write waits behind a non-posted request (R123). -/
def Hub.bridgeGo : Nat → Hub → Hub
  | 0, h => h
  | fuel + 1, h =>
    match (if h.npFull then none else h.bridge.held.head?) with
    | some x => Hub.bridgeGo fuel ((h.setBridge fun b => { b with held := b.held.drop 1 }).remoteIssue x)
    | none =>
      match h.bridge.queue.find? fun a => !h.originHeld a.origin with
      | some a => Hub.bridgeGo fuel ((h.setBridge fun b => { b with queue := b.queue.erase a }).accessRun a)
      | none =>
        match h.bridge.waits with
        | a :: rest => if h.backPressed [] a then h else Hub.bridgeGo fuel ((h.setBridge fun b => { b with waits := rest }).accept1 a)
        | [] => h

/-- What held accesses there are goes on. -/
def Hub.bridgeResume (h : Hub) : Hub :=
  Hub.bridgeGo (h.bridge.held.length + h.bridge.queue.length + 2 * h.bridge.waits.length) h

/-- An inbound access has completed. -/
def Hub.accDone (h : Hub) (num : Nat) : Bool :=
  !((h.bridge.queue ++ h.bridge.waits).any (fun a => a.num == num) || (h.bridge.remote ++ h.bridge.held).any (fun x => x.num == num))

/-- An inbound access, the next to be numbered, that needs what a hub-side request would hold makes the bridge withdraw that request
(R124). -/
def Hub.withdraw (h : Hub) (contends : Option Nat) : Hub :=
  match contends with
  | some id => if h.pcie.np.any (fun e => e.id == id) && !h.bridge.withdrawn.any (fun w => w.1 == id) then
      (h.setBridge fun b => { b with withdrawn := (id, b.nextAcc) :: b.withdrawn }).bump Obj.NP_RETRY
    else h
  | none => h

/-! ### The commands -/

/-- A memory request of the host for a BAR of the management function (R104), of one word or less; in D3hot it takes none (R309). -/
def Hub.barAccess (h : Hub) (bar2 : Bool) (off n : Nat) (write : Bool) (v : W32) : Hub :=
  if h.inD0 then h.access .bar0 off bar2 off n write v else if write then h else h.emit (.pcieCpl 1 0)

/-- Meaning of WINDOW_READ: a read of a PCIe host through BAR2, or BAR0, of `n` bytes. -/
def execWindowRead (bar2 : Bool) (off : BitVec 28) (n : Fin 9) (contends : Option Nat) (s : State) : Host.Outcome State Fault Refusal :=
  s.run fun h => (h.withdraw contends).barAccess bar2 off.toNat n.val false 0

/-- Meaning of WINDOW_WRITE. -/
def execWindowWrite (bar2 : Bool) (off : BitVec 28) (n : Fin 9) (v : W32) (contends : Option Nat) (s : State) :
    Host.Outcome State Fault Refusal :=
  s.run fun h => (h.withdraw contends).barAccess bar2 off.toNat n.val true v

/-- The BAR and offset that a TLP of the host reaches, where it reaches one: BAR2 or BAR0 (R106, R318). -/
def Hub.tlpBar (h : Hub) (port : Fin 2) (tlp : Tlp) : Option (Bool × Nat) :=
  if h.pcie.role[port] = 1 ∧ !tlp.io then
    match h.tlpRoute h.hasBridge tlp with
    | .bar bar2 off => some (bar2, off)
    | _ => none
  else none

/-- A TLP for a BAR is the access of its first word, in the bytes it enables. -/
def Hub.tlpView (h : Hub) (bar2 : Bool) (off : Nat) (tlp : Tlp) : Hub :=
  let be := byteAt tlp.bytes 7 % 16
  let skip := (firstBelow (bitOf be) 4).getD 0
  h.barAccess bar2 (off + skip) (popCount 4 be) (Nat.ble 2 tlp.fmt) (BitVec.ofNat 32 (ofLE (tlp.data.take 4 |>.drop skip)))

/-- Meaning of PCIE_TLP_INGRESS (R321): the switch's bus numbers, BARs and windows route the TLP (R318). -/
def execPcieTlpIngress (port : Fin 2) (tlp : Tlp) (s : State) : Host.Outcome State Fault Refusal :=
  s.run fun h =>
    let h := h.bump (Obj.TLP_RX port)
    match h.tlpBar port tlp with
    | some (bar2, off) => h.tlpView bar2 off tlp
    | none => h.tlpIngress port tlp

/-- Meaning of PREFETCH_IDLE_TIMEOUT (R121). -/
def execPrefetchIdleTimeout (w : Fin 16) (s : State) : Host.Outcome State Fault Refusal :=
  s.run fun h => if h.due (.prefetchIdle w) then (h.discardPrefetch w).disarm (.prefetchIdle w) else h

/-- A request of another hub served, or refused as a rights violation (R113, R114). A word asked for ahead is not fetched where R120 forbids
it. -/
def Hub.serveRemote (h : Hub) (unit : W64) (mp : Bool) (id : Nat) (write : Bool) (target off n : Nat) (v : W32) (fill : Bool) : Hub :=
  let o : Origin := .remote unit mp
  let done := fun (h : Hub) (c : Nat) (d : Nat) =>
    let h := if c = rcOk ∨ (c = rcFrozen ∧ !write) then h else h.errorLog o off c 0 write (if write then v.toNat else 0)
    h.emit (.bridgeResult unit id c (BitVec.ofNat 32 d))
  if h.frozen o then done h rcFrozen 0
  else if !bitOf (h.get Obj.REMOTE_ALLOW) (b2n write) then (done h causeRemoteDenied 0).freeze o 1
  else if write then
    let (c, h) := h.targetWrite o target off n v
    done h c 0
  else if fill then
    (match h.fillRead o target off with
      | (some d, h) => h.emit (.bridgeResult unit id rcOk (BitVec.ofNat 32 d))
      | (none, h) => h.emit (.bridgeResult unit id rcDomainOff 0))
  else
    let (c, d, h) := h.targetRead o target off n
    done h c d

/-- Meaning of REMOTE_BRIDGE_REQUEST_RX. -/
def execRemoteBridgeRequestRx (unit : W64) (mp : Bool) (id : W32) (write : Bool) (target : Fin 4) (off : W32) (n : Fin 9) (v : W32)
    (fill : Bool) (s : State) : Host.Outcome State Fault Refusal :=
  s.run fun h => h.serveRemote unit mp id.toNat write target.val off.toNat n.val v fill

/-- The tracked entry of a remote access freed. -/
def Hub.bridgeFree (h : Hub) (id : Nat) : Hub :=
  match h.pcie.np.find? fun e => e.key == .bridge id with
  | some e => (h.npFree e.id).npResume
  | none => h

/-- Meaning of REMOTE_RESULT_RX: a result for no waiting access is dropped (R116), and counted where R327 or R328 ended the access (R329). -/
def execRemoteResultRx (id : W32) (code : Byte) (data : W32) (s : State) : Host.Outcome State Fault Refusal :=
  s.run fun h =>
    if h.bridge.remote.any (fun x => x.id == id.toNat) then ((h.bridgeFree id.toNat).remoteEnd id.toNat code.toNat data).bridgeResume
    else if h.pcie.gone.contains id.toNat then
      (h.setPcie fun p => { p with gone := p.gone.filter fun x => x != id.toNat }).bump Obj.CPL_LATE
    else h

/-- Meaning of REMOTE_TIMEOUT. -/
def execRemoteTimeout (id : W32) (s : State) : Host.Outcome State Fault Refusal :=
  s.run fun h =>
    if h.due (.remoteAcc id.toNat) then ((h.bridgeFree id.toNat).remoteEnd id.toNat causeRemoteTimeout 0).bridgeResume else h

/-- Meaning of NP_RETRY_REISSUE: once the inbound access it was withdrawn for has completed (R124). -/
def execNpRetryReissue (id : W32) (s : State) : Host.Outcome State Fault Refusal :=
  s.run fun h =>
    if h.bridge.withdrawn.any fun w => w.1 == id.toNat && h.accDone w.2 then
      (h.setBridge fun b => { b with withdrawn := b.withdrawn.filter fun w => w.1 != id.toNat }).emit (.npReissue id.toNat)
    else h

/-! ### The management port (R105, R128, R129) -/

/-- An address of the management port; one in no range of R105 has no window. -/
def Hub.mpAccess (h : Hub) (addr : Nat) (write : Bool) (v : W32) : Hub :=
  if addr < 2 ^ 26 then h.access .mp addr false addr 4 write v
  else h.access .mp addr true (if 0x10000000 ≤ addr ∧ addr < 0x20000000 then addr - 0x10000000 else 0x10000000) 4 write v

/-- The master ends its transfer: a read that has no status yet is abandoned, a write received in full is still executed (R128). -/
def Hub.mpEnd (h : Hub) : Hub :=
  h.setBridge fun b => { b with
    mp := none, mpBusy := none
    held := b.held.filter fun x => x.origin != .mp || x.write
    queue := b.queue.filter fun a => a.origin != .mp || a.write
    waits := b.waits.filter fun a => a.origin != .mp || a.write }

/-- One access of a transfer, whose answer the master awaits. -/
def Hub.mpGo (h : Hub) (t : MpTransfer) (v : W32) (contends : Option Nat) : Hub :=
  ((h.setBridge fun b => { b with mp := some t, mpBusy := some b.nextAcc }).withdraw contends).mpAccess t.addr.toNat t.write v

/-- The port is an I2C slave (R41). -/
def Hub.mpI2c (h : Hub) : Bool := bitOf (h.get Obj.STRAP_VALUE) 2

/-- Its slave address (R41). -/
def Hub.mpSlave (h : Hub) : Nat := 0x58 + field (h.get Obj.STRAP_VALUE) 4 3

/-- A phase of a transfer: read with command 0x0B, write with 0x02 (R128, R129). The hub returns 0 for what it receives. Another command
byte makes no access: an SPI master reads zeros, an I2C master's byte is not acknowledged; and SCL is stretched after a write too, though
no status byte follows it (log entry 87). -/
def Hub.mpPhase (h : Hub) (x : MpPhase) (write : Bool) (v : W32) (contends : Option Nat) : Hub :=
  let cmd : Byte := if write then 0x02 else 0x0B
  match x with
  | .spi c addr ended =>
    if h.mpI2c then h
    else
      let h := h.mpEnd.emit (.mpReturn (List.replicate (if write then 9 else 5) 0))
      if c ≠ cmd then h
      else if !ended then h.mpGo ⟨write, false, addr⟩ v contends
      else if write then (h.withdraw contends).mpAccess addr.toNat true v
      else h
  | .spiNext =>
    match h.bridge.mp with
    | some t =>
      if h.mpI2c || t.i2c || h.bridge.mpBusy.isSome || t.write != write then h
      else (if write then h.emit (.mpReturn (List.replicate 4 0)) else h).mpGo { t with addr := t.addr + 4 } v contends
    | none => h
  | .spiEnd => if h.mpI2c then h else h.mpEnd
  | .i2c slave c addr =>
    if !h.mpI2c then h
    else if slave.toNat ≠ h.mpSlave ∨ c ≠ cmd then h.emit .mpNack
    else (h.mpEnd.emit (.mpStretch true)).mpGo ⟨write, true, addr⟩ v contends

/-- Meaning of MP_READ. -/
def execMpRead (phase : MpPhase) (contends : Option Nat) (s : State) : Host.Outcome State Fault Refusal :=
  s.run fun h => h.mpPhase phase false 0 contends

/-- Meaning of MP_WRITE. -/
def execMpWrite (phase : MpPhase) (v : W32) (contends : Option Nat) (s : State) : Host.Outcome State Fault Refusal :=
  s.run fun h => h.mpPhase phase true v contends

/-! ### Interrupt carriage (R130 to R132) -/

/-- Vector `m` issued toward the host, where the route carries it by MSI-X (R130). -/
def Hub.memberVector (h : Hub) (m : Nat) : Hub :=
  let h := h.takeUnit .irq fun _ => true
  if h.eff Obj.HOST_IRQ_ROUTE = 1 then h else h.post (.msix m)

/-- Meaning of MEMBER_IRQ_MESSAGE_RX. -/
def execMemberIrqMessageRx (m : Fin 32) (s : State) : Host.Outcome State Fault Refusal :=
  s.run fun h =>
    if h.headsUnit && h.get (Obj.MEMBER_UNIT_ID m.val) != 0 then
      ((h.setBridge fun b => { b with messages := b.messages ||| BitVec.ofNat 32 (2 ^ m.val) }).put Obj.SB_SUMMARY
        (setBit (h.get Obj.SB_SUMMARY) m.val)).memberVector m.val
    else h

/-- What the poll finds of a member: pending or not. -/
def Hub.pollMember (h : Hub) (pending : W32) (m : Nat) : Hub :=
  let on := bitOf pending.toNat m && h.get (Obj.MEMBER_UNIT_ID m) != 0
  let h' := h.put Obj.SB_SUMMARY (putBit (h.get Obj.SB_SUMMARY) m on)
  if on && !bitOf h.bridge.messages.toNat m then (h'.memberVector m).bump Obj.SB_LOST else h'

/-- Meaning of SB_POLL: the members' pending state, the state of their root ports, and hubs that have joined or left the tree since
(R23, R24, R88, R132). -/
def execSbPoll (pending : W32) (rps : List (W64 × Fin 2 × Option Bool)) (joined : List JoinIn) (left : List W64) (s : State) :
    Host.Outcome State Fault Refusal :=
  s.run fun h =>
    if h.headsUnit && Nat.ble (h.eff Obj.SB_POLL_PERIOD) h.bridge.sincePoll then
      let h := h.takeUnit .sbPoll fun _ => true
      let h := left.foldl (fun h u => h.leave u.toNat) h
      let h := joined.foldl Hub.join h
      let h := (List.range 31).foldl (fun h i => h.pollMember pending (i + 1)) h
      let h := rps.foldl (fun h r => h.rpChange r.1.toNat r.2.1.val r.2.2) h
      h.setBridge fun b => { b with messages := 0, sincePoll := 0 }
    else h

end Sys2Proof.Machine
end

