-- ==== Sys2Proof/Machine/Rv.lean ====
section
/-! DEFINITION. The instruction set of a Steep engine: RV32IMC with Zicsr and Zifencei, machine mode only (R465). The spec names the
set and gives neither encodings nor meanings: both are PRESUMED from the RISC-V standard (log entry 60). -/

namespace Sys2Proof.Machine

/-- Operations of the integer unit. -/
inductive AluOp where
  | add | sub | sll | slt | sltu | xor | srl | sra | or | and
  | mul | mulh | mulhsu | mulhu | div | divu | rem | remu
  deriving DecidableEq, Repr

/-- Branch conditions. -/
inductive Cond where
  | eq | ne | lt | ge | ltu | geu
  deriving DecidableEq, Repr

/-- What a CSR instruction does with the old value. -/
inductive CsrOp where
  | write | set | clear
  deriving DecidableEq, Repr

/-- An instruction. The widths of loads and stores are in bytes. -/
inductive Rv where
  | lui (rd : Nat) (imm : W32)
  | auipc (rd : Nat) (imm : W32)
  | jal (rd : Nat) (off : W32)
  | jalr (rd rs1 : Nat) (off : W32)
  | branch (c : Cond) (rs1 rs2 : Nat) (off : W32)
  /-- the function code has the width, and in its third bit the zero extension -/
  | load (fn rd rs1 : Nat) (off : W32)
  | store (n rs1 rs2 : Nat) (off : W32)
  | aluImm (op : AluOp) (rd rs1 : Nat) (imm : W32)
  | alu (op : AluOp) (rd rs1 rs2 : Nat)
  | fence
  | ecall
  | ebreak
  | mret
  | wfi
  /-- the source is a register, or an immediate; a source of x0 or 0 does not write under `set` and `clear` -/
  | csr (op : CsrOp) (rd : Nat) (imm : Bool) (src num : Nat)
  deriving DecidableEq, Repr

/-- A number of `n` bits sign-extended. -/
def sext (n v : Nat) : W32 := BitVec.ofInt 32 (signed n v)

/-- The operation of a function code: `alt` is bit 30. -/
def aluBase (f3 : Nat) (alt : Bool) : Option AluOp :=
  match f3, alt with
  | 0, false => some .add | 0, true => some .sub | 1, false => some .sll | 2, false => some .slt | 3, false => some .sltu
  | 4, false => some .xor | 5, false => some .srl | 5, true => some .sra | 6, false => some .or | 7, false => some .and
  | _, _ => none

/-- The operation of the multiply and divide group. -/
def aluMul (f3 : Nat) : Option AluOp :=
  match f3 with
  | 0 => some .mul | 1 => some .mulh | 2 => some .mulhsu | 3 => some .mulhu
  | 4 => some .div | 5 => some .divu | 6 => some .rem | 7 => some .remu
  | _ => none

/-- The condition of a branch. -/
def condOf (f3 : Nat) : Option Cond :=
  match f3 with
  | 0 => some .eq | 1 => some .ne | 4 => some .lt | 5 => some .ge | 6 => some .ltu | 7 => some .geu
  | _ => none

/-- A SYSTEM instruction. -/
def decodeSystem (w f3 rd rs1 : Nat) : Option Rv :=
  let num := w / 2 ^ 20
  match f3 with
  | 0 => if w = 0x00000073 then some .ecall else if w = 0x00100073 then some .ebreak
    else if w = 0x30200073 then some .mret else if w = 0x10500073 then some .wfi else none
  | 1 => some (.csr .write rd false rs1 num)
  | 2 => some (.csr .set rd false rs1 num)
  | 3 => some (.csr .clear rd false rs1 num)
  | 5 => some (.csr .write rd true rs1 num)
  | 6 => some (.csr .set rd true rs1 num)
  | 7 => some (.csr .clear rd true rs1 num)
  | _ => none

/-- A 32-bit instruction. -/
def decode32 (w : Nat) : Option Rv :=
  let rd := field w 11 7
  let f3 := field w 14 12
  let rs1 := field w 19 15
  let rs2 := field w 24 20
  let f7 := field w 31 25
  let immI := sext 12 (field w 31 20)
  let immS := sext 12 (f7 * 32 + rd)
  match field w 6 0 with
  | 0x37 => some (.lui rd (BitVec.ofNat 32 (w / 4096 * 4096)))
  | 0x17 => some (.auipc rd (BitVec.ofNat 32 (w / 4096 * 4096)))
  | 0x6F => some (.jal rd (sext 21 (field w 31 31 * 2 ^ 20 + field w 19 12 * 2 ^ 12 + field w 20 20 * 2 ^ 11 + field w 30 21 * 2)))
  | 0x67 => if f3 = 0 then some (.jalr rd rs1 immI) else none
  | 0x63 => (condOf f3).map fun c =>
      .branch c rs1 rs2 (sext 13 (field w 31 31 * 2 ^ 12 + field w 7 7 * 2 ^ 11 + field w 30 25 * 2 ^ 5 + field w 11 8 * 2))
  | 0x03 => if [0, 1, 2, 4, 5].contains f3 then some (.load f3 rd rs1 immI) else none
  | 0x23 => if f3 ≤ 2 then some (.store (2 ^ f3) rs1 rs2 immS) else none
  | 0x13 =>
    if f3 = 1 then (if f7 = 0 then some (.aluImm .sll rd rs1 (BitVec.ofNat 32 rs2)) else none)
    else if f3 = 5 then
      (if f7 = 0 ∨ f7 = 0x20 then (aluBase 5 (f7 == 0x20)).map fun op => .aluImm op rd rs1 (BitVec.ofNat 32 rs2) else none)
    else (aluBase f3 false).map fun op => .aluImm op rd rs1 immI
  | 0x33 =>
    if f7 = 1 then (aluMul f3).map fun op => .alu op rd rs1 rs2
    else if f7 = 0 ∨ f7 = 0x20 then (aluBase f3 (f7 == 0x20)).map fun op => .alu op rd rs1 rs2
    else none
  | 0x0F => if f3 ≤ 1 then some .fence else none
  | 0x73 => decodeSystem w f3 rd rs1
  | _ => none

/-- The offset of C.J and C.JAL. -/
def offCJ (w : Nat) : W32 :=
  sext 12 (field w 12 12 * 2 ^ 11 + field w 11 11 * 2 ^ 4 + field w 10 9 * 2 ^ 8 + field w 8 8 * 2 ^ 10 + field w 7 7 * 2 ^ 6 +
    field w 6 6 * 2 ^ 7 + field w 5 3 * 2 + field w 2 2 * 2 ^ 5)

/-- The offset of C.BEQZ and C.BNEZ. -/
def offCB (w : Nat) : W32 :=
  sext 9 (field w 12 12 * 2 ^ 8 + field w 11 10 * 2 ^ 3 + field w 6 5 * 2 ^ 6 + field w 4 3 * 2 + field w 2 2 * 2 ^ 5)

/-- Compressed instructions of quadrant 0. -/
def decodeC0 (w : Nat) : Option Rv :=
  let lo := 8 + field w 4 2
  let hi := 8 + field w 9 7
  let offW := BitVec.ofNat 32 (field w 12 10 * 8 + field w 6 6 * 4 + field w 5 5 * 64)
  match field w 15 13 with
  | 0 =>
    let imm := field w 12 11 * 16 + field w 10 7 * 64 + field w 6 6 * 4 + field w 5 5 * 8
    if imm = 0 then none else some (.aluImm .add lo 2 (BitVec.ofNat 32 imm))
  | 2 => some (.load 2 lo hi offW)
  | 6 => some (.store 4 hi lo offW)
  | _ => none

/-- Compressed instructions of quadrant 1. -/
def decodeC1 (w : Nat) : Option Rv :=
  let rd := field w 11 7
  let r := 8 + field w 9 7
  let r2 := 8 + field w 4 2
  let imm6 := field w 12 12 * 32 + field w 6 2
  match field w 15 13 with
  | 0 => some (.aluImm .add rd rd (sext 6 imm6))
  | 1 => some (.jal 1 (offCJ w))
  | 2 => some (.aluImm .add rd 0 (sext 6 imm6))
  | 3 =>
    if rd = 2 then
      let imm := field w 12 12 * 512 + field w 6 6 * 16 + field w 5 5 * 64 + field w 4 3 * 128 + field w 2 2 * 32
      if imm = 0 then none else some (.aluImm .add 2 2 (sext 10 imm))
    else if imm6 = 0 then none else some (.lui rd (sext 6 imm6 <<< 12))
  | 4 =>
    match field w 11 10 with
    | 0 => if field w 12 12 = 0 then some (.aluImm .srl r r (BitVec.ofNat 32 imm6)) else none
    | 1 => if field w 12 12 = 0 then some (.aluImm .sra r r (BitVec.ofNat 32 imm6)) else none
    | 2 => some (.aluImm .and r r (sext 6 imm6))
    | _ =>
      if field w 12 12 = 1 then none
      else match field w 6 5 with
        | 0 => some (.alu .sub r r r2)
        | 1 => some (.alu .xor r r r2)
        | 2 => some (.alu .or r r r2)
        | _ => some (.alu .and r r r2)
  | 5 => some (.jal 0 (offCJ w))
  | 6 => some (.branch .eq r 0 (offCB w))
  | _ => some (.branch .ne r 0 (offCB w))

/-- Compressed instructions of quadrant 2. -/
def decodeC2 (w : Nat) : Option Rv :=
  let rd := field w 11 7
  let rs2 := field w 6 2
  match field w 15 13 with
  | 0 => if field w 12 12 = 0 then some (.aluImm .sll rd rd (BitVec.ofNat 32 rs2)) else none
  | 2 => if rd = 0 then none
    else some (.load 2 rd 2 (BitVec.ofNat 32 (field w 12 12 * 32 + field w 6 4 * 4 + field w 3 2 * 64)))
  | 4 =>
    if field w 12 12 = 0 then
      (if rs2 ≠ 0 then some (.alu .add rd 0 rs2) else if rd = 0 then none else some (.jalr 0 rd 0))
    else if rs2 ≠ 0 then some (.alu .add rd rd rs2)
    else if rd = 0 then some .ebreak
    else some (.jalr 1 rd 0)
  | 6 => some (.store 4 2 rs2 (BitVec.ofNat 32 (field w 12 9 * 4 + field w 8 7 * 64)))
  | _ => none

/-- A 16-bit instruction. -/
def decode16 (w : Nat) : Option Rv :=
  match w % 4 with
  | 0 => decodeC0 w
  | 1 => decodeC1 w
  | 2 => decodeC2 w
  | _ => none

/-- The integer unit. Division by 0 answers all ones or the dividend; the quotient that overflows is the dividend. -/
def aluRun (op : AluOp) (a b : W32) : W32 :=
  let sh := b.toNat % 32
  match op with
  | .add => a + b
  | .sub => a - b
  | .sll => a <<< sh
  | .slt => BitVec.ofNat 32 (b2n (a.slt b))
  | .sltu => BitVec.ofNat 32 (b2n (a.ult b))
  | .xor => a ^^^ b
  | .srl => a >>> sh
  | .sra => a.sshiftRight sh
  | .or => a ||| b
  | .and => a &&& b
  | .mul => a * b
  | .mulh => BitVec.ofInt 32 (a.toInt * b.toInt / 2 ^ 32)
  | .mulhsu => BitVec.ofInt 32 (a.toInt * (b.toNat : Int) / 2 ^ 32)
  | .mulhu => BitVec.ofNat 32 (a.toNat * b.toNat / 2 ^ 32)
  | .div => if b = 0 then 0xFFFFFFFF else BitVec.ofInt 32 (a.toInt.tdiv b.toInt)
  | .divu => if b = 0 then 0xFFFFFFFF else BitVec.ofNat 32 (a.toNat / b.toNat)
  | .rem => if b = 0 then a else BitVec.ofInt 32 (a.toInt.tmod b.toInt)
  | .remu => if b = 0 then a else BitVec.ofNat 32 (a.toNat % b.toNat)

/-- A branch condition. -/
def condRun (c : Cond) (a b : W32) : Bool :=
  match c with
  | .eq => a == b
  | .ne => a != b
  | .lt => a.slt b
  | .ge => !a.slt b
  | .ltu => a.ult b
  | .geu => !a.ult b

/-- A loaded value extended by its function code. -/
def loadExtend (fn v : Nat) : W32 :=
  match fn with
  | 0 => sext 8 v
  | 1 => sext 16 v
  | _ => BitVec.ofNat 32 v

end Sys2Proof.Machine
end

