-- ==== Sys2Proof/Machine/Engine.lean ====
section
/-! DEFINITION. A Steep engine executes one instruction (R465 to R470, R482 to R484): its address map, traps, and control registers. -/

namespace Sys2Proof.Machine

/-! ### Registers -/

/-- A register of an engine; x0 reads 0. -/
def EngSt.reg (s : EngSt) (r : Nat) : W32 := if hr : 1 ≤ r ∧ r ≤ 31 then s.regs[r - 1] else 0

/-- A register written; x0 discards. -/
def EngSt.setReg (s : EngSt) (r : Nat) (v : W32) : EngSt :=
  if hr : 1 ≤ r ∧ r ≤ 31 then { s with regs := s.regs.set (r - 1) v } else s

/-- A register of an engine written. -/
def Hub.setReg (h : Hub) (e : Engine) (r : Nat) (v : W32) : Hub := h.setEng e fun s => s.setReg r v

/-! ### Traps -/

/-- The entry of the trap handler for a cause; vectored for an interrupt when mtvec says so. -/
def trapTarget (mtvec : W32) (irq : Bool) (code : Nat) : W32 :=
  let base := mtvec &&& 0xFFFFFFFC
  if irq && mtvec.getLsbD 0 then base + BitVec.ofNat 32 (4 * code) else base

/-- A trap is taken: the pc and the cause are saved, interrupts are disabled, the pc goes to the handler. -/
def EngSt.trap (s : EngSt) (pc : W32) (irq : Bool) (code : Nat) (tval : W32) : EngSt :=
  { s with mepc := pc, mcause := BitVec.ofNat 32 (code + (if irq then 2 ^ 31 else 0)), mtval := tval, mpie := s.mie_, mie_ := false,
           pc := trapTarget s.mtvec irq code }

/-- An exception of the instruction that began in state `s0`: the trap, or with MIE 0 and an access fault the engine's fault (R484). -/
def Hub.rvTrap (h : Hub) (e : Engine) (s0 : EngSt) (code : Nat) (tval : W32) : Hub :=
  if s0.mie_ = false ∧ (code = 1 ∨ code = 5 ∨ code = 7) then
    (h.setEng e fun s => { s.trap s0.pc false code tval with pc := s0.pc, minstret := s0.minstret }).engFault e code
  else h.setEng e fun s => { s.trap s0.pc false code tval with minstret := s0.minstret }

/-! ### Address map (R466) -/

/-- The ranges of the map. -/
inductive Range where
  | tcm | sram | objects | aperture | regs
  | ecam (port : Fin 2)
  | below (port : Fin 2)
  | none
  deriving DecidableEq, Repr

/-- The range of an address. -/
def rangeOf (a : Nat) : Range :=
  if a < 0x10000 then .tcm
  else if 0x10000000 ≤ a ∧ a < 0x10080000 then .sram
  else if 0x20000000 ≤ a ∧ a < 0x24000000 then .objects
  else if 0x30000000 ≤ a ∧ a < 0x40000000 then .aperture
  else if 0x40000000 ≤ a ∧ a < 0x40000100 then .regs
  else if 0x80000000 ≤ a ∧ a < 0x90000000 then .ecam 0
  else if 0x90000000 ≤ a ∧ a < 0xA0000000 then .ecam 1
  else if 0xA0000000 ≤ a ∧ a < 0xB0000000 then .below 0
  else if 0xB0000000 ≤ a ∧ a < 0xC0000000 then .below 1
  else .none

/-- A refused access of a sandbox engine is a rights violation (R483); with the fault of the access. -/
def Hub.refuse (h : Hub) (e : Engine) : Hub := if h.sandboxed e.val then h.freeze (.se e) 4 else h

/-- The result of an object or window access that did not end OK recorded and counted (R468, R469). -/
def Hub.badAccess (h : Hub) (e : Engine) (code : Nat) : Hub :=
  (h.setEng e fun s => { s with lastResult := BitVec.ofNat 8 code }).bump (Obj.ACCESS_FAULTS e.val)

/-- The index lies in a range of the sandbox engine, for writing in a writable one. -/
def Hub.inSandbox (h : Hub) (e : Nat) (idx : Nat) (write : Bool) : Bool :=
  (List.range 8).any fun r =>
    let v := h.eff (Obj.SBX_RANGE (e - 10) r)
    Nat.ble (v % 65536) idx && Nat.ble idx (v / 65536) && (!write || bitOf (h.eff (Obj.SBX_WRITE (e - 10))) r)

/-- A sandbox engine reaches the object (R482). -/
def Hub.sandboxMay (h : Hub) (e : Nat) (off : Nat) (write : Bool) : Bool :=
  let idx := off / 1024
  let sub := off % 1024 / 4
  let k := 256 * idx + sub
  let safety := match rowOf ((wideOf k).getD k) with
    | some r => r.safety
    | none => false
  !(write && safety) &&
    (idx == 0x2410 + e || idx == 0x2440 + e || idx == 0x2320 + e || (idx == 0x1000 && Nat.ble 1 sub && Nat.ble sub 9) ||
      h.inSandbox e idx write)

/-! ### Engine-local registers (R468) -/

/-- A read of an engine-local register. -/
def Hub.localRead (h : Hub) (e : Engine) (off : Nat) : W32 × Hub :=
  let s := h.engs[e]
  match off with
  | 0x00 => (BitVec.ofNat 32 h.now, h.setEng e fun s => { s with timeHi := BitVec.ofNat 32 (h.now / 2 ^ 32) })
  | 0x04 => (s.timeHi, h)
  | 0x08 => (s.mtimecmp.extractLsb' 0 32, h)
  | 0x0C => (s.mtimecmp.extractLsb' 32 32, h)
  | 0x10 => (BitVec.ofNat 32 h.time32, h)
  | 0x14 => (s.lastResult.setWidth 32, h.setEng e fun s => { s with lastResult := 0 })
  | _ => (BitVec.ofNat 32 (h.free 32), h.used)

/-- A write of MTIMECMP, and what the timer interrupt is then. -/
def Hub.setCmp (h : Hub) (e : Engine) (v : W64) : Hub :=
  h.setEng e fun s => { s with mtimecmp := v, mtip := Nat.ble v.toNat h.now }

/-- A write of an engine-local register; the others discard it. -/
def Hub.localWrite (h : Hub) (e : Engine) (off : Nat) (v : W32) : Hub :=
  let c := (h.engs[e]).mtimecmp
  match off with
  | 0x08 => h.setCmp e (c.extractLsb' 32 32 ++ v)
  | 0x0C => h.setCmp e (v ++ c.extractLsb' 0 32)
  | _ => h

/-! ### Loads and stores -/

/-- An access to a memory that may lie across its alignment (log entry 60). -/
def memAligned (a n : Nat) : Bool := a % n == 0 || Config.engineMisaligned

/-- The PCIe address of an access in a range below a root port. -/
def Hub.belowAddr (h : Hub) (port : Fin 2) (off : Nat) : W64 :=
  BitVec.ofNat 64 (h.eff (if port = 0 then Obj.RC_MEM_BASE_P0 else Obj.RC_MEM_BASE_P1) + off)

/-- A load that waits for, or has, the answer of the bridge: it ends at its answer. -/
def Hub.loadEnd (h : Hub) (e : Engine) (s0 : EngSt) : Hub :=
  match (h.engs[e]).stall with
  | none => h
  | some l =>
    match l.answer with
    | none => h.setEng e fun s => { s with pc := s0.pc, minstret := s0.minstret }
    | some (code, v) =>
      let h := h.setEng e fun s => { s with stall := none }
      if code = rcOk then h.setReg e l.rd (loadExtend l.fn v.toNat)
      else
        let h := if code = rcDomainOff then h.setReg e l.rd 0 else h
        (h.badAccess e code).rvTrap e s0 5 l.addr

/-- A load below a root port: the completion comes as an operand; none by the timeout is a fault (R467). -/
def Hub.rootLoad (h : Hub) (e : Engine) (s0 : EngSt) (port : Fin 2) (cfg : Bool) (addr : W64) (a : W32) (fn rd n : Nat)
    (below : Option W32) : Hub :=
  if h.sandboxed e.val ∨ !h.engineOwned port then (h.refuse e).rvTrap e s0 5 a
  else if !memAligned a.toNat n then h.rvTrap e s0 4 a
  else
    let h := h.emit (.rootPort port cfg false addr n 0)
    match below with
    | some v => h.setReg e rd (loadExtend fn (v.toNat % 2 ^ (8 * n)))
    | none => h.rvTrap e s0 5 a

/-- A load of an engine, its pc already past the instruction. -/
def Hub.rvLoad (h : Hub) (e : Engine) (s0 : EngSt) (fn rd : Nat) (a : W32) (len : Nat) (below : Option W32) : Hub :=
  let n := 2 ^ (fn % 4)
  let x := a.toNat
  match rangeOf x with
  | .tcm =>
    if !memAligned x n then h.rvTrap e s0 4 a
    else if 0x10000 < x + n then h.rvTrap e s0 5 a
    else h.setReg e rd (loadExtend fn (ofLE (h.memRead (tcmAddr e x) n)))
  | .sram =>
    if h.sandboxed e.val then (h.refuse e).rvTrap e s0 5 a
    else if !memAligned x n then h.rvTrap e s0 4 a
    else if 0x10080000 < x + n then h.rvTrap e s0 5 a
    else h.setReg e rd (loadExtend fn (ofLE (h.memRead (sramAddr (x - 0x10000000)) n)))
  | .objects =>
    let off := x - 0x20000000
    if h.sandboxed e.val && !h.frozen (.se e) && !h.sandboxMay e.val off false then ((h.refuse e).badAccess e rcFrozen).rvTrap e s0 5 a
    else if h.originBusy (.se e) then h.setEng e fun s => { s with pc := s0.pc, minstret := s0.minstret }
    else
      let (c, v, h) := h.readView (.se e) off n
      (h.setEng e fun s => { s with stall := some ⟨rd, fn, a, len, some (c, BitVec.ofNat 32 v)⟩ }).loadEnd e s0
  | .aperture =>
    if h.sandboxed e.val then ((h.refuse e).badAccess e rcFrozen).rvTrap e s0 5 a
    else
      let h := h.setEng e fun s => { s with stall := some ⟨rd, fn, a, len, none⟩ }
      (h.access (.se e) x true (x - 0x30000000) n false 0).loadEnd e s0
  | .regs =>
    if n ≠ 4 ∨ x % 4 ≠ 0 then h.rvTrap e s0 5 a
    else
      let (v, h) := h.localRead e (x - 0x40000000)
      h.setReg e rd v
  | .ecam p => h.rootLoad e s0 p true (BitVec.ofNat 64 (x % 2 ^ 28)) a fn rd n below
  | .below p => h.rootLoad e s0 p false (h.belowAddr p (x % 2 ^ 28)) a fn rd n below
  | .none => h.rvTrap e s0 5 a

/-- A store whose failure is known faults; one that fails later faults the engine then (R467, R469). -/
def Hub.storeEnd' (h : Hub) (e : Engine) (s0 : EngSt) : Hub :=
  match (h.engs[e]).late with
  | none => h
  | some (c, a) => ((h.setEng e fun s => { s with late := none }).badAccess e c).rvTrap e s0 7 a

/-- A posted store below a root port. -/
def Hub.rootStore (h : Hub) (e : Engine) (s0 : EngSt) (port : Fin 2) (cfg : Bool) (addr : W64) (a : W32) (n : Nat) (v : W32) : Hub :=
  if h.sandboxed e.val ∨ !h.engineOwned port then (h.refuse e).rvTrap e s0 7 a
  else if !memAligned a.toNat n then h.rvTrap e s0 6 a
  else h.emit (.rootPort port cfg true addr n v)

/-- Four stores of the engine are outstanding (R467). -/
def Hub.storesFull (h : Hub) (e : Engine) : Bool :=
  Nat.ble 4 (((h.bridge.remote ++ h.bridge.held).filter fun x => x.origin == .se e && x.write && !x.posted).length +
    ((h.bridge.queue ++ h.bridge.waits).filter fun x => x.origin == .se e && x.write).length)

/-- A store of an engine, its pc already past the instruction. -/
def Hub.rvStore (h : Hub) (e : Engine) (s0 : EngSt) (n : Nat) (a v : W32) : Hub :=
  let x := a.toNat
  let v := BitVec.ofNat 32 (v.toNat % 2 ^ (8 * n))
  match rangeOf x with
  | .tcm =>
    if !memAligned x n then h.rvTrap e s0 6 a
    else if 0x10000 < x + n then h.rvTrap e s0 7 a
    else h.memWrite (tcmAddr e x) (toLE n v.toNat)
  | .sram => (h.refuse e).rvTrap e s0 7 a
  | .objects =>
    let off := x - 0x20000000
    if h.sandboxed e.val && !h.frozen (.se e) && !h.sandboxMay e.val off true then ((h.refuse e).badAccess e rcFrozen).rvTrap e s0 7 a
    else if h.originBusy (.se e) then h.setEng e fun s => { s with pc := s0.pc, minstret := s0.minstret }
    else
      let (c, h) := h.writeView (.se e) off n v
      if c = rcOk then h else (h.badAccess e c).rvTrap e s0 7 a
  | .aperture =>
    if h.sandboxed e.val then ((h.refuse e).badAccess e rcFrozen).rvTrap e s0 7 a
    else if h.storesFull e then h.setEng e fun s => { s with pc := s0.pc, minstret := s0.minstret }
    else (h.access (.se e) x true (x - 0x30000000) n true v).storeEnd' e s0
  | .regs => if n ≠ 4 ∨ x % 4 ≠ 0 then h.rvTrap e s0 7 a else h.localWrite e (x - 0x40000000) v
  | .ecam p => h.rootStore e s0 p true (BitVec.ofNat 64 (x % 2 ^ 28)) a n v
  | .below p => h.rootStore e s0 p false (h.belowAddr p (x % 2 ^ 28)) a n v
  | .none => h.rvTrap e s0 7 a

/-! ### Control and status registers -/

/-- A control register of an engine: its value, and the hub where reading takes a free value; none where there is no such register. -/
def Hub.csrRead (h : Hub) (e : Engine) (num : Nat) : Option (W32 × Hub) :=
  let s := h.engs[e]
  let ok := fun (v : W32) => some (v, h)
  match num with
  | 0x300 => ok (BitVec.ofNat 32 (0x1800 + 8 * b2n s.mie_ + 128 * b2n s.mpie))
  | 0x301 => ok 0x40001104
  | 0x304 => ok s.mie
  | 0x305 => ok s.mtvec
  | 0x310 => ok 0
  | 0x320 => ok 0
  | 0x340 => ok s.mscratch
  | 0x341 => ok s.mepc
  | 0x342 => ok s.mcause
  | 0x343 => ok s.mtval
  | 0x344 => ok (BitVec.ofNat 32 (128 * b2n s.mtip + 2048 * b2n ((List.range 192).any (h.deliverable e.val))))
  | 0xB02 => ok (s.minstret.extractLsb' 0 32)
  | 0xB82 => ok (s.minstret.extractLsb' 32 32)
  | 0xB00 => some (BitVec.ofNat 32 (h.free 32), h.used)
  | 0xB80 => some (BitVec.ofNat 32 (h.free 32), h.used)
  | _ =>
    if (0xB03 ≤ num ∧ num ≤ 0xB1F) ∨ (0xB83 ≤ num ∧ num ≤ 0xB9F) ∨ (0x323 ≤ num ∧ num ≤ 0x33F) then ok 0
    else if 0xF11 ≤ num ∧ num ≤ 0xF15 then ok (Config.engineId num e.val)
    else none

/-- A control register written; the fields that have no storage keep their value. -/
def EngSt.csrWrite (s : EngSt) (num : Nat) (v : W32) : EngSt :=
  match num with
  | 0x300 => { s with mie_ := v.getLsbD 3, mpie := v.getLsbD 7 }
  | 0x304 => { s with mie := v &&& 0x888 }
  | 0x305 => { s with mtvec := v &&& 0xFFFFFFFD }
  | 0x340 => { s with mscratch := v }
  | 0x341 => { s with mepc := v &&& 0xFFFFFFFE }
  | 0x342 => { s with mcause := v }
  | 0x343 => { s with mtval := v }
  | 0xB02 => { s with minstret := s.minstret.extractLsb' 32 32 ++ v }
  | 0xB82 => { s with minstret := v ++ s.minstret.extractLsb' 0 32 }
  | _ => s

/-- A CSR instruction: the old value to the register; a write of a read-only register, or a register that is not there, is illegal. -/
def Hub.rvCsr (h : Hub) (e : Engine) (s0 : EngSt) (op : CsrOp) (rd : Nat) (imm : Bool) (src num : Nat) (word : W32) : Hub :=
  let writes := op == .write || src != 0
  match h.icLevels.csrRead e num with
  | none => h.rvTrap e s0 2 word
  | some (old, h') =>
    if writes && Nat.ble 0xC00 num then h.rvTrap e s0 2 word
    else
      let v := if imm then BitVec.ofNat 32 src else s0.reg src
      let new := match op with
        | .write => v
        | .set => old ||| v
        | .clear => old &&& ~~~v
      h'.setEng e fun s => (if writes then s.csrWrite num new else s).setReg rd old

/-! ### One instruction -/

/-- An engine may fetch `2` bytes at the address. -/
def Hub.fetchable (h : Hub) (e : Engine) (a : Nat) : Bool :=
  match rangeOf a with
  | .tcm => true
  | .sram => !h.sandboxed e.val
  | _ => false

/-- Two bytes of an instruction. -/
def Hub.fetchHalf (h : Hub) (e : Engine) (a : W32) : Nat :=
  if a.toNat < 0x10000 then ofLE (h.memRead (tcmAddr e a.toNat) 2) else ofLE (h.memRead (sramAddr (a.toNat - 0x10000000)) 2)

/-- A refused fetch: an access fault, and a rights violation of a sandbox engine where R466 lists the address. -/
def Hub.fetchFault (h : Hub) (e : Engine) (s0 : EngSt) (a : W32) : Hub :=
  (if rangeOf a.toNat = .none then h else h.refuse e).rvTrap e s0 1 a

/-- The meaning of a decoded instruction of a length, the pc already past it. -/
def Hub.rvExec (h : Hub) (e : Engine) (s0 : EngSt) (i : Rv) (len : Nat) (word : W32) (below : Option W32) : Hub :=
  let next := s0.pc + BitVec.ofNat 32 len
  let jump := fun (h : Hub) (a : W32) => h.setEng e fun s => { s with pc := a }
  match i with
  | .lui rd imm => h.setReg e rd imm
  | .auipc rd imm => h.setReg e rd (s0.pc + imm)
  | .jal rd off => jump (h.setReg e rd next) (s0.pc + off)
  | .jalr rd rs1 off => jump (h.setReg e rd next) ((s0.reg rs1 + off) &&& 0xFFFFFFFE)
  | .branch c rs1 rs2 off => if condRun c (s0.reg rs1) (s0.reg rs2) then jump h (s0.pc + off) else h
  | .load fn rd rs1 off => h.rvLoad e s0 fn rd (s0.reg rs1 + off) len below
  | .store n rs1 rs2 off => h.rvStore e s0 n (s0.reg rs1 + off) (s0.reg rs2)
  | .aluImm op rd rs1 imm => h.setReg e rd (aluRun op (s0.reg rs1) imm)
  | .alu op rd rs1 rs2 => h.setReg e rd (aluRun op (s0.reg rs1) (s0.reg rs2))
  | .fence => h
  | .ecall => h.rvTrap e s0 11 0
  | .ebreak => h.rvTrap e s0 3 s0.pc
  | .mret => h.setEng e fun s => { s with pc := s.mepc, mie_ := s.mpie, mpie := true }
  | .wfi => h.engSleep e
  | .csr op rd imm src num => h.rvCsr e s0 op rd imm src num word

/-- One instruction fetched, decoded and executed. -/
def Hub.rvStep (h : Hub) (e : Engine) (below : Option W32) : Hub :=
  let s0 := h.engs[e]
  if !h.fetchable e s0.pc.toNat then h.fetchFault e s0 s0.pc
  else
    let lo := h.fetchHalf e s0.pc
    let go := fun (h : Hub) (i : Option Rv) (len word : Nat) => match i with
      | none => h.rvTrap e s0 2 (BitVec.ofNat 32 word)
      | some i => (h.setEng e fun s => { s with pc := s0.pc + BitVec.ofNat 32 len, minstret := s0.minstret + 1 }).rvExec e s0 i len
          (BitVec.ofNat 32 word) below
    if lo % 4 ≠ 3 then go h (decode16 lo) 2 lo
    else
      let a2 := s0.pc + 2
      if !h.fetchable e a2.toNat then h.fetchFault e s0 a2
      else
        let w := lo + 65536 * h.fetchHalf e a2
        go h (decode32 w) 4 w

/-- The interrupt an engine takes now: external before timer. -/
def Hub.rvIrq (h : Hub) (e : Engine) : Option Nat :=
  let s := h.engs[e]
  if !s.mie_ then none
  else if s.mie.getLsbD 11 && (List.range 192).any (h.deliverable e.val) then some 11
  else if s.mie.getLsbD 7 && s.mtip then some 7
  else none

/-- The next thing an engine does: the end of a load it stalls on, a fault of an earlier store, an interrupt, or an instruction. -/
def Hub.engineNext (h : Hub) (e : Engine) (below : Option W32) : Hub :=
  let h := (h.setEng e fun s => { s with mtip := Nat.ble s.mtimecmp.toNat h.now }).icLevels
  let s0 := h.engs[e]
  match s0.stall with
  | some l => (h.setEng e fun s => { s with pc := s0.pc + BitVec.ofNat 32 l.len, minstret := s0.minstret + 1 }).loadEnd e s0
  | none =>
    if s0.late.isSome then h.storeEnd' e s0
    else match h.rvIrq e with
      | some c => h.setEng e fun s => s.trap s.pc true c 0
      | none => h.rvStep e below

/-- An uncorrectable ECC error at a fetch or load: in the engine's TCM, or in the shared SRAM (R484, R628). -/
def Hub.engineEcc (h : Hub) (e : Engine) (memory : Nat) : Hub :=
  ((h.engFault e 0x101).bump (Obj.ENG_ECC_UNCORRECTABLE e.val)).eccFault memory

/-- Meaning of ENGINE_INSTRUCTION: a running engine does its next instruction. `ecc` is what its memories answer: 1 a corrected error,
2 an uncorrectable one of its TCM, 3 one of the shared SRAM; `below` the completion of a load below a root port. -/
def execEngineInstruction (e : Engine) (ecc : Fin 4) (below : Option W32) (s : State) : Host.Outcome State Fault Refusal :=
  s.run fun h =>
    let st := h.get (Obj.ENG_STATE e.val)
    if (st = 2 ∨ st = 6) ∧ !(h.engs[e]).asleep ∧ h.domOn (4 + e.val) then
      if ecc = 2 then h.engineEcc e (0x10 + e.val)
      else if ecc = 3 then h.engineEcc e 5
      else (if ecc = 1 then h.bump (Obj.ENG_ECC_CORRECTED e.val) else h).engineNext e below
    else h

end Sys2Proof.Machine
end

