-- ==== Sys2Proof/Machine/Dispatch.lean ====
section
/-! DEFINITION. The meaning of each command: one arm per constructor, each one direct call. -/

namespace Sys2Proof.Machine

def exec (i : Instr) (s : State) : Host.Outcome State Fault Refusal :=
  match i with
  | .pornRelease testen => Sys2Proof.Machine.execPornRelease testen s
  | .rstnAssert => Sys2Proof.Machine.execRstnAssert s
  | .rstnRelease => Sys2Proof.Machine.execRstnRelease s
  | .vddAonUndervoltageReset => Sys2Proof.Machine.execVddAonUndervoltageReset s
  | .strapSample balls => Sys2Proof.Machine.execStrapSample balls s
  | .startupSelftestComplete fail => Sys2Proof.Machine.execStartupSelftestComplete fail s
  | .jtagBypass => Sys2Proof.Machine.execJtagBypass s
  | .jtagIdcode => Sys2Proof.Machine.execJtagIdcode s
  | .jtagSamplePreload pins chain => Sys2Proof.Machine.execJtagSamplePreload pins chain s
  | .jtagExtest pins => Sys2Proof.Machine.execJtagExtest pins s
  | .objectWrite o k v => Sys2Proof.Machine.execObjectWrite o k v s
  | .readClearObjectRead o k => Sys2Proof.Machine.execReadClearObjectRead o k s
  | .mmioLowWordRead o k => Sys2Proof.Machine.execMmioLowWordRead o k s
  | .mmioLowWordWrite o k v => Sys2Proof.Machine.execMmioLowWordWrite o k v s
  | .mmioHighWordWrite o k v => Sys2Proof.Machine.execMmioHighWordWrite o k v s
  | .storeCmd o v => Sys2Proof.Machine.execStoreCmd o v s
  | .restoreCmd o v => Sys2Proof.Machine.execRestoreCmd o v s
  | .storeComplete fault => Sys2Proof.Machine.execStoreComplete fault s
  | .groupStageWrite o k v => Sys2Proof.Machine.execGroupStageWrite o k v s
  | .groupCommit o v => Sys2Proof.Machine.execGroupCommit o v s
  | .groupAbort o v => Sys2Proof.Machine.execGroupAbort o v s
  | .groupExpired leader => Sys2Proof.Machine.execGroupExpired leader s
  | .segOpenRead ch o => Sys2Proof.Machine.execSegOpenRead ch o s
  | .segOpenWrite ch o => Sys2Proof.Machine.execSegOpenWrite ch o s
  | .segCloseApply ch o => Sys2Proof.Machine.execSegCloseApply ch o s
  | .segAbort ch o => Sys2Proof.Machine.execSegAbort ch o s
  | .segDataLastRead ch o => Sys2Proof.Machine.execSegDataLastRead ch o s
  | .segDataLastWrite ch o v => Sys2Proof.Machine.execSegDataLastWrite ch o v s
  | .segmentExpired ch => Sys2Proof.Machine.execSegmentExpired ch s
  | .hopFrameRx src frame => Sys2Proof.Machine.execHopFrameRx src frame s
  | .hopRead slot k n => Sys2Proof.Machine.execHopRead slot k n s
  | .hopWrite slot k data => Sys2Proof.Machine.execHopWrite slot k data s
  | .hopCommit slot k => Sys2Proof.Machine.execHopCommit slot k s
  | .hopStore slot => Sys2Proof.Machine.execHopStore slot s
  | .hopSubscribe slot src path k period => Sys2Proof.Machine.execHopSubscribe slot src path k period s
  | .hopNotify id => Sys2Proof.Machine.execHopNotify id s
  | .hopResponseRx p frame => Sys2Proof.Machine.execHopResponseRx p frame s
  | .hopFwdTimeout id => Sys2Proof.Machine.execHopFwdTimeout id s
  | .windowRead bar2 off n contends => Sys2Proof.Machine.execWindowRead bar2 off n contends s
  | .windowWrite bar2 off n v contends => Sys2Proof.Machine.execWindowWrite bar2 off n v contends s
  | .prefetchIdleTimeout w => Sys2Proof.Machine.execPrefetchIdleTimeout w s
  | .remoteBridgeRequestRx unit mp id write target off n v fill => Sys2Proof.Machine.execRemoteBridgeRequestRx unit mp id write target off n v fill s
  | .remoteResultRx id code data => Sys2Proof.Machine.execRemoteResultRx id code data s
  | .remoteTimeout id => Sys2Proof.Machine.execRemoteTimeout id s
  | .npRetryReissue id => Sys2Proof.Machine.execNpRetryReissue id s
  | .mpRead phase contends => Sys2Proof.Machine.execMpRead phase contends s
  | .mpWrite phase v contends => Sys2Proof.Machine.execMpWrite phase v contends s
  | .memberIrqMessageRx m => Sys2Proof.Machine.execMemberIrqMessageRx m s
  | .sbPoll pending rps joined left => Sys2Proof.Machine.execSbPoll pending rps joined left s
  | .trainingStart p => Sys2Proof.Machine.execTrainingStart p s
  | .trainingFrameRx p t => Sys2Proof.Machine.execTrainingFrameRx p t s
  | .trainingFaultTimeout p => Sys2Proof.Machine.execTrainingFaultTimeout p s
  | .pathWaitExpired => Sys2Proof.Machine.execPathWaitExpired s
  | .backoffWaitExpiry p => Sys2Proof.Machine.execBackoffWaitExpiry p s
  | .retrainCmd o p v => Sys2Proof.Machine.execRetrainCmd o p v s
  | .refPllLock p => Sys2Proof.Machine.execRefPllLock p s
  | .refRelock p => Sys2Proof.Machine.execRefRelock p s
  | .codewordRx p l symbols => Sys2Proof.Machine.execCodewordRx p l symbols s
  | .fecDegraded p l => Sys2Proof.Machine.execFecDegraded p l s
  | .markerRx p l block off => Sys2Proof.Machine.execMarkerRx p l block off s
  | .markerMissed p l => Sys2Proof.Machine.execMarkerMissed p l s
  | .alignmentLoss p l phase => Sys2Proof.Machine.execAlignmentLoss p l phase s
  | .cellRx p cell => Sys2Proof.Machine.execCellRx p cell s
  | .noSignal p l => Sys2Proof.Machine.execNoSignal p l s
  | .controlCellTimeout p => Sys2Proof.Machine.execControlCellTimeout p s
  | .retrainCellRx p content => Sys2Proof.Machine.execRetrainCellRx p content s
  | .singleLaneRetrainStart p l => Sys2Proof.Machine.execSingleLaneRetrainStart p l s
  | .eqBackchannelRx p content => Sys2Proof.Machine.execEqBackchannelRx p content s
  | .singleLaneRetrainEnd p l pass skew rx => Sys2Proof.Machine.execSingleLaneRetrainEnd p l pass skew rx s
  | .ctleAdaptStep p l move taps slice => Sys2Proof.Machine.execCtleAdaptStep p l move taps slice s
  | .testModeInService o p => Sys2Proof.Machine.execTestModeInService o p s
  | .testModeSerialLoop o p => Sys2Proof.Machine.execTestModeSerialLoop o p s
  | .testModeParallelLoop o p => Sys2Proof.Machine.execTestModeParallelLoop o p s
  | .testModeFarLoop o p honoured => Sys2Proof.Machine.execTestModeFarLoop o p honoured s
  | .farLoopRequestRx p content => Sys2Proof.Machine.execFarLoopRequestRx p content s
  | .farLoopTimeout p => Sys2Proof.Machine.execFarLoopTimeout p s
  | .tstStart o p l => Sys2Proof.Machine.execTstStart o p l s
  | .tstStop o p l => Sys2Proof.Machine.execTstStop o p l s
  | .tstInjectError o p l => Sys2Proof.Machine.execTstInjectError o p l s
  | .eyeScanStart o p l => Sys2Proof.Machine.execEyeScanStart o p l s
  | .eyeScanAbort o p l => Sys2Proof.Machine.execEyeScanAbort o p l s
  | .eyePointDone p l count => Sys2Proof.Machine.execEyePointDone p l count s
  | .epochBoundary => Sys2Proof.Machine.execEpochBoundary s
  | .turnaroundFailed p l => Sys2Proof.Machine.execTurnaroundFailed p l s
  | .rootEpochControlSend p => Sys2Proof.Machine.execRootEpochControlSend p s
  | .epochControlRx p content => Sys2Proof.Machine.execEpochControlRx p content s
  | .reportMissing p => Sys2Proof.Machine.execReportMissing p s
  | .planChoice o p v => Sys2Proof.Machine.execPlanChoice o p v s
  | .planLate p => Sys2Proof.Machine.execPlanLate p s
  | .swapCmd o p v => Sys2Proof.Machine.execSwapCmd o p v s
  | .swapHoldExpiry p => Sys2Proof.Machine.execSwapHoldExpiry p s
  | .swapRequestRx p content => Sys2Proof.Machine.execSwapRequestRx p content s
  | .swapAcceptRx p content => Sys2Proof.Machine.execSwapAcceptRx p content s
  | .swapRefuseRx p content => Sys2Proof.Machine.execSwapRefuseRx p content s
  | .swapNoReply p => Sys2Proof.Machine.execSwapNoReply p s
  | .phaseChange o p v => Sys2Proof.Machine.execPhaseChange o p v s
  | .phaseIntervalExpiry p => Sys2Proof.Machine.execPhaseIntervalExpiry p s
  | .keyPhaseAnnounceRx p content => Sys2Proof.Machine.execKeyPhaseAnnounceRx p content s
  | .cellIngress ing cell => Sys2Proof.Machine.execCellIngress ing cell s
  | .spillReadback => Sys2Proof.Machine.execSpillReadback s
  | .blendSlot p l ecc => Sys2Proof.Machine.execBlendSlot p l ecc s
  | .tunFloorWrite o t v => Sys2Proof.Machine.execTunFloorWrite o t v s
  | .gateCycleStart p => Sys2Proof.Machine.execGateCycleStart p s
  | .gateEntryChange p => Sys2Proof.Machine.execGateEntryChange p s
  | .pcieTlpIngress port tlp => Sys2Proof.Machine.execPcieTlpIngress port tlp s
  | .pcieTlpEgress port t cells => Sys2Proof.Machine.execPcieTlpEgress port t cells s
  | .fenceRelease t => Sys2Proof.Machine.execFenceRelease t s
  | .creditCellRx port t content => Sys2Proof.Machine.execCreditCellRx port t content s
  | .creditCellSend t => Sys2Proof.Machine.execCreditCellSend t s
  | .pcieResetMessageRx port t content => Sys2Proof.Machine.execPcieResetMessageRx port t content s
  | .upstreamReset port fundamental => Sys2Proof.Machine.execUpstreamReset port fundamental s
  | .upstreamLinkUp port speed width => Sys2Proof.Machine.execUpstreamLinkUp port speed width s
  | .pcieDlChange unit port link speed width => Sys2Proof.Machine.execPcieDlChange unit port link speed width s
  | .npTimeout id => Sys2Proof.Machine.execNpTimeout id s
  | .completionRx key status final data => Sys2Proof.Machine.execCompletionRx key status final data s
  | .dmaTailWrite o ch v => Sys2Proof.Machine.execDmaTailWrite o ch v s
  | .dmaDescriptorFetch ch => Sys2Proof.Machine.execDmaDescriptorFetch ch s
  | .dmaFault ch => Sys2Proof.Machine.execDmaFault ch s
  | .csiFrameStart c vc k num => Sys2Proof.Machine.execCsiFrameStart c vc k num s
  | .csiLinePacket c vc k dt data crcOk => Sys2Proof.Machine.execCsiLinePacket c vc k dt data crcOk s
  | .csiFrameEnd c vc k => Sys2Proof.Machine.execCsiFrameEnd c vc k s
  | .feTimeout st => Sys2Proof.Machine.execFeTimeout st s
  | .trigGroupApply t => Sys2Proof.Machine.execTrigGroupApply t s
  | .triggerEdge t => Sys2Proof.Machine.execTriggerEdge t s
  | .triggerPulseEnd t => Sys2Proof.Machine.execTriggerPulseEnd t s
  | .hpdLongPulse p high => Sys2Proof.Machine.execHpdLongPulse p high s
  | .irqHpd p lost => Sys2Proof.Machine.execIrqHpd p lost s
  | .dispEnableWrite o p v => Sys2Proof.Machine.execDispEnableWrite o p v s
  | .edpHpdTimeout => Sys2Proof.Machine.execEdpHpdTimeout s
  | .edpBacklightTimer => Sys2Proof.Machine.execEdpBacklightTimer s
  | .updateRecordRx t rec_ => Sys2Proof.Machine.execUpdateRecordRx t rec_ s
  | .flipCmd o q v => Sys2Proof.Machine.execFlipCmd o q v s
  | .commitWindowOpen p => Sys2Proof.Machine.execCommitWindowOpen p s
  | .flipCarryEnd q => Sys2Proof.Machine.execFlipCarryEnd q s
  | .dispUnderrun p line x => Sys2Proof.Machine.execDispUnderrun p line x s
  | .srEntryReport p => Sys2Proof.Machine.execSrEntryReport p s
  | .srEntryFailed p => Sys2Proof.Machine.execSrEntryFailed p s
  | .srUpdateFrameSent p => Sys2Proof.Machine.execSrUpdateFrameSent p s
  | .srExitComplete p => Sys2Proof.Machine.execSrExitComplete p s
  | .ethFrameRx e fcsOk frame ptp => Sys2Proof.Machine.execEthFrameRx e fcsOk frame ptp s
  | .ethEgressReassembly e cell => Sys2Proof.Machine.execEthEgressReassembly e cell s
  | .mdioRead o e v => Sys2Proof.Machine.execMdioRead o e v s
  | .mdioWrite o e v => Sys2Proof.Machine.execMdioWrite o e v s
  | .gptpSample o v slave => Sys2Proof.Machine.execGptpSample o v slave s
  | .timeCounterStart => Sys2Proof.Machine.execTimeCounterStart s
  | .timeLatchRead o => Sys2Proof.Machine.execTimeLatchRead o s
  | .timeExchangeSend p => Sys2Proof.Machine.execTimeExchangeSend p s
  | .timeExchangeRx p content sent => Sys2Proof.Machine.execTimeExchangeRx p content sent s
  | .servoSampleTimeout => Sys2Proof.Machine.execServoSampleTimeout s
  | .servoHoldoverLimit => Sys2Proof.Machine.execServoHoldoverLimit s
  | .ppsOutEdge => Sys2Proof.Machine.execPpsOutEdge s
  | .ppsInEdge => Sys2Proof.Machine.execPpsInEdge s
  | .etsConfigChange e => Sys2Proof.Machine.execEtsConfigChange e s
  | .etsGateEntryChange e => Sys2Proof.Machine.execEtsGateEntryChange e s
  | .motionCycleStart => Sys2Proof.Machine.execMotionCycleStart s
  | .commandDue => Sys2Proof.Machine.execCommandDue s
  | .axlLinkStart n => Sys2Proof.Machine.execAxlLinkStart n s
  | .axlResponseFrameRx n slot late frame => Sys2Proof.Machine.execAxlResponseFrameRx n slot late frame s
  | .responseCellPresent n => Sys2Proof.Machine.execResponseCellPresent n s
  | .axlLinkCycleEnd n => Sys2Proof.Machine.execAxlLinkCycleEnd n s
  | .motionCellRx cell => Sys2Proof.Machine.execMotionCellRx cell s
  | .responseDue => Sys2Proof.Machine.execResponseDue s
  | .motionSafeStop => Sys2Proof.Machine.execMotionSafeStop s
  | .gpioOutWrite o v => Sys2Proof.Machine.execGpioOutWrite o v s
  | .gpioSet o v => Sys2Proof.Machine.execGpioSet o v s
  | .gpioClr o v => Sys2Proof.Machine.execGpioClr o v s
  | .gpioSample pins => Sys2Proof.Machine.execGpioSample pins s
  | .gpioChangeReportSend => Sys2Proof.Machine.execGpioChangeReportSend s
  | .gpioReportPeriod => Sys2Proof.Machine.execGpioReportPeriod s
  | .gpioChangeReportRx content => Sys2Proof.Machine.execGpioChangeReportRx content s
  | .gpioOutputCmdRx content => Sys2Proof.Machine.execGpioOutputCmdRx content s
  | .gpioTimedCmdApply => Sys2Proof.Machine.execGpioTimedCmdApply s
  | .periphGo o m v => Sys2Proof.Machine.execPeriphGo o m v s
  | .periphRequestRx m content => Sys2Proof.Machine.execPeriphRequestRx m content s
  | .pollDue e => Sys2Proof.Machine.execPollDue e s
  | .transactionListComplete m code bytes => Sys2Proof.Machine.execTransactionListComplete m code bytes s
  | .uartDataRead o n => Sys2Proof.Machine.execUartDataRead o n s
  | .uartDataWrite o n v => Sys2Proof.Machine.execUartDataWrite o n v s
  | .uartByteRx n b parity stop => Sys2Proof.Machine.execUartByteRx n b parity stop s
  | .uartIdleFlush n => Sys2Proof.Machine.execUartIdleFlush n s
  | .uartDataMessageRx n content => Sys2Proof.Machine.execUartDataMessageRx n content s
  | .uartCreditMessageRx n content => Sys2Proof.Machine.execUartCreditMessageRx n content s
  | .uartGroupApply n rxIdle => Sys2Proof.Machine.execUartGroupApply n rxIdle s
  | .usbProxyTransaction tok key bytes => Sys2Proof.Machine.execUsbProxyTransaction tok key bytes s
  | .usbOvercurrent port => Sys2Proof.Machine.execUsbOvercurrent port s
  | .usbSuspend => Sys2Proof.Machine.execUsbSuspend s
  | .usbResume => Sys2Proof.Machine.execUsbResume s
  | .usbSetupRx toHub pkt => Sys2Proof.Machine.execUsbSetupRx toHub pkt s
  | .usbBusReset upstream => Sys2Proof.Machine.execUsbBusReset upstream s
  | .devWake o v => Sys2Proof.Machine.execDevWake o v s
  | .wakeDriveStart => Sys2Proof.Machine.execWakeDriveStart s
  | .wakeDriveEnd => Sys2Proof.Machine.execWakeDriveEnd s
  | .wakeSuperseded => Sys2Proof.Machine.execWakeSuperseded s
  | .engineInstruction e ecc below => Sys2Proof.Machine.execEngineInstruction e ecc below s
  | .engineWfi e => Sys2Proof.Machine.execEngineWfi e s
  | .engineWake e => Sys2Proof.Machine.execEngineWake e s
  | .mtimecmpMatch e => Sys2Proof.Machine.execMtimecmpMatch e s
  | .engineWatchdogExpiry e => Sys2Proof.Machine.execEngineWatchdogExpiry e s
  | .engRunWrite o e v => Sys2Proof.Machine.execEngRunWrite o e v s
  | .engKick o e v => Sys2Proof.Machine.execEngKick o e v s
  | .engReset o e v => Sys2Proof.Machine.execEngReset o e v s
  | .qSwWrite o e q v => Sys2Proof.Machine.execQSwWrite o e q v s
  | .engineQueueTransmit => Sys2Proof.Machine.execEngineQueueTransmit s
  | .rootPortMsiWrite port write addr req tag tc => Sys2Proof.Machine.execRootPortMsiWrite port write addr req tag tc s
  | .fwLoadVendor o => Sys2Proof.Machine.execFwLoadVendor o s
  | .fwLoadSandbox o => Sys2Proof.Machine.execFwLoadSandbox o s
  | .fwImageVerified sandbox done a b => Sys2Proof.Machine.execFwImageVerified sandbox done a b s
  | .tgtClaim o t => Sys2Proof.Machine.execTgtClaim o t s
  | .tgtComplete o t v => Sys2Proof.Machine.execTgtComplete o t v s
  | .icRaise o v => Sys2Proof.Machine.execIcRaise o v s
  | .icPendingWrite o w v => Sys2Proof.Machine.execIcPendingWrite o w v s
  | .clockMonitorTrip clk cause => Sys2Proof.Machine.execClockMonitorTrip clk cause s
  | .clockQualified clk => Sys2Proof.Machine.execClockQualified clk s
  | .rcQualTimeout => Sys2Proof.Machine.execRcQualTimeout s
  | .clockRequalified clk => Sys2Proof.Machine.execClockRequalified clk s
  | .cdDivSetWrite o d v => Sys2Proof.Machine.execCdDivSetWrite o d v s
  | .dividerRampStep d => Sys2Proof.Machine.execDividerRampStep d s
  | .rcTrimStep up => Sys2Proof.Machine.execRcTrimStep up s
  | .domainWake d link => Sys2Proof.Machine.execDomainWake d link s
  | .domainWakeReady d => Sys2Proof.Machine.execDomainWakeReady d s
  | .domainWakeLate d => Sys2Proof.Machine.execDomainWakeLate d s
  | .domainIdleTimeout d => Sys2Proof.Machine.execDomainIdleTimeout d s
  | .scheduledWake d => Sys2Proof.Machine.execScheduledWake d s
  | .plChange => Sys2Proof.Machine.execPlChange s
  | .dramRateChange measured => Sys2Proof.Machine.execDramRateChange measured s
  | .simmerEvaluate => Sys2Proof.Machine.execSimmerEvaluate s
  | .sensorRaise => Sys2Proof.Machine.execSensorRaise s
  | .avsResponseRx crcOk ack vdone val => Sys2Proof.Machine.execAvsResponseRx crcOk ack vdone val s
  | .avsAckTimeout => Sys2Proof.Machine.execAvsAckTimeout s
  | .vcoreSettleCheck measured => Sys2Proof.Machine.execVcoreSettleCheck measured s
  | .avsRestore o v => Sys2Proof.Machine.execAvsRestore o v s
  | .enStart o => Sys2Proof.Machine.execEnStart o s
  | .enStop o trunk => Sys2Proof.Machine.execEnStop o trunk s
  | .enWindowEnd trunk => Sys2Proof.Machine.execEnWindowEnd trunk s
  | .pdAttach p farRp => Sys2Proof.Machine.execPdAttach p farRp s
  | .pdDetach p => Sys2Proof.Machine.execPdDetach p s
  | .drpToggle p => Sys2Proof.Machine.execDrpToggle p s
  | .sourceCapabilitiesSend p good => Sys2Proof.Machine.execSourceCapabilitiesSend p good s
  | .sourceCapabilitiesRx p epr caps => Sys2Proof.Machine.execSourceCapabilitiesRx p epr caps s
  | .requestRx p pos ma => Sys2Proof.Machine.execRequestRx p pos ma s
  | .acceptRx p => Sys2Proof.Machine.execAcceptRx p s
  | .rejectRx p => Sys2Proof.Machine.execRejectRx p s
  | .waitRx p => Sys2Proof.Machine.execWaitRx p s
  | .waitRetry p => Sys2Proof.Machine.execWaitRetry p s
  | .pdTransitionCodeSet p => Sys2Proof.Machine.execPdTransitionCodeSet p s
  | .vbusSettled p mv => Sys2Proof.Machine.execVbusSettled p mv s
  | .psRdyRx p => Sys2Proof.Machine.execPsRdyRx p s
  | .psRdyTimeout p => Sys2Proof.Machine.execPsRdyTimeout p s
  | .vbusSettleTimeout p => Sys2Proof.Machine.execVbusSettleTimeout p s
  | .eprModeEnterRx p => Sys2Proof.Machine.execEprModeEnterRx p s
  | .eprKeepaliveSend p => Sys2Proof.Machine.execEprKeepaliveSend p s
  | .eprKeepaliveTimeout p => Sys2Proof.Machine.execEprKeepaliveTimeout p s
  | .discoverIdentityRx p => Sys2Proof.Machine.execDiscoverIdentityRx p s
  | .discoverSvidsRx p => Sys2Proof.Machine.execDiscoverSvidsRx p s
  | .discoverModesRx p svid => Sys2Proof.Machine.execDiscoverModesRx p svid s
  | .enterModeRx p svid mode => Sys2Proof.Machine.execEnterModeRx p svid mode s
  | .exitModeRx p svid => Sys2Proof.Machine.execExitModeRx p svid s
  | .vdmResponseRx p answer svid => Sys2Proof.Machine.execVdmResponseRx p answer svid s
  | .prSwapCmd o p => Sys2Proof.Machine.execPrSwapCmd o p s
  | .drSwapCmd o p => Sys2Proof.Machine.execDrSwapCmd o p s
  | .hardResetCmd o p => Sys2Proof.Machine.execHardResetCmd o p s
  | .getSourceCapCmd o p => Sys2Proof.Machine.execGetSourceCapCmd o p s
  | .prSwapRx p => Sys2Proof.Machine.execPrSwapRx p s
  | .drSwapRx p => Sys2Proof.Machine.execDrSwapRx p s
  | .frSwapSignalRx p => Sys2Proof.Machine.execFrSwapSignalRx p s
  | .hardResetRx p => Sys2Proof.Machine.execHardResetRx p s
  | .hardResetReclose p => Sys2Proof.Machine.execHardResetReclose p s
  | .pdCableMaxMaWrite o p v => Sys2Proof.Machine.execPdCableMaxMaWrite o p v s
  | .slotEnableWrite o n v => Sys2Proof.Machine.execSlotEnableWrite o n v s
  | .seatChange n seated => Sys2Proof.Machine.execSeatChange n seated s
  | .seatDebounceExpiry n => Sys2Proof.Machine.execSeatDebounceExpiry n s
  | .slotRampStart n busMv => Sys2Proof.Machine.execSlotRampStart n busMv s
  | .slotPowerGood n => Sys2Proof.Machine.execSlotPowerGood n s
  | .slotRampTimeout n => Sys2Proof.Machine.execSlotRampTimeout n s
  | .slotFastTrip n ma busMv voutMv => Sys2Proof.Machine.execSlotFastTrip n ma busMv voutMv s
  | .slotBreakerTrip n ma us => Sys2Proof.Machine.execSlotBreakerTrip n ma us s
  | .slotBusOvervoltage n mv => Sys2Proof.Machine.execSlotBusOvervoltage n mv s
  | .slotBusUndervoltage n mv => Sys2Proof.Machine.execSlotBusUndervoltage n mv s
  | .slotRetryExpiry n => Sys2Proof.Machine.execSlotRetryExpiry n s
  | .slotGoodTimeExpiry n => Sys2Proof.Machine.execSlotGoodTimeExpiry n s
  | .slotClear o n v => Sys2Proof.Machine.execSlotClear o n v s
  | .feedInvalid f mv confirmed => Sys2Proof.Machine.execFeedInvalid f mv confirmed s
  | .feedValidHoldExpiry f mv elapsed confirmed => Sys2Proof.Machine.execFeedValidHoldExpiry f mv elapsed confirmed s
  | .feedReturnHoldExpiry confirmed => Sys2Proof.Machine.execFeedReturnHoldExpiry confirmed s
  | .feedBbmFailed => Sys2Proof.Machine.execFeedBbmFailed s
  | .feedLoss voutMv sinks => Sys2Proof.Machine.execFeedLoss voutMv sinks s
  | .feedModeWrite o v => Sys2Proof.Machine.execFeedModeWrite o v s
  | .feedClear o v => Sys2Proof.Machine.execFeedClear o v s
  | .keyStagePlaintext o k material => Sys2Proof.Machine.execKeyStagePlaintext o k material s
  | .keyStageUnwrap o k material => Sys2Proof.Machine.execKeyStageUnwrap o k material s
  | .keyStageDerive o k labelContext => Sys2Proof.Machine.execKeyStageDerive o k labelContext s
  | .keyGenerate o k => Sys2Proof.Machine.execKeyGenerate o k s
  | .keyAbort o k => Sys2Proof.Machine.execKeyAbort o k s
  | .keyInvalidate o k => Sys2Proof.Machine.execKeyInvalidate o k s
  | .keyCommit o k expected => Sys2Proof.Machine.execKeyCommit o k expected s
  | .keyStageExpired k => Sys2Proof.Machine.execKeyStageExpired k s
  | .keyRecordWritten k => Sys2Proof.Machine.execKeyRecordWritten k s
  | .keyIntegrityCheck bad ecc => Sys2Proof.Machine.execKeyIntegrityCheck bad ecc s
  | .caddyRemask k => Sys2Proof.Machine.execCaddyRemask k s
  | .drbgReseed healthy => Sys2Proof.Machine.execDrbgReseed healthy s
  | .stallDetected d => Sys2Proof.Machine.execStallDetected d s
  | .railOutOfWindow r uv => Sys2Proof.Machine.execRailOutOfWindow r uv s
  | .lockstepMismatch => Sys2Proof.Machine.execLockstepMismatch s
  | .smWatchdogExpiry => Sys2Proof.Machine.execSmWatchdogExpiry s
  | .safeInAssert => Sys2Proof.Machine.execSafeInAssert s
  | .safeInDeassert => Sys2Proof.Machine.execSafeInDeassert s
  | .safeOutReadback ball => Sys2Proof.Machine.execSafeOutReadback ball s
  | .smCauseTaken => Sys2Proof.Machine.execSmCauseTaken s
  | .hardwarePathTrip code detail => Sys2Proof.Machine.execHardwarePathTrip code detail s
  | .selftestSlice last fail => Sys2Proof.Machine.execSelftestSlice last fail s
  | .safeReset o v => Sys2Proof.Machine.execSafeReset o v s
  | .ssOpen o v => Sys2Proof.Machine.execSsOpen o v s
  | .ssClose o v => Sys2Proof.Machine.execSsClose o v s
  | .ssTimeout => Sys2Proof.Machine.execSsTimeout s
  | .freezeRelease o v => Sys2Proof.Machine.execFreezeRelease o v s
  | .blockReset o v => Sys2Proof.Machine.execBlockReset o v s
  | .tjSample sensors => Sys2Proof.Machine.execTjSample sensors s
  | .pornAssert => Sys2Proof.Machine.execPornAssert s
  | .vddAonRestored => Sys2Proof.Machine.execVddAonRestored s
  | .railBackInWindow r uv => Sys2Proof.Machine.execRailBackInWindow r uv s
  | .refclkHoldoverSteer => Sys2Proof.Machine.execRefclkHoldoverSteer s
  | .domainRestEntered d => Sys2Proof.Machine.execDomainRestEntered d s
  | .ethPhyLinkChange e speed => Sys2Proof.Machine.execEthPhyLinkChange e speed s
  | .mdioComplete e data => Sys2Proof.Machine.execMdioComplete e data s
  | .uartCharacterSent n cts => Sys2Proof.Machine.execUartCharacterSent n cts s
  | .usbUpstreamAttach tunnel present => Sys2Proof.Machine.execUsbUpstreamAttach tunnel present s
  | .usbPortConnectChange port connected speed => Sys2Proof.Machine.execUsbPortConnectChange port connected speed s
  | .usbTunnelMessageRx m => Sys2Proof.Machine.execUsbTunnelMessageRx m s
  | .usbDeviceTransfer x => Sys2Proof.Machine.execUsbDeviceTransfer x s
  | .sinkTxOk p => Sys2Proof.Machine.execSinkTxOk p s
  | .goodcrcTimeout p => Sys2Proof.Machine.execGoodcrcTimeout p s
  | .frsVbusFall p => Sys2Proof.Machine.execFrsVbusFall p s
  | .hardResetVbusReturn p => Sys2Proof.Machine.execHardResetVbusReturn p s
  | .contractStableTimer p => Sys2Proof.Machine.execContractStableTimer p s
  | .smRestart => Sys2Proof.Machine.execSmRestart s
  | .dispLinkTrained p rates works lanes srBest yGran edid => Sys2Proof.Machine.execDispLinkTrained p rates works lanes srBest yGran edid s
  | .csiStopState c stop fault rate => Sys2Proof.Machine.execCsiStopState c stop fault rate s
  | .keyRecordVoided k => Sys2Proof.Machine.execKeyRecordVoided k s

end Sys2Proof.Machine
end

