-- ==== Sys2Proof/Machine/Tick.lean ====
section
/-! DEFINITION. What the hub does by itself as time passes (log entry 6): one nanosecond of an idle machine. -/

namespace Sys2Proof.Machine

/-- Time goes on by a nanosecond; the network-time counter runs at its adjusted rate (R290, R393). -/
def Hub.later (h : Hub) : Hub :=
  { h with
    now := h.now + 1
    netTime := if h.netRuns then ((h.netTime : Int) + netUnit + signed 32 (h.get Obj.RATE_ADJ)).toNat else h.netTime }

/-- AXL is held on no longer once motion has run (R666). -/
def Hub.axlRelease (h : Hub) : Hub := { h with boot := { h.boot with axlHold := h.boot.axlHold && h.motState != 2 } }

/-- Rest of the power domains, by idle time and by schedule (R520, R524). -/
def Hub.domainsFollow (h : Hub) : Hub := (List.finRange 25).foldl (fun h d => (h.idleFollow d).schedFollow d) h

/-- What has no command of its own and follows the state of the hub: level sources and the host's line, sleeping engines, resting
domains, held accesses, waiting frames, lanes that turn into QUIET, causes that pass, the safety session, the USB upstream port. -/
def Hub.follow (h : Hub) : Hub :=
  let h := (h.patternsGo 0).patternsGo 1
  let h := ((h.lanesMove.bridgeResume.npResume.postGo).ckoFollow 0).ckoFollow 1
  let h := (((h.ptpGo 0).ptpGo 1).macSend 0).macSend 1
  let h := ((h.frameBegins 0).frameBegins 1).ppsDown
  let h := h.usbFollow.axlRelease.domainsFollow.avsFollow.pwmFollow
  let h := h.causesPass.startupCheck
  let h := h.startupStep.sessionCheck
  let h := h.icLevels
  ((List.finRange 12).foldl Hub.engWake h).hostFollow

/-- One nanosecond. Held in reset, nothing but time goes on, and the feed switch of the blocks that RSTn leaves as they are. -/
def Hub.tick (h : Hub) : Hub :=
  let h := h.later
  if h.hold = .run then h.feedStep.follow else if h.hold = .rstn then h.feedStep else h

/-- The machine with no command waiting. -/
def State.idle (s : State) : Host.Outcome State Fault Refusal := s.always Hub.tick

end Sys2Proof.Machine
end

