-- ==== Sys2Proof/Safety.lean ====
section
/-! DEFINITION. What a sound state of the hub is: the stores of objects and of memory in their canonical forms, and every listed object
a value of its width. -/

namespace Sys2Proof.Machine

/-- The object store: canonical, nothing left over from a command, each value fitting the type of its object (R53, R55). -/
def Objects.wf (h : Hub) : Prop :=
  h.objs.dirty = [] ∧ canonical objDefault h.objs.base = true ∧ ∀ c ∈ h.objs.base, fitObj c.1 c.2 = c.2

/-- The state is sound. -/
def State.Sound (s : State) : Prop := Objects.wf s.hub ∧ s.hub.mem.dirty = [] ∧ Memory.wf s.hub

/-- Nothing stands between an origin and a write: it is not frozen, has no low word held, has the rights of the object, the value passes
the range check, and the block of the object is on (R57, R59, R60, R66, R74, R80, R603). -/
def Hub.clear (h : Hub) (o : Origin) (k v : Nat) : Prop :=
  h.frozen o = false ∧ (h.origin o).held = none ∧ (isCaddyKey k = false ∨ h.caddyRights o = true) ∧ h.checkWrite o k v = rcOk ∧
    h.domOn (domainOfIdx (k / 256)) = true

/-- The hub as a command finds it: the outputs of the command before are gone. -/
def State.now (s : State) : Hub := { s.hub with out := [] }

/-- The state after a command that leaves the hub as `h`: its stores settled, the queue as it was. -/
def State.after (s : State) (h : Hub) : State := { s with hub := Hub.settle s.hub h }

/-- The commands of the blocks that RSTn leaves running: Kettle, slots, feeds and the JTAG port (R33, R659). -/
def keptCommand : Instr → Bool
  | .jtagBypass | .jtagIdcode | .jtagSamplePreload _ _ | .jtagExtest _ | .pdAttach _ _ | .pdDetach _ | .drpToggle _
  | .sourceCapabilitiesSend _ _ | .sourceCapabilitiesRx _ _ _ | .requestRx _ _ _ | .acceptRx _ | .rejectRx _ | .waitRx _ | .waitRetry _
  | .pdTransitionCodeSet _ | .vbusSettled _ _ | .psRdyRx _ | .psRdyTimeout _ | .vbusSettleTimeout _ | .eprModeEnterRx _
  | .eprKeepaliveSend _ | .eprKeepaliveTimeout _ | .discoverIdentityRx _ | .discoverSvidsRx _ | .discoverModesRx _ _ | .enterModeRx _ _ _
  | .exitModeRx _ _ | .vdmResponseRx _ _ _ | .prSwapRx _ | .drSwapRx _ | .frSwapSignalRx _ | .hardResetRx _ | .hardResetReclose _
  | .seatChange _ _ | .seatDebounceExpiry _ | .slotRampStart _ _ | .slotPowerGood _ | .slotRampTimeout _ | .slotFastTrip _ _ _ _
  | .slotBreakerTrip _ _ _ | .slotBusOvervoltage _ _ | .slotBusUndervoltage _ _ | .slotRetryExpiry _ | .slotGoodTimeExpiry _
  | .feedInvalid _ _ _ | .feedValidHoldExpiry _ _ _ _ | .feedReturnHoldExpiry _ | .feedBbmFailed | .feedLoss _ _ | .sinkTxOk _
  | .goodcrcTimeout _ | .frsVbusFall _ | .hardResetVbusReturn _ | .contractStableTimer _ => true
  | _ => false

/-- The kept commands that act although the blocks RSTn leaves running do not run: those of the TAP, and a far source's attach and detach
(R37, R48). -/
def stillCommand : Instr → Bool
  | .jtagBypass | .jtagIdcode | .jtagSamplePreload _ _ | .jtagExtest _ | .pdAttach _ _ | .pdDetach _ => true
  | _ => false

/-- The commands that act whatever holds the hub: PORn, RSTn, the supply of the always-on domain, and the sampling of the straps. -/
def resetCommand : Instr → Bool
  | .pornRelease _ | .rstnAssert | .rstnRelease | .vddAonUndervoltageReset | .pornAssert | .vddAonRestored | .strapSample _ => true
  | _ => false

/-- The object lies in a page whose writes have no action of their own beside R57 and R69: topology, composite unit, core, schedules but
for the egress ports' own objects, and tunnel entries but for `TUN_FLOOR`. -/
def actsPlainly (k : Nat) : Bool :=
  [0x11, 0x25, 0x40].contains (k / 65536) || (k / 65536 == 0x41 && !(Nat.ble 0x4110 (k / 256) && Nat.ble (k / 256) 0x411E)) ||
    (k / 65536 == 0x60 && k % 256 != 9)

/-- What an object keeps that a discarded prefetch buffer may change: the discard log and its counter, and the record of events. -/
def discardRecord (k : Nat) : Bool :=
  (List.range 32).any (fun i => k == Obj.DISCARD_LOG i) || k == Obj.DISCARD_COUNT || k == Obj.EVENT_LAST || k == Obj.EVENT_COUNT

/-- Commands of slots, feeds and the interrupt controller, which reach no memory. -/
def leavesMemory : Instr → Bool
  | .slotEnableWrite _ _ _ | .seatChange _ _ | .seatDebounceExpiry _ | .slotRampStart _ _ | .slotPowerGood _ | .slotRampTimeout _
  | .slotFastTrip _ _ _ _ | .slotBreakerTrip _ _ _ | .slotBusOvervoltage _ _ | .slotBusUndervoltage _ _ | .slotRetryExpiry _
  | .slotGoodTimeExpiry _ | .slotClear _ _ _ | .feedInvalid _ _ _ | .feedValidHoldExpiry _ _ _ _ | .feedReturnHoldExpiry _ | .feedBbmFailed
  | .feedModeWrite _ _ | .feedClear _ _ | .engineWake _ | .mtimecmpMatch _ | .tgtClaim _ _ | .tgtComplete _ _ _ | .icRaise _ _
  | .icPendingWrite _ _ _ => true
  | _ => false

end Sys2Proof.Machine
end

