-- ==== Sys2Proof/Certificates/Slice0/Obligations.lean ====
section
/-! DEFINITION. The statements about the hub that the provers prove, each a proposition of its own. -/

open Sys2Proof Sys2Proof.Machine

/-! ### The machine -/

/-- A step takes the command at the front of the queue and leaves the rest of the queue to it. -/
def Obligations.StepRunsTheFrontCommand : Prop :=
  ∀ (c : Instr) (rest : List Instr) (s : State), s.pending = c :: rest → step s = exec c { s with pending := rest }

/-- With no command waiting, a step is a nanosecond of time: the model's choice (log entry 6), no rule of the spec. Out of reset what
follows the hub's state by itself is brought up to date; while RSTn is low only the feed switch goes on; under PORn, until the straps are
latched, without VDD_AON and in the factory test state nothing but time does, so every object and every byte of memory is as before. -/
def Obligations.IdleStepIsANanosecond : Prop :=
  (∀ s : State, s.pending = [] → s.hub.hold = .run → step s = .next (s.after s.now.later.feedStep.follow)) ∧
  (∀ s : State, s.pending = [] → s.hub.hold = .rstn → step s = .next (s.after s.now.later.feedStep)) ∧
  (∀ s : State, s.Sound → s.pending = [] → s.hub.hold ≠ .run → s.hub.hold ≠ .rstn →
    ∃ t, step s = .next t ∧ t.pending = [] ∧ t.hub.now = s.hub.now + 1 ∧ (∀ k, t.hub.get k = s.hub.get k) ∧
      ∀ a, t.hub.memGet a = s.hub.memGet a)

/-- The state after reset is sound, waits for no command, and every object reads its default (R61). -/
def Obligations.ResetStateIsSoundAndAtDefaults : Prop :=
  State.reset.Sound ∧ State.reset.pending = [] ∧ ∀ k, State.reset.hub.get k = objDefault k

/-- Every step keeps the state sound: the stores of objects and of memory stay in their canonical forms, and every listed object a value of
the width of its type (R53, R55). -/
def Obligations.EveryStepKeepsStateSound : Prop :=
  ∀ s t : State, s.Sound → step s = .next t → t.Sound

/-- Every command answers a next state in every state, with the queue as it found it, and keeps a sound state sound: no command of the
table is refused and none faults. -/
def Obligations.EveryCommandAnswersANextState : Prop :=
  ∀ (i : Instr) (s : State), ∃ t, exec i s = .next t ∧ t.pending = s.pending ∧ (s.Sound → t.Sound)

/-- While the hub is held in reset or in the factory test state (R47, R658), a command of the hub proper does nothing but clear the outputs;
the blocks that RSTn leaves running (R33, R659) stop too until the straps are latched, under PORn, without VDD_AON and in the factory test
state, but for the TAP, which has no supply under PORn and without VDD_AON only (R48). Wherever the Kettle does not run on a port, a far
source that attaches to its Rd feeds the hub, or detaches (R37), which changes no object, no byte of memory and nothing but that it feeds. -/
def Obligations.HeldHubIgnoresCommands : Prop :=
  (∀ (i : Instr) (s : State), keptCommand i = false → resetCommand i = false → s.hub.hold ≠ .run →
    exec i s = .next (s.after s.now)) ∧
  (∀ (i : Instr) (s : State), keptCommand i = true → stillCommand i = false → s.hub.hold ≠ .run → s.hub.hold ≠ .rstn →
    exec i s = .next (s.after s.now)) ∧
  (∀ s : State, s.hub.hold = .porn ∨ s.hub.hold = .vddAon →
    exec .jtagBypass s = .next (s.after s.now) ∧ exec .jtagIdcode s = .next (s.after s.now) ∧
    (∀ pins chain, exec (.jtagSamplePreload pins chain) s = .next (s.after s.now)) ∧
    ∀ pins, exec (.jtagExtest pins) s = .next (s.after s.now)) ∧
  (∀ (s : State) (p : Fin 2), (s.hub.pd[p]).on = false →
    exec (.pdAttach p true) s = .next (s.after (s.now.setFed p true)) ∧ exec (.pdAttach p false) s = .next (s.after s.now) ∧
    exec (.pdDetach p) s = .next (s.after (s.now.setFed p false))) ∧
  ∀ s : State, s.Sound → (∀ k, (s.after s.now).hub.get k = s.hub.get k) ∧ ∀ a, (s.after s.now).hub.memGet a = s.hub.memGet a

/-! ### The object server -/

/-- Every access from a frozen origin is refused with FROZEN (R74) and changes nothing but the result code of a segmented-transfer channel it
was made at (R81): object and word accesses, stores, commit groups, claims and completions, sessions and the commands of the other blocks'
control objects. -/
def Obligations.FrozenOriginIsRefused : Prop :=
  ∀ (s : State) (o : Origin), s.hub.hold = .run → s.now.frozen o = true →
    (∀ k v, exec (.objectWrite o k v) s = .next (s.after ((s.now.segNote (k.toNat / 256) rcFrozen).ret o rcFrozen))) ∧
    (∀ k, exec (.readClearObjectRead o k) s = .next (s.after ((s.now.segNote (k.toNat / 256) rcFrozen).emit (.data o rcFrozen 0)))) ∧
    (∀ k, exec (.mmioLowWordRead o k) s = .next (s.after ((s.now.segNote (k.toNat / 256) rcFrozen).emit (.data o rcFrozen 0)))) ∧
    (∀ k v, exec (.mmioLowWordWrite o k v) s = .next (s.after ((s.now.segNote (k.toNat / 256) rcFrozen).ret o rcFrozen))) ∧
    (∀ k v, exec (.mmioHighWordWrite o k v) s = .next (s.after ((s.now.segNote ((k.toNat + 1) / 256) rcFrozen).ret o rcFrozen))) ∧
    (∀ k v, exec (.groupStageWrite o k v) s = .next (s.after (s.now.ret o rcFrozen))) ∧
    (∀ v, exec (.groupCommit o v) s = .next (s.after (s.now.ret o rcFrozen))) ∧
    (∀ v, exec (.groupAbort o v) s = .next (s.after (s.now.ret o rcFrozen))) ∧
    (∀ v, exec (.storeCmd o v) s = .next (s.after (s.now.ret o rcFrozen))) ∧
    (∀ v, exec (.restoreCmd o v) s = .next (s.after (s.now.ret o rcFrozen))) ∧
    (∀ t, exec (.tgtClaim o t) s = .next (s.after (s.now.emit (.data o rcFrozen 0)))) ∧
    (∀ t v, exec (.tgtComplete o t v) s = .next (s.after (s.now.ret o rcFrozen))) ∧
    (∀ v, exec (.icRaise o v) s = .next (s.after (s.now.ret o rcFrozen))) ∧
    (∀ v, exec (.ssOpen o v) s = .next (s.after (s.now.ret o rcFrozen))) ∧
    (∀ v, exec (.ssClose o v) s = .next (s.after (s.now.ret o rcFrozen))) ∧
    (∀ v, exec (.safeReset o v) s = .next (s.after (s.now.ret o rcFrozen))) ∧
    (∀ n v, exec (.slotEnableWrite o n v) s = .next (s.after (s.now.ret o rcFrozen))) ∧
    (∀ v, exec (.feedModeWrite o v) s = .next (s.after (s.now.ret o rcFrozen))) ∧
    (∀ k, exec (.keyInvalidate o k) s = .next (s.after (s.now.ret o rcFrozen))) ∧
    (∀ v, exec (.blockReset o v) s = .next (s.after (s.now.ret o rcFrozen)))

/-- A write that fails its checks is refused with their result, and every object, staged value and byte of memory stays as it was (R59). -/
def Obligations.RefusedWriteChangesNothing : Prop :=
  ∀ (s : State) (o : Origin) (k : BitVec 24) (v : W64), s.Sound → s.hub.hold = .run → (s.now.origin o).held = none →
    (isCaddyKey k.toNat = false ∨ s.now.caddyRights o = true) → s.now.checkWrite o k.toNat v.toNat ≠ rcOk →
    ∃ t, exec (.groupStageWrite o k v) s = .next t ∧ t.hub.out = [.result o (s.now.checkWrite o k.toNat v.toNat)] ∧
      (∀ j, t.hub.get j = s.hub.get j) ∧ (∀ a, t.hub.memGet a = s.hub.memGet a) ∧ t.hub.staged = s.hub.staged ∧
      t.hub.waiting = s.hub.waiting

/-- The results of the checks of a write (R59, R66, R76): no such object; an object, or the count at subindex 0, that takes no write; an
object with attribute S outside a safety session and not from SM; bits above the width of a narrow type; a value outside the object's own
range or refused by the condition its chapter states. -/
def Obligations.WriteChecksGiveTheirResults : Prop :=
  ∀ (h : Hub) (o : Origin) (k v : Nat), h.frozen o = false →
    (rowOf k = none → idxDefined (k / 256) = false ∨ k % 256 ≠ 0 → h.checkWrite o k v = rcNoObject) ∧
    (rowOf k = none → k % 256 = 0 → idxDefined (k / 256) = true → h.checkWrite o k v = rcReadOnly) ∧
    ∀ r, rowOf k = some r →
      (r.acc = .ro ∨ r.acc = .rc → h.checkWrite o k v = rcReadOnly) ∧
      (r.acc ≠ .ro → r.acc ≠ .rc → r.safety = true → h.safetyOrigin o = false → h.checkWrite o k v = rcNotInSession) ∧
      (r.acc ≠ .ro → r.acc ≠ .rc → r.safety = false ∨ h.safetyOrigin o = true → r.ty ≠ .octets → r.ty ≠ .domain →
        (r.ty.width ≤ 16 → 2 ^ r.ty.width ≤ v → h.checkWrite o k v = rcOutOfRange) ∧
        (v < 2 ^ r.ty.width → legalOk r.legal r.ty.width (keepBits r v) = false ∨ h.extraLegal k (keepBits r v) = false →
          h.checkWrite o k v = rcOutOfRange) ∧
        (v < 2 ^ r.ty.width → legalOk r.legal r.ty.width (keepBits r v) = true → h.extraLegal k (keepBits r v) = true →
          h.checkWrite o k v = rcOk))

/-- A write to an object with attribute S from neither the open safety session nor SM is refused with NOT_IN_SESSION and changes no object;
the session's writes and SM's never end so; and no read ends so, whatever the object's attributes. The write meets no earlier refusal: its
origin is not frozen (R74), holds no low word (R80), and is no origin that the Caddy or the segment channels turn away. -/
def Obligations.SafetyObjectsTakeWritesFromTheSessionOnly : Prop :=
  (∀ (s : State) (o : Origin) (k : BitVec 24) (v : W64) (r : ObjRow), s.Sound → s.hub.hold = .run → s.now.frozen o = false →
    (s.now.origin o).held = none → (isCaddyKey k.toNat = false ∨ s.now.caddyRights o = true) → rowOf k.toNat = some r →
    r.acc ≠ .ro → r.acc ≠ .rc → r.safety = true → s.now.safetyOrigin o = false →
    ∃ t, exec (.groupStageWrite o k v) s = .next t ∧ t.hub.out = [.result o rcNotInSession] ∧ ∀ j, t.hub.get j = s.hub.get j) ∧
  (∀ (h : Hub) (o : Origin) (k v : Nat), h.safetyOrigin o = true → h.checkWrite o k v ≠ rcNotInSession) ∧
  (∀ h : Hub, h.safetyOrigin .sm = true) ∧
  (∀ (h : Hub) (k : KeySlot), h.safetyOrigin (.hop k) = true ↔ h.flag Obj.SS_STATE = true ∧ h.get Obj.SS_SLOT = k.val) ∧
  (∀ (s : State) (o : Origin) (k : BitVec 24), s.hub.hold = .run →
    ∃ (g : Hub) (c v : Nat), exec (.readClearObjectRead o k) s = .next (s.after (g.emit (.data o c v))) ∧ c ≠ rcNotInSession)

/-- A plain write to an RW object whose value takes effect at once (R57): the value reads back, the value in effect is the same value, the
result is OK, and every other object and every byte of memory stays as it was; only the discard log and the record of events may follow a
prefetch buffer that the write discards (R121). -/
def Obligations.PlainWriteTakesEffectAtOnce : Prop :=
  ∀ (s : State) (o : Origin) (k : BitVec 24) (v : W64) (r : ObjRow), s.Sound → s.hub.hold = .run → s.now.clear o k.toNat v.toNat →
    rowOf k.toNat = some r → r.acc = .rw → r.unit = .now → actsPlainly k.toNat = true → s.now.reservedWrite o k.toNat = false →
    ∃ t, exec (.objectWrite o k v) s = .next t ∧ t.hub.get k.toNat = keepBits r v.toNat ∧ t.hub.eff k.toNat = keepBits r v.toNat ∧
      Out.result o rcOk ∈ t.hub.out ∧ (∀ j, j ≠ k.toNat → discardRecord j = false → t.hub.get j = s.hub.get j) ∧
      ∀ a, t.hub.memGet a = s.hub.memGet a

/-- A write whose value waits for its unit of work (R57, R58): the object reads the new value at once, the value in effect stays until the
unit begins, and the last value accepted before the unit begins is the one its block takes. -/
def Obligations.DeferredWriteWaitsForItsUnit : Prop :=
  (∀ (s : State) (o : Origin) (k : BitVec 24) (v : W64) (r : ObjRow), s.Sound → s.hub.hold = .run → s.now.clear o k.toNat v.toNat →
    rowOf k.toNat = some r → r.acc ≠ .rwp → r.unit ≠ .now → actsPlainly k.toNat = true → s.now.reservedWrite o k.toNat = false →
    ∃ t, exec (.objectWrite o k v) s = .next t ∧ t.hub.get k.toNat = keepBits r v.toNat ∧ t.hub.eff k.toNat = s.hub.eff k.toNat ∧
      t.hub.waiting = s.hub.waiting ++
        [⟨k.toNat, keepBits r v.toNat, s.hub.now, if s.hub.netRuns then some s.hub.netNs else none, r.unit⟩] ∧
      ∀ a, t.hub.memGet a = s.hub.memGet a) ∧
  (∀ (h : Hub) (k v₁ v₂ t₁ t₂ : Nat) (n₁ n₂ : Option Nat) (r : ObjRow), rowOf k = some r → r.acc ≠ .rwp →
    r.unit ≠ .now → k < effOffset → v₂ < 2 ^ r.ty.width → h.waiting = [⟨k, v₁, t₁, n₁, r.unit⟩, ⟨k, v₂, t₂, n₂, r.unit⟩] →
    (h.takeUnit r.unit fun _ => true).eff k = v₂ ∧ (h.takeUnit r.unit fun _ => true).waiting = [])

/-- The words of a 64-bit object (R80): a write to the low word is held and no object changes; a write to the high word of the same object
as the origin's next write is one write of the whole value; a high word with no low word held, or with the low word of another object
held, is refused with PARTIAL_64, and the held word is discarded; so is a second low word. -/
def Obligations.WordPairIsOneWrite : Prop :=
  ∀ (s : State) (o : Origin) (k : BitVec 24) (r : ObjRow), s.hub.hold = .run → s.now.frozen o = false → rowOf k.toNat = some r →
    r.ty = .u64 → rowOf (k.toNat + 1) = none → wideOf (k.toNat + 1) = some k.toNat →
    (∀ v, r.acc ≠ .ro → r.acc ≠ .rc → (isCaddyKey k.toNat = false ∨ s.now.caddyRights o = true) → (s.now.origin o).held = none →
      exec (.mmioLowWordWrite o k v) s =
        .next (s.after ((s.now.setOrigin o { s.now.origin o with held := some (k.toNat, v) }).ret o rcOk))) ∧
    (∀ v lo, (s.now.origin o).held = some (k.toNat, lo) →
      exec (.mmioHighWordWrite o k v) s = .next (s.after
        (Hub.reported o ((s.now.setOrigin o { s.now.origin o with held := none }).writeObj o k.toNat
          (v.toNat * 2 ^ 32 + lo.toNat))))) ∧
    (∀ v, (s.now.origin o).held = none → exec (.mmioHighWordWrite o k v) s = .next (s.after (s.now.ret o rcPartial64))) ∧
    (∀ v j lo, j ≠ k.toNat → (s.now.origin o).held = some (j, lo) →
      exec (.mmioHighWordWrite o k v) s =
        .next (s.after ((s.now.setOrigin o { s.now.origin o with held := none }).ret o rcPartial64))) ∧
    (∀ v w, (s.now.origin o).held = some w →
      exec (.mmioLowWordWrite o k v) s =
        .next (s.after ((s.now.setOrigin o { s.now.origin o with held := none }).ret o rcPartial64)))

/-- A store or restore command accepted while another is running is refused with BUSY, from whichever origin, and a store asked for in a HOP
frame meets the same refusal (R64). -/
def Obligations.StoreWhileOneRunsIsBusy : Prop :=
  ∀ s : State, s.hub.hold = .run → s.hub.storeRun ≠ .idle →
    (∀ o v, s.now.clear o Obj.STORE_CMD v.toNat →
      exec (.storeCmd o v) s = .next (s.after ((s.now.written Obj.STORE_CMD).ret o rcBusy))) ∧
    (∀ o v, s.now.clear o Obj.RESTORE_CMD v.toNat →
      exec (.restoreCmd o v) s = .next (s.after ((s.now.written Obj.RESTORE_CMD).ret o rcBusy))) ∧
    ∀ k : KeySlot, s.now.frozen (.hop k) = false → s.now.hopStoreOp (some k) 0 = (rcBusy, s.now)

/-- Staging (R69, R70, R73): the first write to a group that has nothing staged stages it with its origin as the owner and leaves every object
as it was; a member written by another origin while the group is staged is refused with GROUP_BUSY; a write that would start a 33rd staged
group, those past their 100 ms not counted, is refused with STAGE_FULL. The objects are the RWP members of the pages of `actsPlainly`. -/
def Obligations.StagingBelongsToItsOwner : Prop :=
  ∀ (s : State) (o : Origin) (k : BitVec 24) (v : W64) (r : ObjRow), s.Sound → s.hub.hold = .run → s.now.clear o k.toNat v.toNat →
    rowOf k.toNat = some r → r.acc = .rwp → actsPlainly k.toNat = true →
    (s.now.staged.any (fun g => g.leader == leaderOf k.toNat) = false → (s.now.staged.filter fun g => !s.now.stale g).length < 32 →
      ∃ t, exec (.groupStageWrite o k v) s = .next t ∧
        t.hub.staged = ⟨leaderOf k.toNat, o, s.hub.now, [(k.toNat, keepBits r v.toNat)], []⟩ :: s.hub.staged ∧
        Out.result o rcOk ∈ t.hub.out ∧ (∀ j, discardRecord j = false → t.hub.get j = s.hub.get j) ∧
        ∀ a, t.hub.memGet a = s.hub.memGet a) ∧
    (s.now.staged.any (fun g => g.leader == leaderOf k.toNat) = false → 32 ≤ (s.now.staged.filter fun g => !s.now.stale g).length →
      ∃ t, exec (.groupStageWrite o k v) s = .next t ∧ t.hub.staged = s.hub.staged ∧ Out.result o rcStageFull ∈ t.hub.out) ∧
    (∀ g, s.now.stagedGroup (leaderOf k.toNat) = some g → g.owner ≠ o →
      ∃ t, exec (.groupStageWrite o k v) s = .next t ∧ t.hub.staged = s.hub.staged ∧ Out.result o rcGroupBusy ∈ t.hub.out)

/-- A commit or an abort of a staged group by another origin than its owner is refused with GROUP_BUSY, and the group stays staged; with
nothing staged both are refused with NOT_STAGED (R70, R72). -/
def Obligations.CommitAndAbortAreTheOwners : Prop :=
  ∀ (s : State) (o : Origin) (v : W32), s.hub.hold = .run → namesGroup v.toNat = true →
    (s.now.clear o Obj.GROUP_COMMIT v.toNat → ∀ g, s.now.stagedGroup (leaderOf (v.toNat % 2 ^ 24)) = some g → g.owner ≠ o →
      exec (.groupCommit o v) s = .next (s.after ((s.now.written Obj.GROUP_COMMIT).ret o rcGroupBusy))) ∧
    (s.now.clear o Obj.GROUP_ABORT v.toNat → ∀ g, s.now.stagedGroup (leaderOf (v.toNat % 2 ^ 24)) = some g → g.owner ≠ o →
      exec (.groupAbort o v) s = .next (s.after ((s.now.written Obj.GROUP_ABORT).ret o rcGroupBusy))) ∧
    (s.now.clear o Obj.GROUP_COMMIT v.toNat → s.now.staged.any (fun g => g.leader == leaderOf (v.toNat % 2 ^ 24)) = false →
      exec (.groupCommit o v) s = .next (s.after ((s.now.written Obj.GROUP_COMMIT).ret o rcNotStaged))) ∧
    (s.now.clear o Obj.GROUP_ABORT v.toNat → s.now.staged.any (fun g => g.leader == leaderOf (v.toNat % 2 ^ 24)) = false →
      exec (.groupAbort o v) s = .next (s.after ((s.now.written Obj.GROUP_ABORT).ret o rcNotStaged)))

/-- A group not committed within 100 ms of its first staged write is discarded and raises GROUP_EXPIRED, code 0x01, naming its leader, once
(R72, R68); every object but the record of events stays as it was. Before 100 ms the command finds nothing to discard. -/
def Obligations.GroupExpiresAt100Milliseconds : Prop :=
  ∀ (s : State) (leader : BitVec 24), s.Sound → s.hub.hold = .run →
    ((s.now.staged.find? (fun g => g.leader == leader.toNat)).any s.now.stale = true →
      ∃ t, exec (.groupExpired leader) s = .next t ∧ t.hub.staged.any (fun g => g.leader == leader.toNat) = false ∧
        t.hub.get Obj.EVENT_LAST = 0x01000000 + leader.toNat ∧
        (s.hub.get Obj.EVENT_COUNT + 1 < 2 ^ 32 → t.hub.get Obj.EVENT_COUNT = s.hub.get Obj.EVENT_COUNT + 1) ∧
        (∀ j, j ≠ Obj.EVENT_LAST → j ≠ Obj.EVENT_COUNT → t.hub.get j = s.hub.get j) ∧ (∀ a, t.hub.memGet a = s.hub.memGet a) ∧
        exec (.groupExpired leader) t = .next (t.after t.now)) ∧
    ((s.now.staged.find? (fun g => g.leader == leader.toNat)).any s.now.stale = false →
      exec (.groupExpired leader) s = .next (s.after s.now))

/-! ### Interrupts -/

/-- A read of `TGT_CLAIM` takes, from the sources enabled, pending, not active and routed to the target, the one with the highest priority,
and among those the lowest number, whatever the mask: its pending bit is cleared, it is active, and the read returns its number plus one.
When no source qualifies the read returns 0 and counts in `IC_SPURIOUS`. A write of `TGT_COMPLETE` with the number of a source active at
the target makes it inactive; any other number is ignored and counts in `IC_BAD_COMPLETE` (R490). Level sources are brought up to date
first (R488). -/
def Obligations.ClaimTakesTheHighestSource : Prop :=
  ∀ (s : State) (o : Origin) (t : Fin 14), s.Sound → s.hub.hold = .run → s.now.frozen o = false →
    (∀ n, n < 192 → s.now.icLevels.claimable t.val n = true →
      (∀ m, m < 192 → s.now.icLevels.claimable t.val m = true →
        field (s.now.icLevels.srcCfg m) 7 5 < field (s.now.icLevels.srcCfg n) 7 5 ∨
        (field (s.now.icLevels.srcCfg m) 7 5 = field (s.now.icLevels.srcCfg n) 7 5 ∧ n ≤ m)) →
      ∃ u, exec (.tgtClaim o t) s = .next u ∧ u.hub.out = [.data o rcOk (n + 1)] ∧ u.hub.icPend n = false ∧ u.hub.icActive n = true ∧
        (n, t.val) ∈ u.hub.fw.activeAt ∧
        (∀ m, m < 192 → m ≠ n → u.hub.icPend m = s.now.icLevels.icPend m ∧ u.hub.icActive m = s.now.icLevels.icActive m) ∧
        ∀ a, u.hub.memGet a = s.hub.memGet a) ∧
    ((∀ m, m < 192 → s.now.icLevels.claimable t.val m = false) →
      exec (.tgtClaim o t) s = .next (s.after (((s.now.icLevels.bump Obj.IC_SPURIOUS).sawObject o none).emit (.data o rcOk 0)))) ∧
    (∀ v : W32, s.now.clear o (Obj.TGT_COMPLETE t.val) v.toNat → ∀ g, g = s.now.written (Obj.TGT_COMPLETE t.val) →
      (v.toNat < 192 → g.fw.activeAt.contains (v.toNat, t.val) = true →
        ∃ u, exec (.tgtComplete o t v) s = .next u ∧ u.hub.icActive v.toNat = false ∧ u.hub.fw.activeAt.contains (v.toNat, t.val) = false) ∧
      (192 ≤ v.toNat ∨ g.fw.activeAt.contains (v.toNat, t.val) = false →
        exec (.tgtComplete o t v) s = .next (s.after ((g.bump Obj.IC_BAD_COMPLETE).ret o rcOk))))

/-! ### Slots -/

/-- At each entry of a slot to state 6 (R581): the cause is recorded, the count of faults goes up, the retry timer of `SLOT_RETRY` starts,
`SLOT_ATTN` bit 0 is set, the fault is counted in `FAULTS`, and SLOT_FAULT, code 0x54, names `SLOT_FAULT_CAUSE`. When the count reaches 3
the slot passes at once to state 7: `SLOT_ATTN` bit 1 is set, `LATCHES` counts, and SLOT_LATCHED, code 0x55, names `SLOT_STATE`. The four
commands are the ramp timeout (cause 3), the fast trip (1), the breaker trip (2) and the bus overvoltage (4). Counters at the top of their
width are left out: the spec states no next value there. -/
def Obligations.SlotFaultEntryIsRecorded : Prop :=
  ∀ (s : State) (n : Fin 8) (i : Instr) (cause : Nat), s.Sound → s.hub.hold = .run ∨ s.hub.hold = .rstn →
    (i = .slotRampTimeout n ∧ cause = 3 ∧ s.now.get (Obj.SLOT_STATE n.val) = 4 ∧ s.now.due (.ramp n) = true) ∨
    (∃ ma bus vout, i = .slotFastTrip n ma bus vout ∧ cause = 1 ∧ s.now.slotConducts n = true ∧
      s.now.tripsFast n ma.toNat bus.toNat vout.toNat = true) ∨
    (∃ ma us, i = .slotBreakerTrip n ma us ∧ cause = 2 ∧ s.now.get (Obj.SLOT_STATE n.val) = 5 ∧
      s.now.get (Obj.SLOT_ILIM n.val) < ma.toNat ∧ s.now.get (Obj.SLOT_TRIP_TIME n.val) ≤ us.toNat) ∨
    (∃ mv, i = .slotBusOvervoltage n mv ∧ cause = 4 ∧ s.now.slotConducts n = true ∧
      (busWindow (s.now.get (Obj.SLOT_BUS n.val))).2 < mv.toNat) →
    s.now.get (Obj.SLOT_FAULT_COUNT n.val) < 255 → s.now.get (Obj.FAULTS n.val) + 1 < 2 ^ 32 →
    ∃ t, exec i s = .next t ∧ t.hub.get (Obj.SLOT_FAULT_CAUSE n.val) = cause ∧
      t.hub.get (Obj.SLOT_FAULT_COUNT n.val) = s.hub.get (Obj.SLOT_FAULT_COUNT n.val) + 1 ∧
      (Timer.slotRetry n, s.hub.now + ms (s.hub.get (Obj.SLOT_RETRY n.val))) ∈ t.hub.timers ∧
      t.hub.get (Obj.FAULTS n.val) = s.hub.get (Obj.FAULTS n.val) + 1 ∧
      bitOf (t.hub.get (Obj.SLOT_ATTN n.val)) 0 = true ∧
      (s.hub.get Obj.EVENT_COUNT + 2 < 2 ^ 32 → t.hub.get Obj.EVENT_COUNT =
        s.hub.get Obj.EVENT_COUNT + (if s.hub.get (Obj.SLOT_FAULT_COUNT n.val) + 1 = 3 then 2 else 1)) ∧
      (s.hub.get (Obj.SLOT_FAULT_COUNT n.val) + 1 ≠ 3 → t.hub.get (Obj.SLOT_STATE n.val) = 6 ∧
        t.hub.get Obj.EVENT_LAST = 0x54000000 + Obj.SLOT_FAULT_CAUSE n.val) ∧
      (s.hub.get (Obj.SLOT_FAULT_COUNT n.val) + 1 = 3 → t.hub.get (Obj.SLOT_STATE n.val) = 7 ∧
        bitOf (t.hub.get (Obj.SLOT_ATTN n.val)) 1 = true ∧
        (s.hub.get (Obj.LATCHES n.val) + 1 < 2 ^ 32 → t.hub.get (Obj.LATCHES n.val) = s.hub.get (Obj.LATCHES n.val) + 1) ∧
        t.hub.get Obj.EVENT_LAST = 0x55000000 + Obj.SLOT_STATE n.val)

/-! ### Straps and JTAG -/

/-- The third sample of the straps latches the majority of the three for each ball (R42) and the sampling ends: with RSTn low the value is
shown at once, and while the hub waits for its straps the start-up sequence begins with it. While no sampling runs a strap sample changes
nothing (R43). -/
def Obligations.StrapsLatchTheirMajority : Prop :=
  (∀ (s : State) (a b c : BitVec 7), s.Sound → s.now.boot.sampling = true → s.now.due .strap = true → s.now.boot.samples = [a, b] →
    ∀ latched : Hub → Prop, (∀ h, latched h ↔ h.boot.sampling = false ∧ ∀ i : Fin 7, bitOf (h.get Obj.STRAP_VALUE) i.val =
      ((a.getLsbD i.val && b.getLsbD i.val) || (a.getLsbD i.val && c.getLsbD i.val) || (b.getLsbD i.val && c.getLsbD i.val))) →
    (s.hub.hold = .rstn → ∃ t, exec (.strapSample c) s = .next t ∧ latched t.hub) ∧
    (s.hub.hold = .strap → ∃ g : Hub, latched g ∧ g.boot.cause = s.hub.boot.cause ∧ exec (.strapSample c) s =
      .next { s with hub := Hub.settle { s.hub with objs := ⟨[], []⟩, mem := ⟨[], []⟩ } (g.startUp s.hub.boot.cause) })) ∧
  (∀ (s : State) (c : BitVec 7), s.now.boot.sampling = false → exec (.strapSample c) s = .next (s.after s.now))

/-- The JTAG port (R48): IDCODE returns 0x1481_6A5B and BYPASS nothing; SAMPLE/PRELOAD and EXTEST act while RSTn is low, the first capturing
the balls of the chain and loading it, the second driving what it holds and capturing the inputs; otherwise both are BYPASS. -/
def Obligations.JtagInstructionsFollowRstn : Prop :=
  (∀ s : State, s.hub.hold ≠ .porn → s.hub.hold ≠ .vddAon →
    exec .jtagIdcode s = .next (s.after (s.now.tap .idcode (some 0x14816A5B) [] [])) ∧
    exec .jtagBypass s = .next (s.after (s.now.tap .bypass none [] []))) ∧
  (∀ s : State, s.hub.hold ≠ .porn → s.hub.hold ≠ .vddAon → s.hub.hold ≠ .rstn →
    ∀ pins, exec (.jtagExtest pins) s = exec .jtagBypass s ∧ ∀ chain, exec (.jtagSamplePreload pins chain) s = exec .jtagBypass s) ∧
  (∀ (s : State) (pins chain : List Bool), s.hub.hold = .rstn →
    (∃ t, exec (.jtagExtest pins) s = .next t ∧
      t.hub.out = [.tap none (captureExtest s.hub.boot.chain pins) (chainDrive s.hub.boot.chain)] ∧ t.hub.boot.jtag = .extest) ∧
    ∃ t, exec (.jtagSamplePreload pins chain) s = .next t ∧ t.hub.out = [.tap none (s.now.capture pins) []] ∧
      t.hub.boot.jtag = .sample ∧ t.hub.boot.chain = chainCells chain)

/-! ### Sessions -/

/-- A write of `SS_CLOSE` = 1 from the session ends it: `SS_STATE` reads 0, the signature of the S and P objects is shown in
`SAFE_SIGNATURE` and held in MRAM, and SAFETY_SESSION, code 0x67, names `SS_STATE`; from any other origin, or with no session open, it is
refused with NOT_IN_SESSION and no object changes (R643, R644). -/
def Obligations.SessionCloseIsTheSessions : Prop :=
  ∀ (s : State) (o : Origin) (v : W32), s.Sound → s.hub.hold = .run → s.now.clear o Obj.SS_CLOSE v.toNat →
    (∀ k : KeySlot, o = .hop k → s.now.flag Obj.SS_STATE = true → s.now.get Obj.SS_SLOT = k.val →
      ∀ g, g = s.now.written Obj.SS_CLOSE →
      ∃ t, exec (.ssClose o v) s = .next t ∧ t.hub.get Obj.SS_STATE = 0 ∧ t.hub.get Obj.SAFE_SIGNATURE = g.signature % 2 ^ 32 ∧
        t.hub.mram.signature = some (BitVec.ofNat 32 g.signature) ∧ t.hub.get Obj.EVENT_LAST = 0x67000000 + Obj.SS_STATE) ∧
    ((∀ k : KeySlot, o = .hop k → s.now.flag Obj.SS_STATE = false ∨ s.now.get Obj.SS_SLOT ≠ k.val) →
      ∃ t, exec (.ssClose o v) s = .next t ∧ Out.result o rcNotInSession ∈ t.hub.out ∧
        ∀ j, discardRecord j = false → t.hub.get j = s.hub.get j)

/-! ### Engines -/

/-- A store instruction of an engine into its own TCM, at an aligned address (R465, R466): exactly its bytes are written, the lowest first, and
every other byte of every memory stays; no register of the engine changes, and its pc goes past the instruction. The instruction's encoding
and the order of its bytes are those of RV32, which the spec only names (log entry 60). `g` is the hub as the engine finds it, its timer
line and the level sources up to date. -/
def Obligations.EngineStoreWritesOnlyItsBytes : Prop :=
  ∀ (s : State) (e : Engine) (below : Option W32) (n rs1 rs2 : Nat) (off : W32), s.Sound → s.hub.hold = .run →
    s.now.get (Obj.ENG_STATE e.val) = 2 → (s.now.engs[e]).asleep = false → s.now.domOn (4 + e.val) = true →
    ∀ g, g = (s.now.setEng e fun x => { x with mtip := Nat.ble x.mtimecmp.toNat s.now.now }).icLevels →
    (g.engs[e]).stall = none → (g.engs[e]).late = none → g.rvIrq e = none → (g.engs[e]).pc.toNat + 4 ≤ 0x10000 →
    g.fetchHalf e (g.engs[e]).pc % 4 = 3 →
    decode32 (g.fetchHalf e (g.engs[e]).pc + 65536 * g.fetchHalf e ((g.engs[e]).pc + 2)) = some (.store n rs1 rs2 off) →
    ∀ a, a = ((g.engs[e]).reg rs1 + off).toNat → a + n ≤ 0x10000 → a % n = 0 →
    ∃ t, exec (.engineInstruction e 0 below) s = .next t ∧
      (∀ y, t.hub.memGet y = if tcmAddr e a ≤ y ∧ y < tcmAddr e a + n
        then BitVec.ofNat 8 (((g.engs[e]).reg rs2).toNat / 256 ^ (y - tcmAddr e a)) else s.hub.memGet y) ∧
      (∀ k, t.hub.get k = (s.after g).hub.get k) ∧ (t.hub.engs[e]).pc = (g.engs[e]).pc + 4 ∧
      (t.hub.engs[e]).regs = (s.hub.engs[e]).regs

/-! ### Reads -/

/-- A read of an object that does not clear (R57): the result and the value are answered, and every object and every byte of memory stays as
it was. Claims and the data windows of the segment channels are left out: they have their own effect. -/
def Obligations.ReadsThatDoNotClearChangeNothing : Prop :=
  ∀ (s : State) (o : Origin) (k : BitVec 24) (r : ObjRow), s.Sound → s.hub.hold = .run → s.now.frozen o = false →
    rowOf k.toNat = some r → r.acc ≠ .rc → k.toNat / 256 < 0x1210 ∨ 0x1213 < k.toNat / 256 →
    k.toNat < 0x232001 ∨ 0x232D01 < k.toNat ∨ k.toNat % 256 ≠ 1 → s.now.domOn (domainOfIdx (k.toNat / 256)) = true →
    ∃ t, exec (.readClearObjectRead o k) s = .next t ∧
      (r.acc = .wo → t.hub.out = [.data o rcWriteOnly 0]) ∧
      (r.acc ≠ .wo → r.ty = .octets ∨ r.ty = .domain → t.hub.out = [.data o rcTypeMismatch 0]) ∧
      (r.acc ≠ .wo → r.ty ≠ .octets → r.ty ≠ .domain → t.hub.out = [.data o rcOk (s.now.view o k.toNat).1]) ∧
      (∀ j, t.hub.get j = s.hub.get j) ∧ ∀ a, t.hub.memGet a = s.hub.memGet a

/-- A read of a counter of index 0x91xx with access RC returns its value and starts it again from zero (R57); every other object and every
byte of memory stays as it was. -/
def Obligations.CounterReadClearsIt : Prop :=
  ∀ (s : State) (o : Origin) (k : BitVec 24) (r : ObjRow), s.Sound → s.hub.hold = .run → s.now.frozen o = false →
    rowOf k.toNat = some r → r.acc = .rc → k.toNat / 65536 = 0x91 → s.now.domOn (domainOfIdx (k.toNat / 256)) = true →
    ∃ t, exec (.readClearObjectRead o k) s = .next t ∧ t.hub.out = [.data o rcOk (s.hub.get k.toNat)] ∧ t.hub.get k.toNat = 0 ∧
      (∀ j, j ≠ k.toNat → t.hub.get j = s.hub.get j) ∧ ∀ a, t.hub.memGet a = s.hub.memGet a

/-! ### Frames -/

/-- What happens at one slot changes no object but those of that slot, its counters and the record of events (R575 to R583), and no byte of
memory: seating, debounce, ramp start, power good and ramp timeout, the trips, the bus out of its window, retry and good time. -/
def Obligations.SlotEventsStayInTheirSlot : Prop :=
  ∀ (s t : State) (n : Fin 8) (i : Instr), s.Sound →
    (∃ b, i = .seatChange n b) ∨ i = .seatDebounceExpiry n ∨ (∃ mv, i = .slotRampStart n mv) ∨ i = .slotPowerGood n ∨
    i = .slotRampTimeout n ∨ (∃ ma b v, i = .slotFastTrip n ma b v) ∨ (∃ ma us, i = .slotBreakerTrip n ma us) ∨
    (∃ mv, i = .slotBusOvervoltage n mv) ∨ (∃ mv, i = .slotBusUndervoltage n mv) ∨ i = .slotRetryExpiry n ∨ i = .slotGoodTimeExpiry n →
    exec i s = .next t →
    (∀ k, k / 256 % 0x10000 ≠ 0x7200 + n.val → k / 256 ≠ 0x9190 + n.val → k ≠ Obj.EVENT_LAST → k ≠ Obj.EVENT_COUNT →
      t.hub.get k = s.hub.get k) ∧
    ∀ a, t.hub.memGet a = s.hub.memGet a

/-- The commands of slots, feeds and the interrupt controller that `leavesMemory` names store nothing: every byte of every memory stays. -/
def Obligations.SlotFeedAndInterruptCommandsLeaveMemory : Prop :=
  ∀ (i : Instr) (s t : State), s.Sound → leavesMemory i = true → exec i s = .next t → ∀ a, t.hub.memGet a = s.hub.memGet a

/-- An engine's ALU instruction with an immediate from its own TCM (R465): the destination takes the result, register 0 discards it, every
other register stays, the pc goes past the instruction, and no object and no byte of memory changes. The encoding and the operations are
those of RV32, which the spec only names (log entry 60). `g` is the hub as the engine finds it. -/
def Obligations.EngineAluImmediateWritesItsRegister : Prop :=
  ∀ (s : State) (e : Engine) (below : Option W32) (op : AluOp) (rd rs1 : Nat) (imm : W32), s.Sound → s.hub.hold = .run →
    s.now.get (Obj.ENG_STATE e.val) = 2 → (s.now.engs[e]).asleep = false → s.now.domOn (4 + e.val) = true →
    ∀ g, g = (s.now.setEng e fun x => { x with mtip := Nat.ble x.mtimecmp.toNat s.now.now }).icLevels →
    (g.engs[e]).stall = none → (g.engs[e]).late = none → g.rvIrq e = none → (g.engs[e]).pc.toNat + 4 ≤ 0x10000 →
    g.fetchHalf e (g.engs[e]).pc % 4 = 3 →
    decode32 (g.fetchHalf e (g.engs[e]).pc + 65536 * g.fetchHalf e ((g.engs[e]).pc + 2)) = some (.aluImm op rd rs1 imm) →
    ∃ t, exec (.engineInstruction e 0 below) s = .next t ∧ (t.hub.engs[e]).pc = (g.engs[e]).pc + 4 ∧
      (1 ≤ rd → rd ≤ 31 → (t.hub.engs[e]).reg rd = aluRun op ((g.engs[e]).reg rs1) imm) ∧ (t.hub.engs[e]).reg 0 = 0 ∧
      (∀ j, j ≠ rd → (t.hub.engs[e]).reg j = (s.hub.engs[e]).reg j) ∧
      (∀ f : Engine, f ≠ e → t.hub.engs[f] = s.hub.engs[f]) ∧ (∀ k, t.hub.get k = (s.after g).hub.get k) ∧
      ∀ a, t.hub.memGet a = s.hub.memGet a

/-! ### What a lane carries -/

/-- PAM4 symbols are Gray coded, the earlier bit of a pair more significant (R135): at a PAM4 rate the pairs 00, 01, 11 and 10 give the
levels from the lowest to the highest, pair after pair in the order of the stream. -/
def Obligations.Pam4SymbolsAreGrayCoded : Prop :=
  ∀ (rate : Nat) (t : List Bool), pam4 rate = true →
    toLine rate (false :: false :: t) = 0 :: toLine rate t ∧ toLine rate (false :: true :: t) = 1 :: toLine rate t ∧
    toLine rate (true :: true :: t) = 2 :: toLine rate t ∧ toLine rate (true :: false :: t) = 3 :: toLine rate t

/-- What a lane carries comes back: line symbols read as bits give the bits sent, at every rate, and what the scrambler of R181 made of them
descrambles to them, whatever its register holds, and leaves the same register. -/
def Obligations.LaneBitsComeBack : Prop :=
  (∀ (rate : Nat) (bits : List Bool), bits.length % 2 = 0 → ofLine rate (toLine rate bits) = bits) ∧
  ∀ (r : Nat) (bits : List Bool), scramble31 r (scramble31 r bits).1 = (bits, (scramble31 r bits).2)

/-- A payload that one end protects opens at the other (R206, R209): under the same key, IV and header, its first `n` bytes come back, and
one whose tag is not that of its cipher text does not open. -/
def Obligations.SealedCellOpens : Prop :=
  (∀ (key iv aad body : List Byte) (n : Nat), n ≤ body.length → n ≤ 112 →
    openCell key iv aad (sealCell key iv aad body n) n = some (body.take n)) ∧
  ∀ (key iv aad body : List Byte) (n : Nat), gcmTag key iv aad (body.take n) ≠ (body.drop 112).take 16 →
    openCell key iv aad body n = none

/-! ### Completion: where each command answers the next state of its own effect

Each clause names its row of the operation table and its rule. The hypotheses are on the state and the operands alone; a command that
waits, is turned away or finds nothing to do there is left out of its clause. `s.now` is the hub as the command finds it, and
`s.now.written k` the same after the write to `k` has discarded the prefetch words of its block (R121). -/

/-- Completion of the commands of the table for start-up, reset, strap, JTAG and temperature commands: each answers the state after its own
effect. -/
def Obligations.ResetStrapAndJtagCommandsComplete : Prop :=
  -- PORN_RELEASE (R660)
  (∀ (s : State) (testen : Bool), ∀ h, h = s.now → s.hub.hold = .porn ∨ s.hub.hold = .run → exec (.pornRelease testen) s = .next
    { s with hub := Hub.settle { s.hub with objs := ⟨[], []⟩, mem := ⟨[], []⟩ } (if testen then ({ h.sinceNow.holdAll .factory with boot := { (h.sinceNow.holdAll .factory).boot with factory := true } } : Hub) else (h.sinceNow.strapWait { h.sinceNow.bare with boot := { h.sinceNow.bare.boot with sampling := true } } 1).arm .strap (us 20)) })
    ∧
  -- RSTN_ASSERT (R33)
  (∀ (s : State), ∀ h, h = s.now → s.hub.hold = .run ∨ s.hub.hold = .strap → exec .rstnAssert s = .next
    { s with hub := Hub.settle { s.hub with objs := ⟨[], []⟩, mem := ⟨[], []⟩ } (h.intoReset { h.lifeCounters (kettleSettings.foldl (fun n k => n.put k (h.get k)) h.warm) with hold := .rstn, pd := Vector.ofFn fun p => { (kettleSettings.foldl (fun n k => n.put k (h.get k)) h.warm).pd[p] with cap := some (h.get (Obj.PD_POWER_CAP p.val)) } }) })
    ∧
  -- RSTN_RELEASE (R659)
  (∀ (s : State), ∀ h, h = s.now → s.hub.hold = .rstn ∨ s.hub.hold = .run → exec .rstnRelease s = .next
    { s with hub := Hub.settle { s.hub with objs := ⟨[], []⟩, mem := ⟨[], []⟩ } (if h.boot.sampling then h.sinceNow.strapWait h.sinceNow.warm 2 else h.sinceNow.startUp 2) })
    ∧
  -- VDD_AON_UNDERVOLTAGE_RESET (R627)
  (∀ (s : State), ∀ h, h = s.now → s.hub.hold ≠ .porn → exec .vddAonUndervoltageReset s = .next
    { s with hub := Hub.settle { s.hub with objs := ⟨[], []⟩, mem := ⟨[], []⟩ } (h.intoReset (h.strapped (h.holdAll .vddAon))) }) ∧
  -- STRAP_SAMPLE (R42)
  (∀ (s : State) (balls : BitVec 7), ∀ h, h = s.now → s.hub.boot.sampling = true → s.hub.due .strap = true → s.hub.hold = .strap → exec
    (.strapSample balls) s = .next
    { s with hub := Hub.settle { s.hub with objs := ⟨[], []⟩, mem := ⟨[], []⟩ } (if (h.strapSampled balls).boot.sampling then h.strapSampled balls else (h.strapSampled balls).startUp (h.strapSampled balls).boot.cause) })
    ∧
  -- JTAG_BYPASS (R48)
  (∀ (s : State), ∀ h, h = s.now → s.hub.hold ≠ .porn → s.hub.hold ≠ .vddAon → exec .jtagBypass s = .next (s.after (h.tap .bypass none [] []))) ∧
  -- JTAG_IDCODE (R48)
  (∀ (s : State), ∀ h, h = s.now → s.hub.hold ≠ .porn → s.hub.hold ≠ .vddAon → exec .jtagIdcode s = .next (s.after (h.tap .idcode (some
    0x14816A5B) [] []))) ∧
  -- JTAG_SAMPLE_PRELOAD (R48)
  (∀ (s : State) (pins chain : List Bool), ∀ h, h = s.now → s.hub.hold = .rstn → exec (.jtagSamplePreload pins chain) s = .next (s.after
    (({ h with boot := { h.boot with chain := chainCells chain } } : Hub).tap .sample none (h.capture pins) []))) ∧
  -- JTAG_EXTEST (R48)
  (∀ (s : State) (pins : List Bool), ∀ h, h = s.now → s.hub.hold = .rstn → exec (.jtagExtest pins) s = .next (s.after (h.tap .extest none
    (captureExtest h.boot.chain pins) (chainDrive h.boot.chain)))) ∧
  -- BLOCK_RESET (R667)
  (∀ (s : State) (o : Origin) (v : W32), s.hub.hold = .run → s.now.clear o Obj.BLOCK_RESET v.toNat → ∀ g, g = s.now.written Obj.BLOCK_RESET → exec
    (.blockReset o v) s = .next (s.after ((g.blockReset v.toNat).2.ret o (g.blockReset v.toNat).1))) ∧
  -- TJ_SAMPLE (R688)
  (∀ (s : State) (sensors : Vector W32 8), s.hub.hold = .run → ∀ h, h = s.now → exec (.tjSample sensors) s = .next (s.after (
      let t := highestOf sensors
      let g := h.put Obj.TJ_NOW t.toNat
      let g := if !g.boot.tjSeen ∨ (BitVec.ofNat 32 (h.get Obj.TJ_PEAK)).toInt < t.toInt then g.put Obj.TJ_PEAK t.toNat else g
      let g := ({ g with boot := { g.boot with tjSeen := true } } : Hub)
      if (BitVec.ofNat 32 (h.get Obj.TJ_WARN)).toInt ≤ t.toInt then (if g.boot.tjHigh then g else Hub.event
          { g with boot := { g.boot with tjHigh := true } } 0x6B Obj.TJ_NOW) else if t.toInt ≤ (BitVec.ofNat 32 (h.get Obj.TJ_WARN)).toInt - 50
          then { g with boot := { g.boot with tjHigh := false } } else g))) ∧
  -- PORN_ASSERT (R656)
  (∀ (s : State), ∀ h, h = s.now → exec .pornAssert s = .next
    { s with hub := Hub.settle { s.hub with objs := ⟨[], []⟩, mem := ⟨[], []⟩ } (h.intoReset (h.holdAll .porn)) }) ∧
  -- VDD_AON_RESTORED (R671)
  (∀ (s : State), ∀ h, h = s.now → s.hub.hold = .vddAon → exec .vddAonRestored s = .next
    { s with hub := Hub.settle { s.hub with objs := ⟨[], []⟩, mem := ⟨[], []⟩ } (if h.boot.factory then h.sinceNow.strapped (h.sinceNow.holdAll .factory) else if h.boot.sampling then h.sinceNow.strapWait (h.sinceNow.strapped h.sinceNow.bare) 3 else h.sinceNow.startUp 3) })

/-- Completion of the commands of the table for safety monitor, safe state, session and release commands: each answers the state after its own
effect. -/
def Obligations.SafetyCommandsComplete : Prop :=
  -- STARTUP_SELFTEST_COMPLETE (R698)
  (∀ (s : State) (fail : Option (Fin 9 × Byte)), s.hub.hold = .run → ∀ h, h = s.now → h.safety.smRestarting = false → h.get Obj.SAFE_STATE = 0 →
    h.safety.startupPassed = false → exec (.startupSelftestComplete fail) s = .next (s.after (h.startupTest fail))) ∧
  -- STALL_DETECTED (R626)
  (∀ (s : State) (d : Domain), s.hub.hold = .run → ∀ h, h = s.now → (2 ≤ d.val ∧ d.val ≤ 15 ∧ h.domOn d.val) → exec (.stallDetected d) s = .next
    (s.after ((h.bump Obj.STALLS).report 1 d.val))) ∧
  -- LOCKSTEP_MISMATCH (R625)
  (∀ (s : State), s.hub.hold = .run → ∀ h, h = s.now → exec .lockstepMismatch s = .next (s.after (h.hwTrip 4 0))) ∧
  -- SM_WATCHDOG_EXPIRY (R630)
  (∀ (s : State), s.hub.hold = .run → ∀ h, h = s.now → h.safety.smRestarting = false → exec .smWatchdogExpiry s = .next (s.after (h.hwTrip 5 0)))
    ∧
  -- SAFE_IN_ASSERT (R629)
  (∀ (s : State), s.hub.hold = .run → ∀ h, h = s.now → h.flag Obj.SAFE_IN_STATE = false → exec .safeInAssert s = .next (s.after ((h.put
    Obj.SAFE_IN_STATE 1).hwTrip 12 0))) ∧
  -- SAFE_IN_DEASSERT (R629)
  (∀ (s : State), s.hub.hold = .run → ∀ h, h = s.now → exec .safeInDeassert s = .next (s.after (((h.put Obj.SAFE_IN_STATE
    0).causesPass).startupCheck))) ∧
  -- SAFE_OUT_READBACK (R629)
  (∀ (s : State) (ball : Bool), s.hub.hold = .run → ∀ h, h = s.now → (h.put Obj.SAFE_OUT_STATE (b2n ball)).smRuns = true → h.safety.readbackAfter
    ≤ h.now → exec (.safeOutReadback ball) s = .next (s.after (
      let g := h.put Obj.SAFE_OUT_STATE (b2n ball)
      if ball = g.safety.outIntent then (g.setSm fun x => { x with readbackMiss := 0 }).causesPass.startupCheck else if g.safety.readbackMiss + 1
          = 8 then (g.setSm fun x => { x with readbackMiss := g.safety.readbackMiss + 1 }).report 13 0 else g.setSm fun x =>
          { x with readbackMiss := g.safety.readbackMiss + 1 }))) ∧
  -- SM_CAUSE_TAKEN (R632)
  (∀ (s : State) (c : Report) (rest : List Report), s.hub.hold = .run → ∀ h, h = s.now → h.smRuns = true → h.safety.reports = c :: rest → exec
    .smCauseTaken s = .next (s.after ((h.setSm fun x => { x with reports := rest }).takeCause c))) ∧
  -- HARDWARE_PATH_TRIP (R633)
  (∀ (s : State) (code : Fin 17) (detail : Byte), s.hub.hold = .run → ∀ h, h = s.now → exec (.hardwarePathTrip code detail) s = .next (s.after
    (h.hwCause code.val detail.toNat))) ∧
  -- SELFTEST_SLICE (R640)
  (∀ (s : State) (last : Bool) (fail : Option Byte), s.hub.hold = .run → ∀ h, h = s.now → h.smRuns = true → h.get Obj.SAFE_STATE ≠ 0 → fail = none
    → h.safety.nextTest ≠ 9 → exec (.selftestSlice last fail) s = .next (s.after (if last then h.testDone else h))) ∧
  -- SAFE_RESET (R638)
  (∀ (s : State) (o : Origin) (v : W32), s.hub.hold = .run → s.now.clear o Obj.SAFE_RESET v.toNat → ∀ g, g = s.now.written Obj.SAFE_RESET → exec
    (.safeReset o v) s = .next (s.after ((Hub.safeReset g).2.ret o (Hub.safeReset g).1))) ∧
  -- SS_OPEN (R642)
  (∀ (s : State) (o : Origin) (v : W32), s.hub.hold = .run → s.now.clear o Obj.SS_OPEN v.toNat → ∀ g, g = s.now.written Obj.SS_OPEN → exec
    (.ssOpen o v) s = .next (s.after ((g.ssOpen o).2.ret o (g.ssOpen o).1))) ∧
  -- SS_CLOSE (R643)
  (∀ (s : State) (o : Origin) (v : W32), s.hub.hold = .run → s.now.clear o Obj.SS_CLOSE v.toNat → ∀ g, g = s.now.written Obj.SS_CLOSE → exec
    (.ssClose o v) s = .next (s.after ((g.ssClose o).2.ret o (g.ssClose o).1))) ∧
  -- SS_TIMEOUT (R643)
  (∀ (s : State), s.hub.hold = .run → ∀ h, h = s.now → (h.due .sessionTimeout) = true → exec .ssTimeout s = .next (s.after (h.endSession))) ∧
  -- FREEZE_RELEASE (R647)
  (∀ (s : State) (o : Origin) (v : W32), s.hub.hold = .run → s.now.clear o Obj.FREEZE_RELEASE v.toNat → ∀ g, g = s.now.written Obj.FREEZE_RELEASE
    → exec (.freezeRelease o v) s = .next (s.after ((g.freezeRelease (v.toNat % 256)).ret o rcOk))) ∧
  -- RAIL_BACK_IN_WINDOW (R627)
  (∀ (s : State) (r : Fin 12) (uv : W32), s.hub.hold = .run → ∀ h, h = s.now → h.railWithin r.val uv.toNat = true → exec (.railBackInWindow r uv)
    s = .next (s.after (((h.setSm fun x => { x with railsOut := x.railsOut.filter (· != r.val) }).causesPass).startupCheck))) ∧
  -- SM_RESTART (R633)
  (∀ (s : State), s.hub.hold = .run → ∀ h, h = s.now → h.due .smRestart = true → h.safety.smRestarting = true → exec .smRestart s = .next (s.after
    (h.safety.reports.foldl Hub.restartCause ((h.disarm .smRestart).setSm fun x => { x with smRestarting := false, reports := [] }))))

/-- Completion of the commands of the table for object accesses, stores, commit groups and wakes by access: each answers the state after its own
effect. -/
def Obligations.ObjectCommandsComplete : Prop :=
  -- OBJECT_WRITE (R57)
  (∀ (s : State) (o : Origin) (k : BitVec 24) (v : W64), s.hub.hold = .run → ∀ h, h = s.now → exec (.objectWrite o k v) s = .next (s.after
    (Hub.reported o (h.writeObj o k.toNat v.toNat)))) ∧
  -- READ_CLEAR_OBJECT_READ (R57)
  (∀ (s : State) (o : Origin) (k : BitVec 24), s.hub.hold = .run → ∀ h, h = s.now → exec (.readClearObjectRead o k) s = .next (s.after
    (Hub.answered o (h.readObj o k.toNat)))) ∧
  -- MMIO_LOW_WORD_READ (R79)
  (∀ (s : State) (o : Origin) (k : BitVec 24), s.hub.hold = .run → ∀ h, h = s.now → exec (.mmioLowWordRead o k) s = .next (s.after (Hub.answered o
    (h.readWord o k.toNat)))) ∧
  -- MMIO_LOW_WORD_WRITE (R80)
  (∀ (s : State) (o : Origin) (k : BitVec 24) (v : W32), s.hub.hold = .run → ∀ h, h = s.now → exec (.mmioLowWordWrite o k v) s = .next (s.after
    (Hub.reported o (h.writeWord o k.toNat v)))) ∧
  -- MMIO_HIGH_WORD_WRITE (R80)
  (∀ (s : State) (o : Origin) (k : BitVec 24) (v : W32), s.hub.hold = .run → ∀ h, h = s.now → exec (.mmioHighWordWrite o k v) s = .next (s.after
    (Hub.reported o (h.writeWord o (k.toNat + 1) v)))) ∧
  -- STORE_CMD (R62)
  (∀ (s : State) (o : Origin) (v : W32), s.hub.hold = .run → s.now.clear o Obj.STORE_CMD v.toNat → ∀ g, g = s.now.written Obj.STORE_CMD → exec
    (.storeCmd o v) s = .next (s.after ((g.storeStart none).2.ret o (g.storeStart none).1))) ∧
  -- RESTORE_CMD (R65)
  (∀ (s : State) (o : Origin) (v : W32), s.hub.hold = .run → s.now.clear o Obj.RESTORE_CMD v.toNat → ∀ g, g = s.now.written Obj.RESTORE_CMD → exec
    (.restoreCmd o v) s = .next (s.after ((Hub.restoreStart g).2.ret o (Hub.restoreStart g).1))) ∧
  -- GROUP_STAGE_WRITE (R69)
  (∀ (s : State) (o : Origin) (k : BitVec 24) (v : W64), s.hub.hold = .run → s.now.clear o k.toNat v.toNat → ∀ g, g = s.now.written k.toNat → exec
    (.groupStageWrite o k v) s = .next (s.after ((g.writeAct o k.toNat v.toNat).2.ret o (g.writeAct o k.toNat v.toNat).1))) ∧
  -- GROUP_COMMIT (R71)
  (∀ (s : State) (o : Origin) (v : W32), s.hub.hold = .run → s.now.clear o Obj.GROUP_COMMIT v.toNat → ∀ g, g = s.now.written Obj.GROUP_COMMIT →
    exec (.groupCommit o v) s = .next (s.after ((g.commitGroup o v.toNat).2.ret o (g.commitGroup o v.toNat).1))) ∧
  -- GROUP_ABORT (R75)
  (∀ (s : State) (o : Origin) (v : W32), s.hub.hold = .run → s.now.clear o Obj.GROUP_ABORT v.toNat → ∀ g, g = s.now.written Obj.GROUP_ABORT → exec
    (.groupAbort o v) s = .next (s.after ((g.abortNamed o v.toNat).2.ret o (g.abortNamed o v.toNat).1))) ∧
  -- GROUP_EXPIRED (R72)
  (∀ (s : State) (leader : BitVec 24), s.hub.hold = .run → ∀ h, h = s.now → (h.staged.find? (fun g => g.leader == leader.toNat)).any h.stale =
    true → exec (.groupExpired leader) s = .next (s.after ((h.unstage leader.toNat).event 0x01 leader.toNat))) ∧
  -- TIME_LATCH_READ (R395)
  (∀ (s : State) (o : Origin), s.hub.hold = .run → ∀ h, h = s.now → exec (.timeLatchRead o) s = .next (s.after (Hub.answered o (h.readWord o
    Obj.TIME_SEC)))) ∧
  -- TGT_CLAIM (R490)
  (∀ (s : State) (o : Origin) (t : Fin 14), s.hub.hold = .run → ∀ h, h = s.now → h.frozen o = false → exec (.tgtClaim o t) s = .next (s.after
    (((h.claim t.val).2.sawObject o none).emit (.data o rcOk (h.claim t.val).1)))) ∧
  -- DOMAIN_WAKE_READY (R521)
  (∀ (s : State) (d : Domain), s.hub.hold = .run → ∀ h, h = s.now → (h.domState d.val = 3) → exec (.domainWakeReady d) s = .next (s.after
    ((h.wakeDone d).heldTake d)))

/-- Completion of the commands of the table for segment channels: each answers the state after its own effect. -/
def Obligations.SegmentCommandsComplete : Prop :=
  -- SEG_OPEN_READ (R81)
  (∀ (s : State) (ch : Fin 4) (o : Origin), s.hub.hold = .run → ∀ h, h = s.now → exec (.segOpenRead ch o) s = .next (s.after (Hub.reported o
    (h.writeObj o (Obj.SEG_CONTROL ch.val) 1)))) ∧
  -- SEG_OPEN_WRITE (R81)
  (∀ (s : State) (ch : Fin 4) (o : Origin), s.hub.hold = .run → ∀ h, h = s.now → exec (.segOpenWrite ch o) s = .next (s.after (Hub.reported o
    (h.writeObj o (Obj.SEG_CONTROL ch.val) 2)))) ∧
  -- SEG_CLOSE_APPLY (R84)
  (∀ (s : State) (ch : Fin 4) (o : Origin), s.hub.hold = .run → ∀ h, h = s.now → exec (.segCloseApply ch o) s = .next (s.after (Hub.reported o
    (h.writeObj o (Obj.SEG_CONTROL ch.val) 3)))) ∧
  -- SEG_ABORT (R81)
  (∀ (s : State) (ch : Fin 4) (o : Origin), s.hub.hold = .run → ∀ h, h = s.now → exec (.segAbort ch o) s = .next (s.after (Hub.reported o
    (h.writeObj o (Obj.SEG_CONTROL ch.val) 4)))) ∧
  -- SEG_DATA_LAST_READ (R83)
  (∀ (s : State) (ch : Fin 4) (o : Origin), s.hub.hold = .run → ∀ h, h = s.now → exec (.segDataLastRead ch o) s = .next (s.after (Hub.answered o
    (h.readObj o (Obj.SEG_DATA ch.val 0x3F))))) ∧
  -- SEG_DATA_LAST_WRITE (R84)
  (∀ (s : State) (ch : Fin 4) (o : Origin) (v : W32), s.hub.hold = .run → ∀ h, h = s.now → exec (.segDataLastWrite ch o v) s = .next (s.after
    (Hub.reported o (h.writeObj o (Obj.SEG_DATA ch.val 0x3F) v.toNat)))) ∧
  -- SEGMENT_EXPIRED (R82)
  (∀ (s : State) (ch : Fin 4), s.hub.hold = .run → ∀ h, h = s.now → (h.due (.segExpire ch) && (h.seg[ch]).owner.isSome) = true → exec
    (.segmentExpired ch) s = .next (s.after ((h.segEnd ch none).event 0x06 (h.seg[ch]).target)))

/-- Completion of the commands of the table for the end of a store, HOP frames, operations, subscriptions and answers: each answers the state
after its own effect. -/
def Obligations.HopCommandsComplete : Prop :=
  -- STORE_COMPLETE (R62)
  (∀ (s : State) (fault : Bool), s.hub.hold = .run → ∀ h, h = s.now → h.storeRun ≠ .idle → exec (.storeComplete fault) s = .next (s.after
    ((h.storeEnd fault).hopStored fault))) ∧
  -- HOP_FRAME_RX (R86)
  (∀ (s : State) (src : HopSrc) (frame : Option (List Byte)), s.hub.hold = .run → ∀ h, h = s.now → exec (.hopFrameRx src frame) s = .next
    (s.after (
      match frame with | some f => h.hopRx src f | none => match h.hopIn with | (src, f) :: rest => { h with hopIn := rest }.hopRx src f | [] => h))) ∧
  -- HOP_READ (R93)
  (∀ (s : State) (slot : Option KeySlot) (k : BitVec 24) (n : Byte), s.hub.hold = .run → ∀ h, h = s.now → exec (.hopRead slot k n) s = .next
    (s.after (h.hopAlone slot .usb [] (opHead 1 k n.toNat)))) ∧
  -- HOP_WRITE (R93)
  (∀ (s : State) (slot : Option KeySlot) (k : BitVec 24) (data : List Byte), s.hub.hold = .run → ∀ h, h = s.now → exec (.hopWrite slot k data) s =
    .next (s.after (h.hopAlone slot .usb [] (opHead 2 k data.length ++ data)))) ∧
  -- HOP_COMMIT (R93)
  (∀ (s : State) (slot : Option KeySlot) (k : BitVec 24), s.hub.hold = .run → ∀ h, h = s.now → exec (.hopCommit slot k) s = .next (s.after
    (h.hopAlone slot .usb [] (opHead 3 k 0)))) ∧
  -- HOP_STORE (R93)
  (∀ (s : State) (slot : Option KeySlot), s.hub.hold = .run → ∀ h, h = s.now → (h.hopStoreOp slot 0).1 = rcOk → exec (.hopStore slot) s = .next
    (s.after ((h.hopStoreOp slot 0).2.setHop fun y =>
    { y with storing := some { slot := slot, src := .usb, hdr := [], key := [], tag := [], done := [], rest := [] } }))) ∧
  -- HOP_SUBSCRIBE (R99)
  (∀ (s : State) (slot : Option KeySlot) (src : HopSrc) (path : W64) (k : BitVec 24) (period : W16), s.hub.hold = .run → ∀ h, h = s.now → exec
    (.hopSubscribe slot src path k period) s = .next (s.after (h.hopAlone slot src (toBE 8 path.toNat) (opHead 5 k 2 ++ toBE 2 period.toNat)))) ∧
  -- HOP_NOTIFY (R99)
  (∀ (s : State) (id : W32) (x : HopSub) (k : KeySlot), s.hub.hold = .run → ∀ h, h = s.now → (h.hop.subs.find? fun x => x.id == id.toNat) = some x
    → x.slot = some k → h.slotMac k.val = true → h.hopDue x = true → exec (.hopNotify id) s = .next (s.after (h.hopNotice x))) ∧
  -- HOP_RESPONSE_RX (R100)
  (∀ (s : State) (p : Port) (frame : List Byte), s.hub.hold = .run → ∀ h, h = s.now → (hopIsResponse frame) = true → exec (.hopResponseRx p frame)
    s = .next (s.after (h.hopRx (.trunk p) frame))) ∧
  -- HOP_FWD_TIMEOUT (R101)
  (∀ (s : State) (id : W32), s.hub.hold = .run → ∀ h, h = s.now → (h.due (.hopFwd id.toNat)) = true → exec (.hopFwdTimeout id) s = .next (s.after
    ((h.setHop fun y => { y with fwd := y.fwd.filter fun z => z.id != id.toNat }).disarm (.hopFwd id.toNat)))) ∧
  -- RAIL_OUT_OF_WINDOW (R627)
  (∀ (s : State) (r : Fin 12) (uv : W32), s.hub.hold = .run → ∀ h, h = s.now → h.safety.railsOut.contains r.val = false → h.railWithin r.val
    uv.toNat = false → exec (.railOutOfWindow r uv) s = .next (s.after ((if r.val = 6 ∧ h.storeRun ≠ .idle then (h.storeEnd true).hopStored true
    else h).railOut r.val)))

/-- Completion of the commands of the table for window, prefetch, remote and management-port commands of the host bridge: each answers the state
after its own effect. -/
def Obligations.BridgeCommandsComplete : Prop :=
  -- WINDOW_READ (R110)
  (∀ (s : State) (bar2 : Bool) (off : BitVec 28) (n : Fin 9) (contends : Option Nat), s.hub.hold = .run → ∀ h, h = s.now → exec (.windowRead bar2
    off n contends) s = .next (s.after ((h.withdraw contends).barAccess bar2 off.toNat n.val false 0))) ∧
  -- WINDOW_WRITE (R111)
  (∀ (s : State) (bar2 : Bool) (off : BitVec 28) (n : Fin 9) (v : W32) (contends : Option Nat), s.hub.hold = .run → ∀ h, h = s.now → exec
    (.windowWrite bar2 off n v contends) s = .next (s.after ((h.withdraw contends).barAccess bar2 off.toNat n.val true v))) ∧
  -- PREFETCH_IDLE_TIMEOUT (R121)
  (∀ (s : State) (w : Fin 16), s.hub.hold = .run → ∀ h, h = s.now → (h.due (.prefetchIdle w)) = true → exec (.prefetchIdleTimeout w) s = .next
    (s.after ((h.discardPrefetch w).disarm (.prefetchIdle w)))) ∧
  -- REMOTE_BRIDGE_REQUEST_RX (R114)
  (∀ (s : State) (unit : W64) (mp : Bool) (id : W32) (write : Bool) (target : Fin 4) (off : W32) (n : Fin 9) (v : W32) (fill : Bool), s.hub.hold =
    .run → ∀ h, h = s.now → exec (.remoteBridgeRequestRx unit mp id write target off n v fill) s = .next (s.after (h.serveRemote unit mp id.toNat
    write target.val off.toNat n.val v fill))) ∧
  -- REMOTE_RESULT_RX (R116)
  (∀ (s : State) (id : W32) (code : Byte) (data : W32), s.hub.hold = .run → ∀ h, h = s.now → h.bridge.remote.any (fun x => x.id == id.toNat) =
    true → exec (.remoteResultRx id code data) s = .next (s.after (((h.bridgeFree id.toNat).remoteEnd id.toNat code.toNat data).bridgeResume))) ∧
  -- REMOTE_TIMEOUT (R116)
  (∀ (s : State) (id : W32), s.hub.hold = .run → ∀ h, h = s.now → (h.due (.remoteAcc id.toNat)) = true → exec (.remoteTimeout id) s = .next
    (s.after (((h.bridgeFree id.toNat).remoteEnd id.toNat causeRemoteTimeout 0).bridgeResume))) ∧
  -- NP_RETRY_REISSUE (R124)
  (∀ (s : State) (id : W32), s.hub.hold = .run → ∀ h, h = s.now → (h.bridge.withdrawn.any fun w => w.1 == id.toNat && h.accDone w.2) → exec
    (.npRetryReissue id) s = .next (s.after ((h.setBridge fun b => { b with withdrawn := b.withdrawn.filter fun w => w.1 != id.toNat }).emit
    (.npReissue id.toNat)))) ∧
  -- MP_READ (R128)
  (∀ (s : State) (phase : MpPhase) (contends : Option Nat), s.hub.hold = .run → ∀ h, h = s.now → exec (.mpRead phase contends) s = .next (s.after
    (h.mpPhase phase false 0 contends))) ∧
  -- MP_WRITE (R128)
  (∀ (s : State) (phase : MpPhase) (v : W32) (contends : Option Nat), s.hub.hold = .run → ∀ h, h = s.now → exec (.mpWrite phase v contends) s =
    .next (s.after (h.mpPhase phase true v contends))) ∧
  -- MEMBER_IRQ_MESSAGE_RX (R131)
  (∀ (s : State) (m : Fin 32), s.hub.hold = .run → ∀ h, h = s.now → (h.headsUnit && h.get (Obj.MEMBER_UNIT_ID m.val) != 0) = true → exec
    (.memberIrqMessageRx m) s = .next (s.after (((h.setBridge fun b => { b with messages := b.messages ||| BitVec.ofNat 32 (2 ^ m.val) }).put
    Obj.SB_SUMMARY (setBit (h.get Obj.SB_SUMMARY) m.val)).memberVector m.val))) ∧
  -- SB_POLL (R132)
  (∀ (s : State) (pending : W32) (rps : List (W64 × Fin 2 × Option Bool)) (joined : List JoinIn) (left : List W64), s.hub.hold = .run → ∀ h, h =
    s.now → h.headsUnit = true → h.eff Obj.SB_POLL_PERIOD ≤ h.bridge.sincePoll → exec (.sbPoll pending rps joined left) s = .next (s.after
    ((rps.foldl (fun h r => h.rpChange r.1.toNat r.2.1.val r.2.2) ((List.range 31).foldl (fun h i => h.pollMember pending (i + 1)) (joined.foldl
    Hub.join (left.foldl (fun h u => h.leave u.toNat) (h.takeUnit .sbPoll fun _ => true))))).setBridge fun b =>
    { b with messages := 0, sincePoll := 0 }))) ∧
  -- PCIE_TLP_INGRESS (R321)
  (∀ (s : State) (port : Fin 2) (tlp : Tlp), s.hub.hold = .run → ∀ h, h = s.now → exec (.pcieTlpIngress port tlp) s = .next (s.after (
      let g := h.bump (Obj.TLP_RX port); match g.tlpBar port tlp with | some (bar2, off) => g.tlpView bar2 off tlp | none => g.tlpIngress port tlp)))

/-- Completion of the commands of the table for training, codewords, markers, cells and lanes of the trunk links: each answers the state after its
own effect. -/
def Obligations.TrunkLinkCommandsComplete : Prop :=
  -- TRAINING_START (R200)
  (∀ (s : State) (p : Port), s.hub.hold = .run → ∀ h, h = s.now → exec (.trainingStart p) s = .next (s.after (h.modeEntered p))) ∧
  -- TRAINING_FRAME_RX (R200)
  (∀ (s : State) (p : Port) (t : TrainIn), s.hub.hold = .run → ∀ h, h = s.now → exec (.trainingFrameRx p t) s = .next (s.after (h.trainRx p t))) ∧
  -- TRAINING_FAULT_TIMEOUT (R202)
  (∀ (s : State) (p : Port), s.hub.hold = .run → ∀ h, h = s.now → exec (.trainingFaultTimeout p) s = .next (s.after (h.stepLate p))) ∧
  -- PATH_WAIT_EXPIRED (R663)
  (∀ (s : State), s.hub.hold = .run → ∀ h, h = s.now → h.due .pathWait = true → exec .pathWaitExpired s = .next (s.after (((List.finRange
    2).filter fun p => h.links[p].pathHold).foldl Hub.step3 (if ((List.finRange 2).filter fun p => h.links[p].pathHold).isEmpty then
    { h.disarm .pathWait with pathOver := true } else Hub.event { h.disarm .pathWait with pathOver := true } 0x69 Obj.PATH_WAIT)))) ∧
  -- BACKOFF_WAIT_EXPIRY (R213)
  (∀ (s : State) (p : Port), s.hub.hold = .run → ∀ h, h = s.now → (h.due (.backoff p) && h.get (Obj.LINK_STATE p) == 12) = true → exec
    (.backoffWaitExpiry p) s = .next (s.after (h.trainStart p))) ∧
  -- RETRAIN_CMD (R214)
  (∀ (s : State) (o : Origin) (p : Port) (v : W32), s.hub.hold = .run → s.now.clear o (Obj.RETRAIN_CMD p) v.toNat → ∀ g, g = s.now.written
    (Obj.RETRAIN_CMD p) → exec (.retrainCmd o p v) s = .next (s.after ((g.retrain p).ret o rcOk))) ∧
  -- REF_PLL_LOCK (R140)
  (∀ (s : State) (p : Port), s.hub.hold = .run → ∀ h, h = s.now → h.leafClock p = true → exec (.refPllLock p) s = .next (s.after ((h.setLink p fun
    k => { k with l0Lock := true }).refChoose))) ∧
  -- CODEWORD_RX (R195)
  (∀ (s : State) (p : Port) (l : Lane) (symbols : List (Fin 4)), s.hub.hold = .run → ∀ h, h = s.now → exec (.codewordRx p l symbols) s = .next
    (s.after (h.codeword p l symbols))) ∧
  -- FEC_DEGRADED (R197)
  (∀ (s : State) (p : Port) (l : Lane), s.hub.hold = .run → ∀ h, h = s.now → exec (.fecDegraded p l) s = .next (s.after (h.fecDegraded p l))) ∧
  -- MARKER_RX (R184)
  (∀ (s : State) (p : Port) (l : Lane) (block : List Byte) (off : W32), s.hub.hold = .run → ∀ h, h = s.now → exec (.markerRx p l block off) s =
    .next (s.after (h.marker p l block (signed 32 off.toNat)))) ∧
  -- MARKER_MISSED (R186)
  (∀ (s : State) (p : Port) (l : Lane), s.hub.hold = .run → ∀ h, h = s.now → h.linkUp p = true → h.laneState p l = 2 → h.receives p l = true →
    exec (.markerMissed p l) s = .next (s.after (
      let n := assoc h.links[p].missed l + 1
      if n < 2 then
        (let x := (h.lane p l).rx; let g := h.setLink p fun k => { k with missed := assocSet k.missed l n }; if x.on then g.setLane p l fun s =>
            { s with rx := { on := true, scr := scrSeed l.val, per := x.per + 1 } } else g)
      else
        ((h.setLink p fun k => { k with missed := k.missed.filter fun x => x.1 != l.val }).bump (Obj.ALIGN_SLIPS (laneIx p l))).laneLost p l 2))) ∧
  -- ALIGNMENT_LOSS (R141)
  (∀ (s : State) (p : Port) (l : Lane) (phase : W32), s.hub.hold = .run → ∀ h, h = s.now → h.linkUp p = true → h.laneState p l = 2 → h.receives p
    l = true → exec (.alignmentLoss p l phase) s = .next (s.after (
      let d := (h.lane p l).phase0[dirNo (h.get (Obj.LANE_DIR p l))]
      if Nat.ble (signed 32 phase.toNat - d).natAbs 8 then h.setLane p l fun s =>
          { s with live := { s.live with phase := signed 32 phase.toNat } } else (h.bump (Obj.ALIGN_SLIPS (laneIx p l))).laneLost p l 2))) ∧
  -- CELL_RX (R190)
  (∀ (s : State) (p : Port) (cell : Option (Lane × List Byte × List Byte)), s.hub.hold = .run → ∀ h, h = s.now → exec (.cellRx p cell) s = .next
    (s.after (
      match cell with | some (l, hdr, body) => h.cellRx p l hdr body | none => h.cellNext p))) ∧
  -- NO_SIGNAL (R211)
  (∀ (s : State) (p : Port) (l : Lane), s.hub.hold = .run → ∀ h, h = s.now → h.linkUp p = true → h.laneState p l = 2 → h.receives p l = true →
    exec (.noSignal p l) s = .next (s.after (h.laneLost p l 1))) ∧
  -- CONTROL_CELL_TIMEOUT (R211)
  (∀ (s : State) (p : Port), s.hub.hold = .run → ∀ h, h = s.now → (h.ctrlLost p) = true → exec (.controlCellTimeout p) s = .next (s.after
    (h.linkDown p 4 true))) ∧
  -- RETRAIN_CELL_RX (R211)
  (∀ (s : State) (p : Port) (content : Option (List Byte)) (c : List Byte), s.hub.hold = .run → ∀ h, h = s.now → content = some c → byteAt c 0 = 5
    → exec (.retrainCellRx p content) s = .next (s.after ((h.setLink p fun k => { k with ctrlGap := 0 }).retrainCell p c))) ∧
  -- SINGLE_LANE_RETRAIN_START (R697)
  (∀ (s : State) (p : Port) (l : Lane), s.hub.hold = .run → ∀ h, h = s.now → (h.linkUp p && (l.val == 1 || l.val == 2) && h.laneState p l == 2) =
    true → exec (.singleLaneRetrainStart p l) s = .next (s.after (h.laneTrain p l))) ∧
  -- EQ_BACKCHANNEL_RX (R697)
  (∀ (s : State) (p : Port) (content : Option (List Byte)), s.hub.hold = .run → ∀ h, h = s.now → exec (.eqBackchannelRx p content) s = .next
    (s.after (
      match h.ctrlTake p 6 content with | (some c, h) => h.eqCell p c | (none, h) => h))) ∧
  -- SINGLE_LANE_RETRAIN_END (R697)
  (∀ (s : State) (p : Port) (l : Lane) (pass : Bool) (skew : W32) (rx : RxIn), s.hub.hold = .run → ∀ h, h = s.now → exec (.singleLaneRetrainEnd p
    l pass skew rx) s = .next (s.after (h.laneTrained p l pass skew rx))) ∧
  -- CTLE_ADAPT_STEP (R153)
  (∀ (s : State) (p : Port) (l : Lane) (move : Fin 3) (taps : Vector W32 3) (slice : BitVec 24), s.hub.hold = .run → ∀ h, h = s.now → exec
    (.ctleAdaptStep p l move taps slice) s = .next (s.after (h.adapt p l move taps slice.toNat))) ∧
  -- TURNAROUND_FAILED (R158)
  (∀ (s : State) (p : Port) (l : Lane), s.hub.hold = .run → ∀ h, h = s.now → (h.due (.turnaround p l)) = true → exec (.turnaroundFailed p l) s =
    .next (s.after (h.turnFailed p l)))

/-- Completion of the commands of the table for test modes, far loop, test patterns and eye scans of the trunk lanes: each answers the state after
its own effect. -/
def Obligations.TrunkTestCommandsComplete : Prop :=
  -- TEST_MODE_IN_SERVICE (R171)
  (∀ (s : State) (o : Origin) (p : Port), s.hub.hold = .run → s.now.clear o (Obj.TK_TEST_MODE p) 0 → ∀ g, g = s.now.written (Obj.TK_TEST_MODE p) →
    exec (.testModeInService o p) s = .next (s.after ((g.inService p).ret o rcOk))) ∧
  -- TEST_MODE_SERIAL_LOOP (R168)
  (∀ (s : State) (o : Origin) (p : Port), s.hub.hold = .run → s.now.clear o (Obj.TK_TEST_MODE p) 1 → ∀ g, g = s.now.written (Obj.TK_TEST_MODE p) →
    exec (.testModeSerialLoop o p) s = .next (s.after (((g.enterLoop p 1 true false).put (Obj.TK_TEST_MODE p) 1).ret o rcOk))) ∧
  -- TEST_MODE_PARALLEL_LOOP (R168)
  (∀ (s : State) (o : Origin) (p : Port), s.hub.hold = .run → s.now.clear o (Obj.TK_TEST_MODE p) 2 → ∀ g, g = s.now.written (Obj.TK_TEST_MODE p) →
    exec (.testModeParallelLoop o p) s = .next (s.after (((g.enterLoop p 2 true false).put (Obj.TK_TEST_MODE p) 2).ret o rcOk))) ∧
  -- TEST_MODE_FAR_LOOP (R169)
  (∀ (s : State) (o : Origin) (p : Port) (honoured : Bool), s.hub.hold = .run → s.now.clear o (Obj.TK_TEST_MODE p) 3 → ∀ g, g = s.now.written
    (Obj.TK_TEST_MODE p) → exec (.testModeFarLoop o p honoured) s = .next (s.after ((g.farLoopAsk p honoured).2.ret o (g.farLoopAsk p
    honoured).1))) ∧
  -- FAR_LOOP_REQUEST_RX (R169)
  (∀ (s : State) (p : Port) (content : Option (List Byte)) (c : List Byte), s.hub.hold = .run → ∀ h, h = s.now → content = some c → byteAt c 0 = 3
    → exec (.farLoopRequestRx p content) s = .next (s.after ((h.setLink p fun k => { k with ctrlGap := 0 }).farLoopRx p c))) ∧
  -- FAR_LOOP_TIMEOUT (R171)
  (∀ (s : State) (p : Port), s.hub.hold = .run → ∀ h, h = s.now → (h.due (.farLoop p)) = true → exec (.farLoopTimeout p) s = .next (s.after
    (h.leaveLoop p))) ∧
  -- TST_START (R170)
  (∀ (s : State) (o : Origin) (p : Port) (l : Lane), s.hub.hold = .run → s.now.clear o (Obj.TST_CONTROL p l) 1 → ∀ g, g = s.now.written
    (Obj.TST_CONTROL p l) → exec (.tstStart o p l) s = .next (s.after ((g.tstStart p l).2.ret o (g.tstStart p l).1))) ∧
  -- TST_STOP (R170)
  (∀ (s : State) (o : Origin) (p : Port) (l : Lane), s.hub.hold = .run → s.now.clear o (Obj.TST_CONTROL p l) 2 → ∀ g, g = s.now.written
    (Obj.TST_CONTROL p l) → exec (.tstStop o p l) s = .next (s.after ((g.tstStop p l).ret o rcOk))) ∧
  -- TST_INJECT_ERROR (R170)
  (∀ (s : State) (o : Origin) (p : Port) (l : Lane), s.hub.hold = .run → s.now.clear o (Obj.TST_CONTROL p l) 3 → ∀ g, g = s.now.written
    (Obj.TST_CONTROL p l) → exec (.tstInjectError o p l) s = .next (s.after ((g.tstInject p l).ret o rcOk))) ∧
  -- EYE_SCAN_START (R174)
  (∀ (s : State) (o : Origin) (p : Port) (l : Lane), s.hub.hold = .run → s.now.clear o (Obj.EYE_CONTROL p l) 1 → ∀ g, g = s.now.written
    (Obj.EYE_CONTROL p l) → exec (.eyeScanStart o p l) s = .next (s.after ((g.eyeStart p l).ret o rcOk))) ∧
  -- EYE_SCAN_ABORT (R176)
  (∀ (s : State) (o : Origin) (p : Port) (l : Lane), s.hub.hold = .run → s.now.clear o (Obj.EYE_CONTROL p l) 2 → ∀ g, g = s.now.written
    (Obj.EYE_CONTROL p l) → exec (.eyeScanAbort o p l) s = .next (s.after ((g.eyeAbort p l).ret o rcOk))) ∧
  -- EYE_POINT_DONE (R173)
  (∀ (s : State) (p : Port) (l : Lane) (count : W32), s.hub.hold = .run → ∀ h, h = s.now → (h.due (.eyePoint p l)) = true → exec (.eyePointDone p
    l count) s = .next (s.after (h.eyePoint p l count.toNat)))

/-- Completion of the commands of the table for lane allotment, phase changes, reversal and swaps of a trunk: each answers the state after its own
effect. -/
def Obligations.AllotmentCommandsComplete : Prop :=
  -- ROOT_EPOCH_CONTROL_SEND (R220)
  (∀ (s : State) (p : Port), s.hub.hold = .run → ∀ h, h = s.now → (h.linkUp p && h.trunkEnd p == 1 && h.due (.rootSend p)) = true → exec
    (.rootEpochControlSend p) s = .next (s.after (h.rootSend p))) ∧
  -- EPOCH_CONTROL_RX (R219)
  (∀ (s : State) (p : Port) (content : Option (List Byte)) (c : List Byte), s.hub.hold = .run → ∀ h, h = s.now → content = some c → byteAt c 0 = 1
    → exec (.epochControlRx p content) s = .next (s.after ((h.setLink p fun k => { k with ctrlGap := 0 }).epochRx p c))) ∧
  -- REPORT_MISSING (R228)
  (∀ (s : State) (p : Port), s.hub.hold = .run → ∀ h, h = s.now → (h.linkUp p && h.trunkEnd p == 1 && h.due (.reportBound p) &&
    !h.links[p].reported) = true → exec (.reportMissing p) s = .next (s.after (((h.bump (Obj.REPORT_MISSING p)).disarm (.reportBound p)).icSet
    p.val))) ∧
  -- PLAN_CHOICE (R227)
  (∀ (s : State) (o : Origin) (p : Port) (v : Option W32), s.hub.hold = .run → s.now.clear o (Obj.PLAN_CHOICE p) ((v.map BitVec.toNat).getD
    (s.now.planned p)) → ∀ h, h = s.now → h.isPlanner o = true → ∀ g, g = s.now.written (Obj.PLAN_CHOICE p) → exec (.planChoice o p v) s = .next
    (s.after ((g.planChoice p ((v.map BitVec.toNat).getD (s.now.planned p))).ret o rcOk))) ∧
  -- PLAN_LATE (R227)
  (∀ (s : State) (p : Port), s.hub.hold = .run → ∀ h, h = s.now → h.due (.planDeadline p) = true → h.linkUp p = true → h.trunkEnd p = 1 →
    h.links[p].choice = none → h.eff (Obj.ALLOT_MODE p) ≠ 1 → exec (.planLate p) s = .next (s.after (((((h.disarm (.planDeadline p)).bump
    (Obj.PLAN_LATE p)).put (Obj.DOWN_COUNT p) 0).setLink p fun k => { k with late := true })))) ∧
  -- SWAP_CMD (R239)
  (∀ (s : State) (o : Origin) (p : Port) (v : W32), s.hub.hold = .run → s.now.clear o (Obj.SWAP_CMD p) v.toNat → ∀ g, g = s.now.written
    (Obj.SWAP_CMD p) → exec (.swapCmd o p v) s = .next (s.after ((g.setLink p fun k => { k with swapCmd := true }).ret o rcOk))) ∧
  -- SWAP_HOLD_EXPIRY (R239)
  (∀ (s : State) (p : Port) (t : Nat), s.hub.hold = .run → ∀ h, h = s.now → h.links[p].swapSince = some t → h.linkUp p = true → h.flag
    (Obj.SWAP_AUTO p) = true → h.evalEnd p = 1 → h.trunkEnd p = 2 → h.links[p].swapAt = none → t + ms (h.get (Obj.SWAP_HOLD p)) ≤ h.now → exec
    (.swapHoldExpiry p) s = .next (s.after (h.swapAsk p 1))) ∧
  -- SWAP_REQUEST_RX (R241)
  (∀ (s : State) (p : Port) (content : Option (List Byte)) (c : List Byte), s.hub.hold = .run → ∀ h, h = s.now → content = some c → byteAt c 0 = 7
    → byteAt c 2 % 4 = 1 → exec (.swapRequestRx p content) s = .next (s.after ((h.setLink p fun k => { k with ctrlGap := 0 }).swapRequest p c))) ∧
  -- SWAP_ACCEPT_RX (R240)
  (∀ (s : State) (p : Port) (content : Option (List Byte)) (c : List Byte), s.hub.hold = .run → ∀ h, h = s.now → content = some c → byteAt c 0 = 7
    → byteAt c 2 % 4 = 2 → exec (.swapAcceptRx p content) s = .next (s.after ((h.setLink p fun k => { k with ctrlGap := 0 }).swapAccept p c))) ∧
  -- SWAP_REFUSE_RX (R244)
  (∀ (s : State) (p : Port) (content : Option (List Byte)) (c : List Byte), s.hub.hold = .run → ∀ h, h = s.now → content = some c → byteAt c 0 = 7
    → byteAt c 2 % 4 = 3 → exec (.swapRefuseRx p content) s = .next (s.after ((h.setLink p fun k => { k with ctrlGap := 0 }).swapRefusal p c))) ∧
  -- SWAP_NO_REPLY (R240)
  (∀ (s : State) (p : Port) (a b t : Nat), s.hub.hold = .run → ∀ h, h = s.now → h.links[p].swapReq = some (a, b, t) → t + 4 ≤ h.get
    (Obj.LINK_EPOCH_COUNT p) → exec (.swapNoReply p) s = .next (s.after (((h.setLink p fun k => { k with swapReq := none }).put (Obj.SWAP_STATE p)
    0).put (Obj.SWAP_RESULT p) 5))) ∧
  -- PHASE_CHANGE (R208)
  (∀ (s : State) (o : Origin) (p : Port) (v : W32), s.hub.hold = .run → s.now.clear o (Obj.PHASE_CHANGE p) v.toNat → ∀ g, g = s.now.written
    (Obj.PHASE_CHANGE p) → exec (.phaseChange o p v) s = .next (s.after ((g.announcePhase p 0).ret o rcOk))) ∧
  -- PHASE_INTERVAL_EXPIRY (R208)
  (∀ (s : State) (p : Port), s.hub.hold = .run → ∀ h, h = s.now → exec (.phaseIntervalExpiry p) s = .next (s.after (h.phaseInterval p))) ∧
  -- KEY_PHASE_ANNOUNCE_RX (R616)
  (∀ (s : State) (p : Port) (content : Option (List Byte)) (c : List Byte), s.hub.hold = .run → ∀ h, h = s.now → content = some c → byteAt c 0 = 4
    → exec (.keyPhaseAnnounceRx p content) s = .next (s.after ((h.setLink p fun k => { k with ctrlGap := 0 }).phaseRx p c)))

/-- Completion of the commands of the table for cell ingress, spill, blend slots, tunnel floors and gates of the switch core: each answers the
state after its own effect. -/
def Obligations.BlendCommandsComplete : Prop :=
  -- CELL_INGRESS (R255)
  (∀ (s : State) (ing : Fin 14) (cell : Option CellIn), s.hub.hold = .run → ∀ h, h = s.now → exec (.cellIngress ing cell) s = .next (s.after (
      (match cell with | some c => h.present ⟨ing.val, c.chan.toNat, c.hdr, c.body, c.gap, false⟩ | none => h).ingressNext ing.val))) ∧
  -- SPILL_READBACK (R278)
  (∀ (s : State) (i : Nat), s.hub.hold = .run → ∀ h, h = s.now → h.staged_ < 1024 → h.core.spillBusy = false → h.domOn 23 = true → h.spillRoom =
    true → firstBelow h.nearHead h.core.cells.length = some i → exec .spillReadback s = .next (s.after (
      let g := h.setCore fun c => { c with cells := c.cells.modify i fun x => { x with place := .staging } }
      let c := ((g.core.cells[i]?).map (·.cls)).getD 0
      ((g.bump Obj.SPILL_READS).peak Obj.POT_OCC_PEAK g.potOcc).peak (Obj.CLASS_PEAK c) (g.classCells c)))) ∧
  -- BLEND_SLOT (R284)
  (∀ (s : State) (p : Egress) (l : Lane) (ecc : Fin 4), s.hub.hold = .run → ∀ h, h = s.now → h.hasSlot p.val l = true → exec (.blendSlot p l ecc)
    s = .next (s.after (h.blendSlot p.val l ecc))) ∧
  -- TUN_FLOOR_WRITE (R274)
  (∀ (s : State) (o : Origin) (t : Tunnel) (v : W32), s.hub.hold = .run → s.now.clear o (Obj.TUN_FLOOR t) v.toNat → ∀ g, g = s.now.written
    (Obj.TUN_FLOOR t) → exec (.tunFloorWrite o t v) s = .next (s.after ((g.floorWrite t v.toNat).2.ret o (g.floorWrite t v.toNat).1))) ∧
  -- GATE_CYCLE_START (R297)
  (∀ (s : State) (p : Port), s.hub.hold = .run → ∀ h, h = s.now → exec (.gateCycleStart p) s = .next (s.after (h.gateCycle p))) ∧
  -- GATE_ENTRY_CHANGE (R297)
  (∀ (s : State) (p : Port), s.hub.hold = .run → ∀ h, h = s.now → exec (.gateEntryChange p) s = .next (s.after (h.gateNow p.val)))

/-- Completion of the commands of the table for PCIe, TLP tunnels and DMA channels: each answers the state after its own effect. -/
def Obligations.PcieCommandsComplete : Prop :=
  -- PCIE_TLP_EGRESS (R321)
  (∀ (s : State) (port : Fin 2) (t : Tunnel) (cells : Option (List (List Byte))), s.hub.hold = .run → ∀ h, h = s.now → exec (.pcieTlpEgress port t
    cells) s = .next (s.after (
      match cells with
      | some cs => h.tlpEgress port t.val cs
      | none => match h.tlpWaiting port t.val with | some (cs, h) => h.tlpEgress port t.val cs | none => h))) ∧
  -- FENCE_RELEASE (R321)
  (∀ (s : State) (t : Tunnel), s.hub.hold = .run → ∀ h, h = s.now → exec (.fenceRelease t) s = .next (s.after ((h.tlpEnds t.val).foldl (fun h p =>
    h.fenceGo p t.val (h.tlpTun t.val p).held.length) h))) ∧
  -- CREDIT_CELL_RX (R322)
  (∀ (s : State) (port : Fin 2) (t : Tunnel) (content : Option (List Byte)), s.hub.hold = .run → ∀ h, h = s.now → exec (.creditCellRx port t
    content) s = .next (s.after (
      match content with
      | some b => h.freedIn port t.val (ofBE (slice b 2 2))
      | none => match h.tlpMessage port t.val 1 with | some (b, h) => h.freedIn port t.val (ofBE (slice b 2 2)) | none => h))) ∧
  -- CREDIT_CELL_SEND (R322)
  (∀ (s : State) (t : Tunnel), s.hub.hold = .run → ∀ h, h = s.now → h.tlpEnds t.val ≠ [] → exec (.creditCellSend t) s = .next (s.after ((h.tlpEnds
    t.val).foldl (fun h p => h.creditSend t.val p) h))) ∧
  -- PCIE_RESET_MESSAGE_RX (R314)
  (∀ (s : State) (port : Fin 2) (t : Tunnel) (content : Option (List Byte)), s.hub.hold = .run → ∀ h, h = s.now → exec (.pcieResetMessageRx port t
    content) s = .next (s.after (
      match content with
      | some b => h.resetMsgRx port t.val b
      | none => match h.tlpMessage port t.val 2 with | some (b, h) => h.resetMsgRx port t.val b | none => h))) ∧
  -- UPSTREAM_RESET (R314)
  (∀ (s : State) (port : Fin 2) (fundamental : Bool), s.hub.hold = .run → ∀ h, h = s.now → h.pcie.role[port] = 1 → exec (.upstreamReset port
    fundamental) s = .next (s.after (h.upstreamReset port fundamental))) ∧
  -- UPSTREAM_LINK_UP (R317)
  (∀ (s : State) (port : Fin 2) (speed : Fin 5) (width : Fin 3), s.hub.hold = .run → ∀ h, h = s.now → exec (.upstreamLinkUp port speed width) s =
    .next (s.after (h.upstreamUp port (speed.val + 1) (width.val + 1)))) ∧
  -- PCIE_DL_CHANGE (R331)
  (∀ (s : State) (unit : W64) (port : Fin 2) (link : Fin 8) (speed : Fin 5) (width : Fin 3), s.hub.hold = .run → ∀ h, h = s.now → unit =
    Config.unitId ∨ h.pcie.rps.any (fun r => r.1 == unit.toNat && r.2.1 == port.val) = true → exec (.pcieDlChange unit port link speed width) s =
    .next (s.after (if unit = Config.unitId then h.linkEnters port link.val (speed.val + 1) (width.val + 1) else h.rpChange unit.toNat port.val
    (some (Nat.ble 3 link.val && Nat.ble link.val 5))))) ∧
  -- NP_TIMEOUT (R327)
  (∀ (s : State) (id : Nat) (e : NpEntry), s.hub.hold = .run → ∀ h, h = s.now → h.due (.npTimeout id) = true → (h.pcie.np.find? fun e => e.id ==
    id) = some e → exec (.npTimeout id) s = .next (s.after ((((h.npEnd e 2).bump Obj.CPL_SYNTH_CA).event 0x33 Obj.CPL_SYNTH_CA).npResume))) ∧
  -- COMPLETION_RX (R325)
  (∀ (s : State) (key : NpKey) (status : Fin 3) (final : Bool) (data : List Byte), s.hub.hold = .run → ∀ h, h = s.now → exec (.completionRx key
    status final data) s = .next (s.after ((h.completionIn key data).completion key status.val final data))) ∧
  -- DMA_TAIL_WRITE (R336)
  (∀ (s : State) (o : Origin) (ch : Fin 64) (v : W32), s.hub.hold = .run → s.now.clear o (Obj.DMA_TAIL ch) v.toNat → ∀ g, g = s.now.written
    (Obj.DMA_TAIL ch) → exec (.dmaTailWrite o ch v) s = .next (s.after ((g.put (Obj.DMA_TAIL ch) v.toNat).ret o rcOk))) ∧
  -- DMA_DESCRIPTOR_FETCH (R336)
  (∀ (s : State) (ch : Fin 64), s.hub.hold = .run → ∀ h, h = s.now → exec (.dmaDescriptorFetch ch) s = .next (s.after (h.dmaFetch ch))) ∧
  -- DMA_FAULT (R337)
  (∀ (s : State) (ch : Fin 64), s.hub.hold = .run → ∀ h, h = s.now → (h.get (Obj.DMA_ENABLE ch) = 1) → exec (.dmaFault ch) s = .next (s.after
    (h.dmaStop ch)))

/-- Completion of the commands of the table for camera tunnels and triggers: each answers the state after its own effect. -/
def Obligations.CameraCommandsComplete : Prop :=
  -- CSI_FRAME_START (R344)
  (∀ (s : State) (c vc : Fin 4) (k : CsiPkt) (num : W16), s.hub.hold = .run → ∀ h, h = s.now → (h.csiHeader c k).1 = true → exec (.csiFrameStart c
    vc k num) s = .next (s.after ((h.csiHeader c k).2.frameStart c vc num.toNat))) ∧
  -- CSI_LINE_PACKET (R346)
  (∀ (s : State) (c vc : Fin 4) (k : CsiPkt) (dt : Byte) (data : List Byte) (crcOk : Bool), s.hub.hold = .run → ∀ h, h = s.now → (h.csiHeader c
    k).1 = true → exec (.csiLinePacket c vc k dt data crcOk) s = .next (s.after ((h.csiHeader c k).2.longPacket c vc dt.toNat data crcOk))) ∧
  -- CSI_FRAME_END (R349)
  (∀ (s : State) (c vc : Fin 4) (k : CsiPkt), s.hub.hold = .run → ∀ h, h = s.now → (h.csiHeader c k).1 = true → exec (.csiFrameEnd c vc k) s =
    .next (s.after ((h.csiHeader c k).2.frameEnd c vc))) ∧
  -- FE_TIMEOUT (R349)
  (∀ (s : State) (st : Fin 16), s.hub.hold = .run → ∀ h, h = s.now → (h.due (.feTimeout st)) = true → exec (.feTimeout st) s = .next (s.after
    (h.closeFrame st true))) ∧
  -- TRIG_GROUP_APPLY (R354)
  (∀ (s : State) (t : Fin 8), s.hub.hold = .run → ∀ h, h = s.now → h.due (.trigApply t) = true → (h.trig[t]).pulse = false → exec (.trigGroupApply
    t) s = .next (s.after (h.trigTake t))) ∧
  -- TRIGGER_EDGE (R354)
  (∀ (s : State) (t : Fin 8), s.hub.hold = .run → ∀ h, h = s.now → (h.trig[t]).runs = true → (h.trig[t]).pulse = false → h.trigAt t (h.trig[t]).k
    ≤ h.netNs → h.domOn 20 = true → exec (.triggerEdge t) s = .next (s.after (
      let g := h.put (Obj.TRIG_LAST t) (h.trigAt t (h.trig[t]).k)
      let g := g.setTrig t { h.trig[t] with k := (h.trig[t]).k + 1, pulse := true, runs := g.get (Obj.TRIG_MODE t) == 2 }
      (g.trigBall t true).arm (.trigEnd t) (g.get (Obj.TRIG_WIDTH t))))) ∧
  -- TRIGGER_PULSE_END (R355)
  (∀ (s : State) (t : Fin 8), s.hub.hold = .run → ∀ h, h = s.now → (h.due (.trigEnd t)) = true → exec (.triggerPulseEnd t) s = .next (s.after
    (h.trigDown t))) ∧
  -- CSI_STOP_STATE (R341)
  (∀ (s : State) (c : Fin 4) (stop fault : Bool) (rate : W16), s.hub.hold = .run → ∀ h, h = s.now → h.get (Obj.CSI_STATE c) ≠ 0 → h.domOn 20 =
    true → exec (.csiStopState c stop fault rate) s = .next (s.after ((h.put (Obj.CSI_STATE c) (if fault then 4 else if stop then 2 else 3)).put
    (Obj.CSI_RATE c) rate.toNat)))

/-- Completion of the commands of the table for display scan-out, flips, update records and self-refresh: each answers the state after its own
effect. -/
def Obligations.DisplayCommandsComplete : Prop :=
  -- HPD_LONG_PULSE (R359)
  (∀ (s : State) (p : Fin 2) (high : Bool), s.hub.hold = .run → ∀ h, h = s.now → h.domOn 19 = true → h.flag (Obj.DISP_ENABLE p) = true → exec
    (.hpdLongPulse p high) s = .next (s.after (
      let g := h.setDisp p fun d => { d with hpd := high }
      if high then
        (((g.disarm (.window p)).setDisp p fun d => { d with runs := false, frame := none }).dispTrain p)
      else
        (let k := g.dispOff p; if k.flag (Obj.DISP_ENABLE p) then k.put (Obj.DISP_LINK p) 1 else k)))) ∧
  -- IRQ_HPD (R360)
  (∀ (s : State) (p : Fin 2) (lost : Bool), s.hub.hold = .run → ∀ h, h = s.now → (h.bump (Obj.HPD_IRQS p)).domOn 19 = true → exec (.irqHpd p lost)
    s = .next (s.after (
      let g := (h.bump (Obj.HPD_IRQS p)).emit (.auxRead p false); if lost && g.get (Obj.DISP_LINK p) == 4 then g.dispRetrain p else g))) ∧
  -- DISP_ENABLE_WRITE (R359)
  (∀ (s : State) (o : Origin) (p : Fin 2) (v : W32), s.hub.hold = .run → s.now.clear o (Obj.DISP_ENABLE p) v.toNat → ∀ g, g = s.now.written
    (Obj.DISP_ENABLE p) → exec (.dispEnableWrite o p v) s = .next (s.after ((g.dispWritten p v.toNat).ret o rcOk))) ∧
  -- EDP_HPD_TIMEOUT (R381)
  (∀ (s : State), s.hub.hold = .run → ∀ h, h = s.now → (h.due .edpHpd) = true → exec .edpHpdTimeout s = .next (s.after ((h.disarm
    .edpHpd).dispFail 0))) ∧
  -- EDP_BACKLIGHT_TIMER (R381)
  (∀ (s : State), s.hub.hold = .run → ∀ h, h = s.now → h.due .edpBacklight = true → exec .edpBacklightTimer s = .next (s.after (
      let g := h.disarm .edpBacklight
      if g.flag (Obj.DISP_ENABLE 0) then (g.setDisp 0 fun d => { d with blen := true }).panelOut else ((g.dispOff 0).setDisp 0 fun d =>
          { d with vdden := false, hpd := false }).panelOut))) ∧
  -- UPDATE_RECORD_RX (R369)
  (∀ (s : State) (t : Tunnel) (rec_ : Option (List Byte × Option Nat)), s.hub.hold = .run → ∀ h, h = s.now → (h.tunUsed t && h.hasEnd t 14 &&
    h.domOn 19 && !h.core.stalls.contains (t.val, 14)) = true → exec (.updateRecordRx t rec_) s = .next (s.after (
      match rec_ with
      | some (bytes, gapAt) => h.record t bytes gapAt
      | none => match h.messageTake 14 t with | some (cs, h) => h.record t (cs.map InCell.bytes).flatten (gapPlace cs) | none => h))) ∧
  -- FLIP_CMD (R371)
  (∀ (s : State) (o : Origin) (q : Fin 4) (v : W32), s.hub.hold = .run → s.now.clear o (Obj.FLIP_CMD q) v.toNat → ∀ g, g = s.now.written
    (Obj.FLIP_CMD q) → exec (.flipCmd o q v) s = .next (s.after ((g.markFlip q 0 none).ret o rcOk))) ∧
  -- COMMIT_WINDOW_OPEN (R372)
  (∀ (s : State) (p : Fin 2), s.hub.hold = .run → ∀ h, h = s.now → (h.due (.window p) && h.domOn 19) = true → exec (.commitWindowOpen p) s = .next
    (s.after (h.window p))) ∧
  -- FLIP_CARRY_END (R374)
  (∀ (s : State) (q : Fin 4), s.hub.hold = .run → ∀ h, h = s.now → (h.due (.carry q)) = true → exec (.flipCarryEnd q) s = .next (s.after
    (h.carryEnd q))) ∧
  -- DISP_UNDERRUN (R366)
  (∀ (s : State) (p : Fin 2) (line x : W16), s.hub.hold = .run → ∀ h, h = s.now → (h.disp[p]).runs = true → h.domOn 19 = true → line.toNat < h.get
    (Obj.V_ACTIVE p) → x.toNat < h.get (Obj.H_ACTIVE p) → exec (.dispUnderrun p line x) s = .next (s.after (
      let g := (h.emit (.dispBlack p line.toNat x.toNat)).bump (Obj.UNDERRUN_LINES p)
      if (h.disp[p]).under = some (h.frameCount p) then g else (g.event 0x37 (Obj.UNDERRUN_LINES p)).setDisp p fun d =>
          { d with under := some (h.frameCount p) }))) ∧
  -- SR_ENTRY_REPORT (R377)
  (∀ (s : State) (p : Fin 2), s.hub.hold = .run → ∀ h, h = s.now → (h.get (Obj.SR_STATE p) = 2 ∧ (h.disp[p]).wait < 2) → exec (.srEntryReport p) s
    = .next (s.after (((h.put (Obj.SR_STATE p) 3).bump (Obj.SR_ENTRIES p)).emit (.mainLink p false false)))) ∧
  -- SR_ENTRY_FAILED (R377)
  (∀ (s : State) (p : Fin 2), s.hub.hold = .run → ∀ h, h = s.now → (h.get (Obj.SR_STATE p) = 2 ∧ 2 ≤ (h.disp[p]).wait) → exec (.srEntryFailed p) s
    = .next (s.after ((((h.put (Obj.SR_STATE p) 1).bump (Obj.SR_ENTRY_FAILS p)).event 0x3A (Obj.SR_ENTRY_FAILS p)).setDisp p fun d =>
    { d with idle := 0, wait := 0 }))) ∧
  -- SR_UPDATE_FRAME_SENT (R378)
  (∀ (s : State) (p : Fin 2), s.hub.hold = .run → ∀ h, h = s.now → (h.get (Obj.SR_STATE p) = 4 ∧ h.srSent p) → exec (.srUpdateFrameSent p) s =
    .next (s.after ((((h.put (Obj.SR_STATE p) 3).bump (Obj.SU_FRAMES p)).emit (.mainLink p false false)).setDisp p fun d =>
    { d with idle := 0, sentAt := none }))) ∧
  -- SR_EXIT_COMPLETE (R379)
  (∀ (s : State) (p : Fin 2), s.hub.hold = .run → ∀ h, h = s.now → (h.get (Obj.SR_STATE p) = 5 ∧ h.srSent p) → exec (.srExitComplete p) s = .next
    (s.after ((h.put (Obj.SR_STATE p) 1).setDisp p fun d => { d with idle := 0, sentAt := none }))) ∧
  -- DISP_LINK_TRAINED (R359)
  (∀ (s : State) (p : Fin 2) (rates : W16) (works : Option W16) (lanes : Fin 5) (srBest : Fin 4) (yGran : Byte) (edid : List Byte) (w : W16),
    s.hub.hold = .run → ∀ h, h = s.now → h.domOn 19 = true → h.get (Obj.DISP_LINK p) = 3 → works = some w → exec (.dispLinkTrained p rates works
    lanes srBest yGran edid) s = .next (s.after (h.dispTrained p w.toNat)))

/-- Completion of the commands of the table for Ethernet, MDIO, network time and the allotment epoch: each answers the state after its own effect. -/
def Obligations.NetworkTimeAndEpochCommandsComplete : Prop :=
  -- REF_RELOCK (R143)
  (∀ (s : State) (p : Port), s.hub.hold = .run → ∀ h, h = s.now → h.leafClock p = true → (h.get (Obj.TK_REF_SOURCE p) = 4 ∨ h.get
    (Obj.TK_REF_SOURCE p) = 1) ∨ h.get (Obj.TK_REF_SOURCE p) = 5 → exec (.refRelock p) s = .next (s.after ((h.setLink p fun k =>
    { k with l0Lock := true }).refChoose))) ∧
  -- ETH_FRAME_RX (R385)
  (∀ (s : State) (e : Fin 2) (fcsOk : Bool) (frame : List Byte) (ptp : Option PtpOut), s.hub.hold = .run → ∀ h, h = s.now → exec (.ethFrameRx e
    fcsOk frame ptp) s = .next (s.after (h.frameRx e fcsOk frame ptp))) ∧
  -- ETH_EGRESS_REASSEMBLY (R388)
  (∀ (s : State) (e : Fin 2) (cell : Option (Tunnel × CellIn)), s.hub.hold = .run → ∀ h, h = s.now → exec (.ethEgressReassembly e cell) s = .next
    (s.after (
      match cell with
      | some (t, c) => h.reassemble e t.val c.hdr c.body c.gap
      | none => match h.inboxTake (8 + e.val) fun _ => true with | some (c, h) => h.reassemble e c.tun c.hdr c.body c.gap | none => h))) ∧
  -- MDIO_READ (R384)
  (∀ (s : State) (o : Origin) (e : Fin 2) (v : W32), s.hub.hold = .run → s.now.clear o (Obj.MDIO_CMD e) ((v ||| 0x40000000).toNat) → ∀ g, g =
    s.now.written (Obj.MDIO_CMD e) → exec (.mdioRead o e v) s = .next (s.after ((g.mdioStart e (v ||| 0x40000000)).ret o rcOk))) ∧
  -- MDIO_WRITE (R384)
  (∀ (s : State) (o : Origin) (e : Fin 2) (v : W32), s.hub.hold = .run → s.now.clear o (Obj.MDIO_CMD e) ((v &&& 0xBFFFFFFF).toNat) → ∀ g, g =
    s.now.written (Obj.MDIO_CMD e) → exec (.mdioWrite o e v) s = .next (s.after ((g.mdioStart e (v &&& 0xBFFFFFFF)).ret o rcOk))) ∧
  -- GPTP_SAMPLE (R390)
  (∀ (s : State) (o : Origin) (v : W32) (slave : Fin 2), s.hub.hold = .run → s.now.clear o Obj.GPTP_SAMPLE v.toNat → ∀ h, h = s.now → h.isPtp o =
    true → ∀ g, g = s.now.written Obj.GPTP_SAMPLE → exec (.gptpSample o v slave) s = .next (s.after ((g.gptpTake v.toNat slave).ret o rcOk))) ∧
  -- TIME_COUNTER_START (R693)
  (∀ (s : State), s.hub.hold = .run → ∀ h, h = s.now → h.netRuns = false → exec .timeCounterStart s = .next (s.after
    ({ h with netRuns := true, netTime := 0 }))) ∧
  -- TIME_EXCHANGE_SEND (R399)
  (∀ (s : State) (p : Port), s.hub.hold = .run → ∀ h, h = s.now → h.linkUp p = true → h.due (.exchange p) = true → exec (.timeExchangeSend p) s =
    .next (s.after (h.exchangeSend p))) ∧
  -- TIME_EXCHANGE_RX (R400)
  (∀ (s : State) (p : Port) (content : Option (List Byte)) (sent : BitVec 96), s.hub.hold = .run → ∀ h, h = s.now → exec (.timeExchangeRx p
    content sent) s = .next (s.after (
      match h.ctrlTake p 2 content with
      | (some c, g) => (if content.isSome then g else g.setX p fun x => { x with heard := x.heard.drop 1 }).exchangeRx p c sent (if content.isSome
          then ⟨0, h.netU, h.net.steps, h.lanesAway p⟩ else (h.xchg[p]).heard.headD ⟨0, h.netU, h.net.steps, h.lanesAway p⟩)
      | (none, g) => g))) ∧
  -- SERVO_SAMPLE_TIMEOUT (R401)
  (∀ (s : State), s.hub.hold = .run → ∀ h, h = s.now → h.due .servoSample = true → h.get Obj.TIME_STATE = 1 ∨ h.get Obj.TIME_STATE = 2 → exec
    .servoSampleTimeout s = .next (s.after ((((h.disarm .servoSample).put Obj.TIME_STATE 3).bump Obj.HOLDOVERS).arm .servoHold (ms (h.get
    Obj.SV_HOLDOVER_LIMIT))))) ∧
  -- SERVO_HOLDOVER_LIMIT (R401)
  (∀ (s : State), s.hub.hold = .run → ∀ h, h = s.now → (h.due .servoHold && h.get Obj.TIME_STATE == 3) = true → exec .servoHoldoverLimit s = .next
    (s.after ((h.put Obj.TIME_STATE 0).disarm .servoHold))) ∧
  -- PPS_OUT_EDGE (R406)
  (∀ (s : State), s.hub.hold = .run → ∀ h, h = s.now → exec .ppsOutEdge s = .next (s.after (h.ppsEdge))) ∧
  -- PPS_IN_EDGE (R406)
  (∀ (s : State), s.hub.hold = .run → ∀ h, h = s.now → exec .ppsInEdge s = .next (s.after (h.ppsIn))) ∧
  -- ETS_CONFIG_CHANGE (R392)
  (∀ (s : State) (e : Fin 2), s.hub.hold = .run → ∀ h, h = s.now → exec (.etsConfigChange e) s = .next (s.after (h.etsChange e))) ∧
  -- ETS_GATE_ENTRY_CHANGE (R392)
  (∀ (s : State) (e : Fin 2), s.hub.hold = .run → ∀ h, h = s.now → exec (.etsGateEntryChange e) s = .next (s.after ((h.etsNow e).macSend e))) ∧
  -- ETH_PHY_LINK_CHANGE (R384)
  (∀ (s : State) (e : Fin 2) (speed : Fin 7), s.hub.hold = .run → ∀ h, h = s.now → exec (.ethPhyLinkChange e speed) s = .next (s.after (h.phyLink
    e speed))) ∧
  -- MDIO_COMPLETE (R384)
  (∀ (s : State) (e : Fin 2) (data : Option W16), s.hub.hold = .run → ∀ h, h = s.now → bitOf (h.get (Obj.MDIO_DATA e)) 16 = true → exec
    (.mdioComplete e data) s = .next (s.after (
      h.put (Obj.MDIO_DATA e) (match data with | some d => d.toNat | none => 2 ^ 17)))) ∧
  -- EPOCH_BOUNDARY (R217)
  (∀ (s : State), s.hub.hold = .run → ∀ h, h = s.now → h.boundaryDue = true → exec .epochBoundary s = .next (s.after (Hub.epochBoundary
    { h with net := { h.net with last := some (h.netNs / 125000) } })))

/-- Completion of the commands of the table for motion cycles and axis links: each answers the state after its own effect. -/
def Obligations.MotionCommandsComplete : Prop :=
  -- MOTION_CYCLE_START (R421)
  (∀ (s : State), s.hub.hold = .run → ∀ h, h = s.now → exec .motionCycleStart s = .next (s.after (h.cycleStartDue))) ∧
  -- COMMAND_DUE (R433)
  (∀ (s : State), s.hub.hold = .run → ∀ h, h = s.now → exec .commandDue s = .next (s.after (h.commandDue))) ∧
  -- AXL_LINK_START (R416)
  (∀ (s : State) (n : Fin 8), s.hub.hold = .run → ∀ h, h = s.now → exec (.axlLinkStart n) s = .next (s.after (h.axlStartCycle n))) ∧
  -- AXL_RESPONSE_FRAME_RX (R418)
  (∀ (s : State) (n slot : Fin 8) (late : W32) (frame : List Byte), s.hub.hold = .run → ∀ h, h = s.now → exec (.axlResponseFrameRx n slot late
    frame) s = .next (s.after (h.axlResponse n slot late.toInt frame))) ∧
  -- RESPONSE_CELL_PRESENT (R426)
  (∀ (s : State) (n : Fin 8), s.hub.hold = .run → ∀ h, h = s.now → exec (.responseCellPresent n) s = .next (s.after (h.respCell n))) ∧
  -- AXL_LINK_CYCLE_END (R416)
  (∀ (s : State) (n : Fin 8), s.hub.hold = .run → ∀ h, h = s.now → exec (.axlLinkCycleEnd n) s = .next (s.after (h.axlEnd n))) ∧
  -- MOTION_CELL_RX (R432)
  (∀ (s : State) (cell : Option (Tunnel × CellIn)), s.hub.hold = .run → ∀ h, h = s.now → h.domOn 24 = true → exec (.motionCellRx cell) s = .next
    (s.after (
      match cell with
      | some (t, c) => h.motionRx t.val (h.get (Obj.TUN_LOCAL t.val) % 32) c.hdr c.body
      | none => match h.inboxTake 10 fun _ => true with | some (c, h) => h.motionRx c.tun (c.chan % 32) c.hdr c.body | none => h))) ∧
  -- RESPONSE_DUE (R434)
  (∀ (s : State), s.hub.hold = .run → ∀ h, h = s.now → exec .responseDue s = .next (s.after (h.responseDue))) ∧
  -- MOTION_SAFE_STOP (R437)
  (∀ (s : State), s.hub.hold = .run → ∀ h, h = s.now → h.mot.request = true → exec .motionSafeStop s = .next (s.after ((((List.finRange 8).foldl
    (fun (h : Hub) (n : Fin 8) => if h.get (Obj.AXL_STATE n) = 1 ∨ h.get (Obj.AXL_STATE n) = 2 then h.safeFrame n (h.mot.last.getD 0) else h)
    { h with mot := { h.mot with request := false, safe := true } }).put Obj.MOT_STATE 3).event 0x40 Obj.MOT_STATE)))

/-- Completion of the commands of the table for GPIO reports and commands, I2C and SPI masters and their polls: each answers the state after its
own effect. -/
def Obligations.GpioAndMasterCommandsComplete : Prop :=
  -- GPIO_OUT_WRITE (R446)
  (∀ (s : State) (o : Origin) (v : W32), s.hub.hold = .run → ∀ h, h = s.now → h.frozen o = false → h.domOn 2 = true → exec (.gpioOutWrite o v) s =
    .next (s.after ((((h.dropBlock 2 0 4).setGpio fun g => { g with out := v }).gpioShow).ret o rcOk))) ∧
  -- GPIO_SET (R446)
  (∀ (s : State) (o : Origin) (v : W32), s.hub.hold = .run → ∀ h, h = s.now → h.frozen o = false → h.domOn 2 = true → exec (.gpioSet o v) s =
    .next (s.after (((h.dropBlock 2 0 8).gpioMasks v 0).ret o rcOk))) ∧
  -- GPIO_CLR (R446)
  (∀ (s : State) (o : Origin) (v : W32), s.hub.hold = .run → ∀ h, h = s.now → h.frozen o = false → h.domOn 2 = true → exec (.gpioClr o v) s =
    .next (s.after (((h.dropBlock 2 0 12).gpioMasks 0 v).ret o rcOk))) ∧
  -- GPIO_SAMPLE (R447)
  (∀ (s : State) (pins : W32), s.hub.hold = .run → ∀ h, h = s.now → exec (.gpioSample pins) s = .next (s.after (h.gpioSample pins))) ∧
  -- GPIO_CHANGE_REPORT_SEND (R447)
  (∀ (s : State), s.hub.hold = .run → ∀ h, h = s.now → (h.domOn 2 && h.gpio.changed != 0 && h.gpioMay) = true → exec .gpioChangeReportSend s =
    .next (s.after (h.gpioReport))) ∧
  -- GPIO_REPORT_PERIOD (R447)
  (∀ (s : State), s.hub.hold = .run → ∀ h, h = s.now → h.domOn 2 = true → h.get Obj.GPIO_REPORT_PERIOD ≠ 0 → h.due .gpioReport = true → exec
    .gpioReportPeriod s = .next (s.after (h.gpioReport))) ∧
  -- GPIO_CHANGE_REPORT_RX (R448)
  (∀ (s : State) (content : Option (List Byte)), s.hub.hold = .run → ∀ h, h = s.now → h.domOn 2 = true → exec (.gpioChangeReportRx content) s =
    .next (s.after (
      match h.msgTake 1 0 0x12 content with | some (body, h) => h.gpioMirror body | none => h))) ∧
  -- GPIO_OUTPUT_CMD_RX (R448)
  (∀ (s : State) (content : Option (List Byte)), s.hub.hold = .run → ∀ h, h = s.now → h.domOn 2 = true → exec (.gpioOutputCmdRx content) s = .next
    (s.after (
      match h.msgTake 1 0 0x11 content with | some (body, h) => h.gpioCmd body | none => h))) ∧
  -- GPIO_TIMED_CMD_APPLY (R448)
  (∀ (s : State), s.hub.hold = .run → ∀ h, h = s.now → (h.domOn 2) = true → exec .gpioTimedCmdApply s = .next (s.after (h.gpioTimed))) ∧
  -- PERIPH_GO (R450)
  (∀ (s : State) (o : Origin) (m : Fin 6) (v : W32), s.hub.hold = .run → ∀ h, h = s.now → h.frozen o = false → h.domOn 2 = true → exec (.periphGo
    o m v) s = .next (s.after (((h.dropBlock 2 0 (goOffset m)).periphGo m v.toNat).ret o rcOk))) ∧
  -- PERIPH_REQUEST_RX (R450)
  (∀ (s : State) (m : Fin 6) (content : Option (List Byte)), s.hub.hold = .run → ∀ h, h = s.now → h.domOn 2 = true → exec (.periphRequestRx m
    content) s = .next (s.after (
      match h.msgTake (masterBlock m).1 (masterBlock m).2 0 content with | some (body, h) => h.periphRequest m body | none => h))) ∧
  -- POLL_DUE (R452)
  (∀ (s : State) (e : Fin 24), s.hub.hold = .run → ∀ h, h = s.now → h.due (.poll e) = true → h.domOn 2 = true → exec (.pollDue e) s = .next
    (s.after (h.pollRun e))) ∧
  -- TRANSACTION_LIST_COMPLETE (R450)
  (∀ (s : State) (m : Fin 6) (code : Fin 4) (bytes : List Byte), s.hub.hold = .run → ∀ h, h = s.now → exec (.transactionListComplete m code bytes)
    s = .next (s.after (h.listDone m code.val bytes)))

/-- Completion of the commands of the table for UARTs and their tunnels: each answers the state after its own effect. -/
def Obligations.UartCommandsComplete : Prop :=
  -- UART_DATA_READ (R443)
  (∀ (s : State) (o : Origin) (n : Fin 4), s.hub.hold = .run → ∀ h, h = s.now → h.frozen o = false → h.domOn 2 = true → exec (.uartDataRead o n) s
    = .next (s.after ((h.uartPop n).2.emit (.data o rcOk (h.uartPop n).1)))) ∧
  -- UART_DATA_WRITE (R443)
  (∀ (s : State) (o : Origin) (n : Fin 4) (v : W32), s.hub.hold = .run → ∀ h, h = s.now → h.frozen o = false → h.domOn 2 = true → exec
    (.uartDataWrite o n v) s = .next (s.after (((h.dropBlock 2 0 (3 * 65536 + 4096 * n.val)).uartPoke n v.toNat).ret o rcOk))) ∧
  -- UART_BYTE_RX (R454)
  (∀ (s : State) (n : Fin 4) (b : Byte) (parity stop : Bool), s.hub.hold = .run → ∀ h, h = s.now → (h.domOn 2) = true → exec (.uartByteRx n b
    parity stop) s = .next (s.after (h.uartByte n b parity stop))) ∧
  -- UART_IDLE_FLUSH (R454)
  (∀ (s : State) (n : Fin 4), s.hub.hold = .run → ∀ h, h = s.now → (h.domOn 2 && h.due (.uartIdle n)) = true → exec (.uartIdleFlush n) s = .next
    (s.after (((h.disarm (.uartIdle n)).setUart n fun u => { u with flush := true }).uartSend n 20))) ∧
  -- UART_DATA_MESSAGE_RX (R455)
  (∀ (s : State) (n : Fin 4) (content : Option (List Byte)), s.hub.hold = .run → ∀ h, h = s.now → h.domOn 2 = true → exec (.uartDataMessageRx n
    content) s = .next (s.after (
      match h.msgTake 4 n 0x42 content with | some (body, h) => if h.get (Obj.UART_BIND n) = 1 then h.uartData n body else h | none => h))) ∧
  -- UART_CREDIT_MESSAGE_RX (R455)
  (∀ (s : State) (n : Fin 4) (content : Option (List Byte)), s.hub.hold = .run → ∀ h, h = s.now → h.domOn 2 = true → exec (.uartCreditMessageRx n
    content) s = .next (s.after (
      match h.msgTake 4 n 0x41 content with | some (body, h) => h.uartCreditRx n body | none => h))) ∧
  -- UART_GROUP_APPLY (R453)
  (∀ (s : State) (n : Fin 4) (rxIdle : Bool), s.hub.hold = .run → ∀ h, h = s.now → rxIdle = true → (h.uarts[n]).shift = false → exec
    (.uartGroupApply n rxIdle) s = .next (s.after (
      let g := h.takeUnit .uart fun w => w.key / 256 == 0x550C + n.val
      if g.rtsCts n then g.emit (.uartRts n (Nat.ble ((g.uarts[n]).rx.length + 1) 1792)) else g))) ∧
  -- UART_CHARACTER_SENT (R455)
  (∀ (s : State) (n : Fin 4) (cts : Bool), s.hub.hold = .run → ∀ h, h = s.now → exec (.uartCharacterSent n cts) s = .next (s.after (
      let g := h.setUart n fun u => { u with shift := false, cts := cts }; if g.domOn 2 then g.uartKick n else g)))

/-- Completion of the commands of the table for USB proxy, device port and wake: each answers the state after its own effect. -/
def Obligations.UsbCommandsComplete : Prop :=
  -- USB_PROXY_TRANSACTION (R457)
  (∀ (s : State) (tok : UsbTok) (key : W16) (bytes : List Byte), s.hub.hold = .run → ∀ h, h = s.now → exec (.usbProxyTransaction tok key bytes) s
    = .next (s.after (h.usbProxy tok key bytes))) ∧
  -- USB_OVERCURRENT (R458)
  (∀ (s : State) (port : Fin 3), s.hub.hold = .run → ∀ h, h = s.now → h.usbOn = true → exec (.usbOvercurrent port) s = .next (s.after (h.usbOver
    port))) ∧
  -- USB_SUSPEND (R459)
  (∀ (s : State), s.hub.hold = .run → ∀ h, h = s.now → h.usbOn = true → h.get Obj.USB_STATE ≠ 5 → exec .usbSuspend s = .next (s.after
    (h.usbSuspend))) ∧
  -- USB_RESUME (R459)
  (∀ (s : State), s.hub.hold = .run → ∀ h, h = s.now → exec .usbResume s = .next (s.after (h.wakeLost.usbResume))) ∧
  -- USB_SETUP_RX (R461)
  (∀ (s : State) (toHub : Bool) (pkt : W64), s.hub.hold = .run → ∀ h, h = s.now → exec (.usbSetupRx toHub pkt) s = .next (s.after (h.usbSetup
    toHub pkt))) ∧
  -- USB_BUS_RESET (R462)
  (∀ (s : State) (upstream : Bool), s.hub.hold = .run → ∀ h, h = s.now → exec (.usbBusReset upstream) s = .next (s.after (h.usbReset upstream))) ∧
  -- DEV_WAKE (R463)
  (∀ (s : State) (o : Origin) (v : W32), s.hub.hold = .run → s.now.clear o Obj.DEV_WAKE v.toNat → ∀ g, g = s.now.written Obj.DEV_WAKE → exec
    (.devWake o v) s = .next (s.after ((g.wakeAsk).ret o rcOk))) ∧
  -- WAKE_DRIVE_START (R463)
  (∀ (s : State), s.hub.hold = .run → ∀ h, h = s.now → (h.due .wakeStart && h.get Obj.DEV_WAKE_STATUS == 1) = true → exec .wakeDriveStart s =
    .next (s.after ((((h.put Obj.DEV_WAKE_STATUS 2).disarm .wakeStart).arm .wakeEnd (ms 2)).emit (.usbWake true)))) ∧
  -- WAKE_DRIVE_END (R463)
  (∀ (s : State), s.hub.hold = .run → ∀ h, h = s.now → (h.due .wakeEnd && h.get Obj.DEV_WAKE_STATUS == 2) = true → exec .wakeDriveEnd s = .next
    (s.after ((((h.put Obj.DEV_WAKE_STATUS 3).disarm .wakeEnd).emit (.usbWake false)).usbResume))) ∧
  -- WAKE_SUPERSEDED (R463)
  (∀ (s : State), s.hub.hold = .run → ∀ h, h = s.now → exec .wakeSuperseded s = .next (s.after (h.wakeLost))) ∧
  -- USB_UPSTREAM_ATTACH (R459)
  (∀ (s : State) (tunnel present : Bool), s.hub.hold = .run → ∀ h, h = s.now → exec (.usbUpstreamAttach tunnel present) s = .next (s.after
    (h.usbAttach tunnel present))) ∧
  -- USB_PORT_CONNECT_CHANGE (R456)
  (∀ (s : State) (port : Fin 3) (connected : Bool) (speed : Fin 3), s.hub.hold = .run → ∀ h, h = s.now → port ≠ 2 → exec (.usbPortConnectChange
    port connected speed) s = .next (s.after (h.usbConnect port connected speed.val))) ∧
  -- USB_TUNNEL_MESSAGE_RX (R457)
  (∀ (s : State) (m : UsbMsg), s.hub.hold = .run → ∀ h, h = s.now → exec (.usbTunnelMessageRx m) s = .next (s.after (h.usbMessage m))) ∧
  -- USB_DEVICE_TRANSFER (R460)
  (∀ (s : State) (x : UsbXfer), s.hub.hold = .run → ∀ h, h = s.now → exec (.usbDeviceTransfer x) s = .next (s.after (h.usbTransfer x)))

/-- Completion of the commands of the table for engine instructions, sleep and wake, claims, completions and raises: each answers the state after
its own effect. -/
def Obligations.EngineAndInterruptCommandsComplete : Prop :=
  -- ENGINE_INSTRUCTION (R465)
  (∀ (s : State) (e : Engine) (ecc : Fin 4) (below : Option W32), s.hub.hold = .run → ∀ h, h = s.now → h.get (Obj.ENG_STATE e.val) = 2 ∨ h.get
    (Obj.ENG_STATE e.val) = 6 → (h.engs[e]).asleep = false → h.domOn (4 + e.val) = true → ecc = 0 → exec (.engineInstruction e ecc below) s =
    .next (s.after (h.engineNext e below))) ∧
  -- ENGINE_WFI (R492)
  (∀ (s : State) (e : Engine), s.hub.hold = .run → ∀ h, h = s.now → h.get (Obj.ENG_STATE e.val) = 2 ∨ h.get (Obj.ENG_STATE e.val) = 6 →
    (h.engs[e]).asleep = false → (h.engs[e]).stall = none → exec (.engineWfi e) s = .next (s.after ((h.setEng e fun s =>
    { s with pc := s.pc + 4, minstret := s.minstret + 1 }).engSleep e))) ∧
  -- ENGINE_WAKE (R492)
  (∀ (s : State) (e : Engine), s.hub.hold = .run → ∀ h, h = s.now → exec (.engineWake e) s = .next (s.after (h.icLevels.engWake e))) ∧
  -- MTIMECMP_MATCH (R468)
  (∀ (s : State) (e : Engine), s.hub.hold = .run → ∀ h, h = s.now → ((h.engs[e]).mtimecmp.toNat ≤ h.now) → exec (.mtimecmpMatch e) s = .next
    (s.after ((h.setEng e fun s => { s with mtip := true }).engWake e))) ∧
  -- TGT_COMPLETE (R490)
  (∀ (s : State) (o : Origin) (t : Fin 14) (v : W32), s.hub.hold = .run → s.now.clear o (Obj.TGT_COMPLETE t.val) v.toNat → ∀ g, g = s.now.written
    (Obj.TGT_COMPLETE t.val) → exec (.tgtComplete o t v) s = .next (s.after ((g.complete t.val v.toNat).ret o rcOk))) ∧
  -- IC_RAISE (R496)
  (∀ (s : State) (o : Origin) (v : W32), s.hub.hold = .run → s.now.clear o Obj.IC_RAISE v.toNat → ∀ g, g = s.now.written Obj.IC_RAISE → exec
    (.icRaise o v) s = .next (s.after ((g.icSet v.toNat).ret o rcOk))) ∧
  -- IC_PENDING_WRITE (R494)
  (∀ (s : State) (o : Origin) (w : Fin 6) (v : W32), s.hub.hold = .run → s.now.clear o (Obj.IC_PENDING w.val) v.toNat → ∀ g, g = s.now.written
    (Obj.IC_PENDING w.val) → exec (.icPendingWrite o w v) s = .next (s.after ((g.icWrite w.val v.toNat).ret o rcOk)))

/-- Completion of the commands of the table for engine control, queues, firmware loading and sandbox loading: each answers the state after its own
effect. -/
def Obligations.FirmwareCommandsComplete : Prop :=
  -- ENGINE_WATCHDOG_EXPIRY (R484)
  (∀ (s : State) (e : Engine), s.hub.hold = .run → ∀ h, h = s.now → (h.due (.wdog e) && h.engLive e.val) = true → exec (.engineWatchdogExpiry e) s
    = .next (s.after ((h.bump (Obj.WDOG_EXPIRIES e.val)).engFault e 0x100))) ∧
  -- ENG_RUN_WRITE (R486)
  (∀ (s : State) (o : Origin) (e : Engine) (v : W32), s.hub.hold = .run → s.now.clear o (Obj.ENG_RUN e.val) v.toNat → ∀ g, g = s.now.written
    (Obj.ENG_RUN e.val) → exec (.engRunWrite o e v) s = .next (s.after ((g.engRun e v.toNat).ret o rcOk))) ∧
  -- ENG_KICK (R486)
  (∀ (s : State) (o : Origin) (e : Engine) (v : W32), s.hub.hold = .run → s.now.clear o (Obj.ENG_KICK e.val) v.toNat → ∀ g, g = s.now.written
    (Obj.ENG_KICK e.val) → exec (.engKick o e v) s = .next (s.after ((g.engKick e).ret o rcOk))) ∧
  -- ENG_RESET (R484)
  (∀ (s : State) (o : Origin) (e : Engine) (v : W32), s.hub.hold = .run → s.now.clear o (Obj.ENG_RESET e.val) v.toNat → ∀ g, g = s.now.written
    (Obj.ENG_RESET e.val) → exec (.engReset o e v) s = .next (s.after ((if v.toNat = 1 then g.engReload e else g).ret o rcOk))) ∧
  -- Q_SW_WRITE (R474)
  (∀ (s : State) (o : Origin) (e : Engine) (q : Fin 8) (v : W32), s.hub.hold = .run → s.now.clear o (Obj.Q_SW e.val q.val) v.toNat → ∀ g, g =
    s.now.written (Obj.Q_SW e.val q.val) → exec (.qSwWrite o e q v) s = .next (s.after ((g.plainWrite o (Obj.Q_SW e.val q.val) v.toNat).2.ret o
    (g.plainWrite o (Obj.Q_SW e.val q.val) v.toNat).1))) ∧
  -- ENGINE_QUEUE_TRANSMIT (R475)
  (∀ (s : State), s.hub.hold = .run → ∀ h, h = s.now → exec .engineQueueTransmit s = .next (s.after (
      if h.core.arrivals.any (fun a => a.ing == 13) then
        h.ingressNext 13
      else
        match firstBelow (fun j => h.txReady ((h.fw.txNext + j) % 96)) 96 with
        | some j => (h.txTake ((h.fw.txNext + j) % 96)).ingressNext 13
        | none => h))) ∧
  -- ROOT_PORT_MSI_WRITE (R470)
  (∀ (s : State) (port : Fin 2) (write : Bool) (addr : W64) (req tag : W16) (tc : Fin 8), s.hub.hold = .run → ∀ h, h = s.now → h.engineOwned port
    = true → write = true → addr.toNat % 4 = 0 → 0xFEE00000 + 4 * 128 ≤ addr.toNat → addr.toNat ≤ 0xFEE00000 + 4 * 191 → exec (.rootPortMsiWrite
    port write addr req tag tc) s = .next (s.after (h.icSet ((addr.toNat - 0xFEE00000) / 4)))) ∧
  -- FW_LOAD_VENDOR (R479)
  (∀ (s : State) (o : Origin), s.hub.hold = .run → s.now.clear o Obj.FW_LOAD_CMD 0x66776C64 → ∀ g, g = s.now.written Obj.FW_LOAD_CMD → exec
    (.fwLoadVendor o) s = .next (s.after ((Hub.fwLoad g).2.ret o (Hub.fwLoad g).1))) ∧
  -- FW_LOAD_SANDBOX (R481)
  (∀ (s : State) (o : Origin), s.hub.hold = .run → s.now.clear o Obj.FW_LOAD_CMD 0x7362786C → ∀ g, g = s.now.written Obj.FW_LOAD_CMD → exec
    (.fwLoadSandbox o) s = .next (s.after ((g.sbxStart).ret o rcOk))) ∧
  -- FW_IMAGE_VERIFIED (R479)
  (∀ (s : State) (sandbox done : Bool) (a b : List Byte), s.hub.hold = .run → ∀ h, h = s.now → sandbox = false → h.fw.loading ≠ 0 → done = true →
    exec (.fwImageVerified sandbox done a b) s = .next (s.after ((h.fwVerified a b).startupStep)))

/-- Completion of the commands of the table for clock monitors, dividers, the recovered clock and reference holdover: each answers the state after
its own effect. -/
def Obligations.ClockCommandsComplete : Prop :=
  -- CLOCK_MONITOR_TRIP (R511)
  (∀ (s : State) (clk : Fin 11) (cause : Fin 4), s.hub.hold = .run → ∀ h, h = s.now → h.monitored clk.val = true → cause.val ≠ 3 → cause.val ≠ 2 ∨
    3 ≤ clk.val → exec (.clockMonitorTrip clk cause) s = .next (s.after (h.clkTrip clk.val (cause.val + 1)))) ∧
  -- CLOCK_QUALIFIED (R506)
  (∀ (s : State) (clk : Fin 11), s.hub.hold = .run → ∀ h, h = s.now → bitOf (h.get Obj.CLK_MON_STATUS) clk.val = false → h.pllReference clk.val =
    true → h.unqualified clk.val = true → exec (.clockQualified clk) s = .next (s.after (h.clockBack clk.val))) ∧
  -- RC_QUAL_TIMEOUT (R512)
  (∀ (s : State), s.hub.hold = .run → ∀ h, h = s.now → h.due .rcQual = true → exec .rcQualTimeout s = .next (s.after (if h.rcReady then h.heldToRc
    else if h.rcReference then (h.disarm .rcQual).clkFailed 4 1 else ((((h.disarm .rcQual).trimSearch.put Obj.RC_STATE 4).put Obj.CLK_FAULT_CAUSE
    (6 + 256)).event 0x48 Obj.RC_STATE).heldToRc))) ∧
  -- CLOCK_REQUALIFIED (R514)
  (∀ (s : State) (clk : Fin 11), s.hub.hold = .run → ∀ h, h = s.now → bitOf (h.get Obj.CLK_MON_STATUS) clk.val = true → h.pllReference clk.val =
    true → exec (.clockRequalified clk) s = .next (s.after (((h.put Obj.CLK_MON_STATUS (clrBit (h.get Obj.CLK_MON_STATUS) clk.val)).clockBack
    clk.val).causesPass.startupCheck))) ∧
  -- CD_DIV_SET_WRITE (R504)
  (∀ (s : State) (o : Origin) (d : Fin 3) (v : W32), s.hub.hold = .run → s.now.clear o (Obj.CD_DIV_SET (d.val + 1)) v.toNat → ∀ g, g =
    s.now.written (Obj.CD_DIV_SET (d.val + 1)) → exec (.cdDivSetWrite o d v) s = .next (s.after ((g.divWritten ⟨d.val + 1, by omega⟩ v.toNat).ret
    o rcOk))) ∧
  -- DIVIDER_RAMP_STEP (R504)
  (∀ (s : State) (d : Fin 3), s.hub.hold = .run → ∀ h, h = s.now → h.due (.divRamp ⟨d.val + 1, by omega⟩) = true → exec (.dividerRampStep d) s =
    .next (s.after (h.divStep ⟨d.val + 1, by omega⟩))) ∧
  -- RC_TRIM_STEP (R508)
  (∀ (s : State) (up : Bool), s.hub.hold = .run → ∀ h, h = s.now → h.due .rcTrim = true → h.trimSource ≠ 0 → up = true → ((h.put
    Obj.RC_TRIM_SOURCE h.trimSource).arm .rcTrim (ms 1)).get Obj.RC_TRIM < 1023 → h.get Obj.RC_TRIM < 1023 → exec (.rcTrimStep up) s = .next
    (s.after ((((h.put Obj.RC_TRIM_SOURCE h.trimSource).arm .rcTrim (ms 1)).put Obj.RC_TRIM (h.get Obj.RC_TRIM + 1)).bump Obj.RC_TRIM_STEPS))) ∧
  -- REFCLK_HOLDOVER_STEER (R511)
  (∀ (s : State), s.hub.hold = .run → ∀ h, h = s.now → h.due .refSteer = true → exec .refclkHoldoverSteer s = .next (s.after ((List.range 2).foldl
    (fun h p => if h.get (Obj.TK_REF_SOURCE p) = 4 ∧ h.trunkEnd p = 1 ∧ h.uplinks.isEmpty ∧ h.get Obj.ROLE_ACTIVE ≠ 0 then ((h.put
    (Obj.TK_REF_SOURCE p) 5).put (Obj.TK_REF_LOCK p) 1).rtpll true else h) (h.disarm .refSteer))))

/-- Completion of the commands of the table for power domains, performance levels, AVS and energy windows: each answers the state after its own
effect. -/
def Obligations.PowerCommandsComplete : Prop :=
  -- DOMAIN_WAKE (R522)
  (∀ (s : State) (d : Domain) (link : Option (Fin 6)), s.hub.hold = .run → ∀ h, h = s.now → exec (.domainWake d link) s = .next (s.after (
      match link with
      | some l => if linkConcerns l.val d.val then h.startWake d 5 l.val else h
      | none => if (h.needRows d).any id then h.startWake d 6 d.val else if h.domState d.val = 1 ∧ h.flag (Obj.PD_WAKE_ON_ACCESS d.val) ∧
          h.cellWaits d then (h.startWake d 2 16).bump (Obj.ACCESS_WAKES d.val) else h))) ∧
  -- DOMAIN_WAKE_LATE (R525)
  (∀ (s : State) (d : Domain), s.hub.hold = .run → ∀ h, h = s.now → h.due (.wakeBound d) = true → h.domState d.val = 3 → (h.doms[d]).late = true →
    exec (.domainWakeLate d) s = .next (s.after (((h.disarm (.wakeBound d)).setSm fun x =>
    { x with powerFaults := d.val :: x.powerFaults.filter (· != d.val) }).report 10 d.val))) ∧
  -- DOMAIN_IDLE_TIMEOUT (R520)
  (∀ (s : State) (d : Domain), s.hub.hold = .run → ∀ h, h = s.now → h.due (.idle d) = true → h.needed d = false → h.restState d ≠ 0 → exec
    (.domainIdleTimeout d) s = .next (s.after (h.restStart d (h.restState d)))) ∧
  -- SCHEDULED_WAKE (R524)
  (∀ (s : State) (d : Domain), s.hub.hold = .run → ∀ h, h = s.now → h.due (.sched d) = true → ¬(4 ≤ d.val ∧ d.val ≤ 15) → exec (.scheduledWake d)
    s = .next (s.after ((h.disarm (.sched d)).startWake d 3 0))) ∧
  -- PL_CHANGE (R528)
  (∀ (s : State), s.hub.hold = .run → ∀ h, h = s.now → (h.put Obj.PL_FLOOR h.plFloor).plTarget ≠ (h.put Obj.PL_FLOOR h.plFloor).get Obj.PL_CURRENT
    → h.sim.level ≠ some (h.put Obj.PL_FLOOR h.plFloor).plTarget → (h.put Obj.PL_FLOOR h.plFloor).get Obj.SIM_MODE = 1 → exec .plChange s = .next
    (s.after (((h.put Obj.PL_FLOOR h.plFloor).setSim fun x =>
    { x with level := some (h.put Obj.PL_FLOOR h.plFloor).plTarget, since := h.now, deferred := false }).simmer))) ∧
  -- DRAM_RATE_CHANGE (R529)
  (∀ (s : State) (measured : W16) (t : Nat), s.hub.hold = .run → ∀ h, h = s.now → h.sim.level = some t → t ≤ h.get Obj.PL_CURRENT → exec
    (.dramRateChange measured) s = .next (s.after (if (List.finRange 2).all h.blankOk then h.rateTaken t else if h.sim.deferred then h else
    (h.setSim fun x => { x with deferred := true }).bump Obj.PL_DEFERRED))) ∧
  -- SIMMER_EVALUATE (R530)
  (∀ (s : State), s.hub.hold = .run → ∀ h, h = s.now → h.get Obj.SIM_MODE = 1 → exec .simmerEvaluate s = .next (s.after (h.simmer))) ∧
  -- SENSOR_RAISE (R531)
  (∀ (s : State), s.hub.hold = .run → ∀ h, h = s.now → exec .sensorRaise s = .next (s.after (
      let g := h.setSim fun s => { s with sensor := h.sensorTerm, sensorSeen := h.now }
      if g.sim.sensor ≠ 0 ∧ g.now < g.sim.sensorAt + us 100 then g else (g.setSim fun s =>
          { s with sensor := (if g.sim.sensor = 0 then g.get Obj.VCORE_ACK else g.sim.sensor) + 10, sensorAt := g.now }).bump Obj.SENSOR_RAISES))) ∧
  -- AVS_RESPONSE_RX (R534)
  (∀ (s : State) (crcOk : Bool) (ack : Fin 4) (vdone : Bool) (val : W16) (q : AvsReq), s.hub.hold = .run → ∀ h, h = s.now → h.sim.req = some q →
    crcOk = true → exec (.avsResponseRx crcOk ack vdone val) s = .next (s.after (h.avsResponse q ack.val vdone val.toNat))) ∧
  -- AVS_ACK_TIMEOUT (R534)
  (∀ (s : State) (q : AvsReq), s.hub.hold = .run → ∀ h, h = s.now → h.due .avsAck = true → h.sim.req = some q → h.sim.misses = 2 → ((h.setSim fun
    x => { x with misses := 3 }).bump Obj.AVS_NO_ACK).get Obj.SIM_MODE ≠ 2 → exec .avsAckTimeout s = .next (s.after (((h.setSim fun x =>
    { x with misses := 3 }).bump Obj.AVS_NO_ACK).avsFallback))) ∧
  -- VCORE_SETTLE_CHECK (R535)
  (∀ (s : State) (measured : W16), s.hub.hold = .run → ∀ h, h = s.now → h.due .vcoreSettle = true → near15 measured.toNat (((h.disarm
    .vcoreSettle).put Obj.VCORE_MEASURED measured.toNat).get Obj.VCORE_ACK) = true → exec (.vcoreSettleCheck measured) s = .next (s.after
    ((((h.disarm .vcoreSettle).put Obj.VCORE_MEASURED measured.toNat).setSm fun x => { x with unsettled := false }).causesPass.startupCheck))) ∧
  -- AVS_RESTORE (R535)
  (∀ (s : State) (o : Origin) (v : W32), s.hub.hold = .run → s.now.clear o Obj.AVS_RESTORE v.toNat → ∀ g, g = s.now.written Obj.AVS_RESTORE → exec
    (.avsRestore o v) s = .next (s.after ((g.avsRestore).ret o rcOk))) ∧
  -- EN_START (R537)
  (∀ (s : State) (o : Origin), s.hub.hold = .run → s.now.clear o Obj.EN_CONTROL 1 → ∀ g, g = s.now.written Obj.EN_CONTROL → exec (.enStart o) s =
    .next (s.after ((g.enStart).ret o rcOk))) ∧
  -- EN_STOP (R537)
  (∀ (s : State) (o : Origin) (trunk : W64), s.hub.hold = .run → s.now.clear o Obj.EN_CONTROL 2 → ∀ g, g = s.now.written Obj.EN_CONTROL → exec
    (.enStop o trunk) s = .next (s.after ((g.enStop trunk.toNat).ret o rcOk))) ∧
  -- EN_WINDOW_END (R537)
  (∀ (s : State) (trunk : W64), s.hub.hold = .run → ∀ h, h = s.now → h.due .enWindow = true → h.get Obj.EN_STATUS = 1 → exec (.enWindowEnd trunk)
    s = .next (s.after (h.enDone trunk.toNat))) ∧
  -- DOMAIN_REST_ENTERED (R521)
  (∀ (s : State) (d : Domain), s.hub.hold = .run → ∀ h, h = s.now → h.domState d.val = 4 → exec (.domainRestEntered d) s = .next (s.after (
      let g := (h.put (Obj.DOM_STATE d.val) (h.doms[d]).rest).bump (Obj.DOM_RESTS d.val)
      let g := if d.val = 24 then g.emit (.axlTerm false) else g; if (h.doms[d]).rest = 2 then g.domainLost d else g)))

/-- Completion of the commands of the table for attachment, capabilities, requests and contracts of the PD ports: each answers the state after its
own effect. -/
def Obligations.PdContractCommandsComplete : Prop :=
  -- PD_ATTACH (R548)
  (∀ (s : State) (p : Fin 2) (farRp : Bool), ∀ h, h = s.now → h.kettleOff p = false → ((h.setFed p false).pdWake p).pdState p = 1 → ((h.setFed p
    false).pdWake p).presentsRp p ≠ farRp → exec (.pdAttach p farRp) s = .next (s.after (
      let k := (((h.setFed p false).pdWake p).takeUnit .attach fun w => keyIdx w.key == 0x7000 + 0x100 * p.val).disarm (.drp p)
      let k := (k.setPd p fun s => { ({} : PdSt) with on := s.on, cap := s.cap, rp := s.rp, ven := true }).bump (Obj.ATTACHES p.val)
      let k := k.setCode p (if farRp then 0 else 1)
      ((k.put (Obj.PD_POWER_ROLE p.val) (if farRp then 1 else 2)).put (Obj.PD_DATA_ROLE p.val) (if farRp then 1 else 2)).pdTo p 2))) ∧
  -- PD_DETACH (R565)
  (∀ (s : State) (p : Fin 2), ∀ h, h = s.now → h.kettleOff p = false → exec (.pdDetach p) s = .next (s.after ((h.setFed p false).pdDetached p))) ∧
  -- DRP_TOGGLE (R547)
  (∀ (s : State) (p : Fin 2), (s.hub.hold = .run ∨ s.hub.hold = .rstn) → ∀ h, h = s.now → h.pdState p = 1 → h.kettleOff p = false → h.powerCap p =
    2 → h.due (.drp p) = true ∨ h.armed (.drp p) = false → exec (.drpToggle p) s = .next (s.after ((h.setPd p fun s => { s with rp := !s.rp }).arm
    (.drp p) (ms 20)))) ∧
  -- SOURCE_CAPABILITIES_SEND (R550)
  (∀ (s : State) (p : Fin 2) (good : Bool), (s.hub.hold = .run ∨ s.hub.hold = .rstn) → ∀ h, h = s.now → (h.pdBack p).isSource p = true → (h.pdBack
    p).pdState p = 2 → ((h.pdBack p).pd[p]).capsOk = false → ((h.pdBack p).pd[p]).tries = 0 → good = true → exec (.sourceCapabilitiesSend p good)
    s = .next (s.after ((((h.pdBack p).pdSendCaps p).setPd p fun s => { s with tries := s.tries + 1, capsOk := true }).disarm (.pdCaps p)))) ∧
  -- SOURCE_CAPABILITIES_RX (R554)
  (∀ (s : State) (p : Fin 2) (epr : Bool) (caps : List (Fin 12 × W16 × W16)), (s.hub.hold = .run ∨ s.hub.hold = .rstn) → ∀ h, h = s.now → h.isSink
    p = true → h.pdState p = 2 ∨ h.pdState p = 3 → epr = false → exec (.sourceCapabilitiesRx p epr caps) s = .next (s.after (((h.setPd p fun s =>
    { s with got := caps.map fun c => ({ pos := c.1.val, mv := c.2.1.toNat, ma := c.2.2.toNat } : PdPower), ask := none, waits := 0, stopped := false }).disarm
    (.pdWait p)).pdChoose p))) ∧
  -- REQUEST_RX (R555)
  (∀ (s : State) (p : Fin 2) (pos : Fin 16) (ma : W16) (x : PdPower), (s.hub.hold = .run ∨ s.hub.hold = .rstn) → ∀ h, h = s.now → h.isSource p =
    true → h.pdState p = 2 ∨ h.pdState p = 3 → (h.pd[p]).offered.find? (fun x => x.pos == pos.val && Nat.ble ma.toNat x.ma) = some x → exec
    (.requestRx p pos ma) s = .next (s.after (
      let x := { x with ma := ma.toNat }
      let h := ((h.setPd p fun s => { s with capsOk := true }).disarm (.pdCaps p)).pdSend p .accept
      if h.pdMoves p x then
        (let h := (h.pdUnstable p).setPd p fun s => { s with next := some x }; let h := if h.pdState p = 3 then h.pdTo p 4 else h; h.arm (.pdCode
            p) (ms 27))
      else
        (h.pdSend p .psRdy).pdMade p x))) ∧
  -- ACCEPT_RX (R556)
  (∀ (s : State) (p : Fin 2) (k : PdAsk), (s.hub.hold = .run ∨ s.hub.hold = .rstn) → ∀ h, h = s.now → (h.pd[p]).ask = some k → exec (.acceptRx p)
    s = .next (s.after (h.pdAccepted p k))) ∧
  -- REJECT_RX (R558)
  (∀ (s : State) (p : Fin 2), (s.hub.hold = .run ∨ s.hub.hold = .rstn) → ∀ h, h = s.now → (h.pd[p]).ask = some .request → exec (.rejectRx p) s =
    .next (s.after ((h.setPd p fun s => { s with ask := none, waits := 0 }).pdRefused p 2))) ∧
  -- WAIT_RX (R558)
  (∀ (s : State) (p : Fin 2), (s.hub.hold = .run ∨ s.hub.hold = .rstn) → ∀ h, h = s.now → (h.pd[p]).ask = some .request → h.get (Obj.PD_WAIT_MAX
    p.val) = 0 → exec (.waitRx p) s = .next (s.after ((h.setPd p fun s => { s with ask := none, waits := s.waits + 1 }).arm (.pdWait p) (ms (h.get
    (Obj.PD_WAIT_RETRY p.val)))))) ∧
  -- WAIT_RETRY (R558)
  (∀ (s : State) (p : Fin 2), (s.hub.hold = .run ∨ s.hub.hold = .rstn) → ∀ h, h = s.now → (h.due (.pdWait p) ∧ h.isSink p ∧ !(h.pd[p]).stopped ∧
    (h.pd[p]).ask = none ∧ (h.pdState p = 2 ∨ h.pdState p = 3)) → exec (.waitRetry p) s = .next (s.after (((h.disarm (.pdWait p)).bump
    (Obj.WAIT_RETRIES p.val)).pdChoose p))) ∧
  -- PD_TRANSITION_CODE_SET (R556)
  (∀ (s : State) (p : Fin 2) (x : PdPower), (s.hub.hold = .run ∨ s.hub.hold = .rstn) → ∀ h, h = s.now → h.due (.pdCode p) = true → (h.pd[p]).next
    = some x → exec (.pdTransitionCodeSet p) s = .next (s.after ((((h.disarm (.pdCode p)).setCode p x.pos).setPd p fun s =>
    { s with vdis := Nat.ble (x.mv + 1) (h.get (Obj.PD_CONTRACT_MV p.val)) }).arm (.vbusSettle p) (ms 400)))) ∧
  -- VBUS_SETTLED (R556)
  (∀ (s : State) (p : Fin 2) (mv : W16) (n : PdPower), (s.hub.hold = .run ∨ s.hub.hold = .rstn) → ∀ h, h = s.now → h.pdState p = 4 →
    (h.pd[p]).next = some n → h.isSource p = true → h.armed (.vbusSettle p) = true → withinFive mv.toNat n.mv = true → exec (.vbusSettled p mv) s
    = .next (s.after ((h.pdSend p .psRdy).pdMade p n))) ∧
  -- PS_RDY_RX (R556)
  (∀ (s : State) (p : Fin 2) (n : PdPower), (s.hub.hold = .run ∨ s.hub.hold = .rstn) → ∀ h, h = s.now → h.pdState p = 4 → (h.pd[p]).next = some n
    → h.isSink p = true → exec (.psRdyRx p) s = .next (s.after (h.pdMade p n))) ∧
  -- PS_RDY_TIMEOUT (R556)
  (∀ (s : State) (p : Fin 2), (s.hub.hold = .run ∨ s.hub.hold = .rstn) → ∀ h, h = s.now → (h.due (.pdRdy p)) = true → exec (.psRdyTimeout p) s =
    .next (s.after (h.pdHardReset p true))) ∧
  -- VBUS_SETTLE_TIMEOUT (R556)
  (∀ (s : State) (p : Fin 2), (s.hub.hold = .run ∨ s.hub.hold = .rstn) → ∀ h, h = s.now → (h.due (.vbusSettle p) ∧ (h.pd[p]).next.isSome) → exec
    (.vbusSettleTimeout p) s = .next (s.after (h.pdHardReset p true))) ∧
  -- GET_SOURCE_CAP_CMD (R568)
  (∀ (s : State) (o : Origin) (p : Fin 2), s.hub.hold = .run → s.now.clear o (Obj.PD_CMD p.val) 4 → ∀ g, g = s.now.written (Obj.PD_CMD p.val) →
    exec (.getSourceCapCmd o p) s = .next (s.after ((g.pdCommand p 4).2.ret o (g.pdCommand p 4).1))) ∧
  -- CONTRACT_STABLE_TIMER (R556)
  (∀ (s : State) (p : Fin 2), (s.hub.hold = .run ∨ s.hub.hold = .rstn) → ∀ h, h = s.now → (h.due (.pdStable p) ∧ h.pdState p = 3) → exec
    (.contractStableTimer p) s = .next (s.after ((h.disarm (.pdStable p)).contractStable p)))

/-- Completion of the commands of the table for EPR mode, discovery and alternate modes of the PD ports: each answers the state after its own
effect. -/
def Obligations.PdModeCommandsComplete : Prop :=
  -- EPR_MODE_ENTER_RX (R552)
  (∀ (s : State) (p : Fin 2), (s.hub.hold = .run ∨ s.hub.hold = .rstn) → ∀ h, h = s.now → h.isSource p = true → h.pdState p = 3 → exec
    (.eprModeEnterRx p) s = .next (s.after (if h.eprAllowed p then (((h.pdSend p .eprAcknowledged).pdSend p .eprSucceeded).put (Obj.PD_EPR_ACTIVE
    p.val) 1).pdSendCaps p else h.pdSend p .eprFailed))) ∧
  -- EPR_KEEPALIVE_SEND (R555)
  (∀ (s : State) (p : Fin 2), (s.hub.hold = .run ∨ s.hub.hold = .rstn) → ∀ h, h = s.now → (h.isSink p ∧ h.flag (Obj.PD_EPR_ACTIVE p.val) ∧ h.due
    (.keepAlive p)) → exec (.eprKeepaliveSend p) s = .next (s.after ((h.pdSend p .eprKeepAlive).arm (.keepAlive p) (ms 300)))) ∧
  -- EPR_KEEPALIVE_TIMEOUT (R555)
  (∀ (s : State) (p : Fin 2), (s.hub.hold = .run ∨ s.hub.hold = .rstn) → ∀ h, h = s.now → (h.isSource p ∧ h.flag (Obj.PD_EPR_ACTIVE p.val)) → exec
    (.eprKeepaliveTimeout p) s = .next (s.after (h.pdHardReset p true))) ∧
  -- DISCOVER_IDENTITY_RX (R559)
  (∀ (s : State) (p : Fin 2), (s.hub.hold = .run ∨ s.hub.hold = .rstn) → ∀ h, h = s.now → exec (.discoverIdentityRx p) s = .next (s.after (h.pdVdm
    p 1 0xFF00 fun h => ((h.pdTake p .discovery).pdDiscovered p).pdSend p (.identityAck ((h.pdTake p .discovery).eff (Obj.PD_SVID p.val)) 0
    (0x48160000 + (h.pdTake p .discovery).get Obj.STEPPING))))) ∧
  -- DISCOVER_SVIDS_RX (R559)
  (∀ (s : State) (p : Fin 2), (s.hub.hold = .run ∨ s.hub.hold = .rstn) → ∀ h, h = s.now → exec (.discoverSvidsRx p) s = .next (s.after (h.pdVdm p
    2 0xFF00 fun h => (h.pdDiscovered p).pdSend p (.svidsAck (h.eff (Obj.PD_SVID p.val)))))) ∧
  -- DISCOVER_MODES_RX (R559)
  (∀ (s : State) (p : Fin 2) (svid : W16), (s.hub.hold = .run ∨ s.hub.hold = .rstn) → ∀ h, h = s.now → exec (.discoverModesRx p svid) s = .next
    (s.after (h.pdVdm p 3 svid.toNat fun h => if svid.toNat = h.eff (Obj.PD_SVID p.val) then (h.pdDiscovered p).pdSend p (.modesAck svid.toNat
    (h.get (Obj.TK_RATES_ALLOWED p.val) % 16 + 16 + 256 * (h.get Obj.ROLE_ACTIVE % 4))) else h.pdNak p 3 svid.toNat))) ∧
  -- ENTER_MODE_RX (R559)
  (∀ (s : State) (p : Fin 2) (svid : W16) (mode : Fin 8), (s.hub.hold = .run ∨ s.hub.hold = .rstn) → ∀ h, h = s.now → exec (.enterModeRx p svid
    mode) s = .next (s.after (h.pdVdm p 4 svid.toNat fun h => if svid.toNat = h.eff (Obj.PD_SVID p.val) ∧ mode.val = 1 ∧ h.eff
    (Obj.PD_JENSAR_ENTRY p.val) = 1 then (if (h.pdSend p (.enterAck svid.toNat)).get (Obj.PD_MODE p.val) = 2 then h.pdSend p (.enterAck
    svid.toNat) else (h.pdSend p (.enterAck svid.toNat)).pdEntered p) else h.pdNak p 4 svid.toNat))) ∧
  -- EXIT_MODE_RX (R559)
  (∀ (s : State) (p : Fin 2) (svid : W16), (s.hub.hold = .run ∨ s.hub.hold = .rstn) → ∀ h, h = s.now → exec (.exitModeRx p svid) s = .next
    (s.after (h.pdVdm p 5 svid.toNat fun h => h.pdSend p (.vdmNak 5 svid.toNat)))) ∧
  -- VDM_RESPONSE_RX (R560)
  (∀ (s : State) (p : Fin 2) (answer : Fin 3) (svid : W16), (s.hub.hold = .run ∨ s.hub.hold = .rstn) → ∀ h, h = s.now → (h.pd[p]).vdm ≠ 0 → h.get
    (Obj.PD_DATA_ROLE p.val) = 2 → answer = 0 → exec (.vdmResponseRx p answer svid) s = .next (s.after (if (h.pd[p]).vdm = 1 then h.pdSendVdm p 2
    else if svid.toNat ≠ h.eff (Obj.PD_SVID p.val) then h.pdModeRefused p else if (h.pd[p]).vdm ≤ 3 then h.pdSendVdm p ((h.pd[p]).vdm + 1) else
    h.pdEntered p))) ∧
  -- PD_CABLE_MAX_MA_WRITE (R552)
  (∀ (s : State) (o : Origin) (p : Fin 2) (v : W32), s.hub.hold = .run → s.now.clear o (Obj.PD_CABLE_MAX_MA p.val) v.toNat → ∀ g, g =
    s.now.written (Obj.PD_CABLE_MAX_MA p.val) → exec (.pdCableMaxMaWrite o p v) s = .next (s.after ((g.pdCableWrite o p v.toNat).2.ret o
    (g.pdCableWrite o p v.toNat).1)))

/-- Completion of the commands of the table for role swaps, fast role swap and hard resets of the PD ports: each answers the state after its own
effect. -/
def Obligations.PdSwapAndResetCommandsComplete : Prop :=
  -- PR_SWAP_CMD (R562)
  (∀ (s : State) (o : Origin) (p : Fin 2), s.hub.hold = .run → s.now.clear o (Obj.PD_CMD p.val) 1 → ∀ g, g = s.now.written (Obj.PD_CMD p.val) →
    exec (.prSwapCmd o p) s = .next (s.after ((g.pdCommand p 1).2.ret o (g.pdCommand p 1).1))) ∧
  -- DR_SWAP_CMD (R562)
  (∀ (s : State) (o : Origin) (p : Fin 2), s.hub.hold = .run → s.now.clear o (Obj.PD_CMD p.val) 2 → ∀ g, g = s.now.written (Obj.PD_CMD p.val) →
    exec (.drSwapCmd o p) s = .next (s.after ((g.pdCommand p 2).2.ret o (g.pdCommand p 2).1))) ∧
  -- HARD_RESET_CMD (R567)
  (∀ (s : State) (o : Origin) (p : Fin 2), s.hub.hold = .run → s.now.clear o (Obj.PD_CMD p.val) 3 → ∀ g, g = s.now.written (Obj.PD_CMD p.val) →
    exec (.hardResetCmd o p) s = .next (s.after ((g.pdCommand p 3).2.ret o (g.pdCommand p 3).1))) ∧
  -- PR_SWAP_RX (R562)
  (∀ (s : State) (p : Fin 2), (s.hub.hold = .run ∨ s.hub.hold = .rstn) → ∀ h, h = s.now → h.pdState p = 3 → (h.pd[p]).swap ≠ .frsOldSource →
    h.flag (Obj.PD_PR_SWAP_ACCEPT p.val) = true → h.eff (Obj.PD_POWER_CAP p.val) = 2 → h.hasCode p = true → exec (.prSwapRx p) s = .next
    (s.after (
      let h := (h.pdSupersede p).pdSend p .accept
      if h.isSource p then (h.pdSwapEnter p .oldSource).pdVbusOff p else ((h.pdSwapEnter p .newSource).setPd p fun s =>
          { s with ven := false }).arm (.pdRdy p) (ms 550)))) ∧
  -- DR_SWAP_RX (R562)
  (∀ (s : State) (p : Fin 2), (s.hub.hold = .run ∨ s.hub.hold = .rstn) → ∀ h, h = s.now → h.pdState p = 3 → h.get (Obj.PD_MODE p.val) = 0 ∨ h.get
    (Obj.PD_MODE p.val) = 3 → exec (.drSwapRx p) s = .next (s.after ((h.pdSend p .accept).pdDataSwapped p))) ∧
  -- FR_SWAP_SIGNAL_RX (R563)
  (∀ (s : State) (p : Fin 2), (s.hub.hold = .run ∨ s.hub.hold = .rstn) → ∀ h, h = s.now → (h.pdState p = 3 ∧ h.isSink p ∧ h.eff (Obj.PD_FRS_ENABLE
    p.val) = 1 ∧ h.eff (Obj.PD_POWER_CAP p.val) = 2 ∧ h.hasCode p) → exec (.frSwapSignalRx p) s = .next (s.after (h.setPd p fun s =>
    { s with frsArmed := true }))) ∧
  -- HARD_RESET_RX (R567)
  (∀ (s : State) (p : Fin 2), (s.hub.hold = .run ∨ s.hub.hold = .rstn) → ∀ h, h = s.now → 2 ≤ h.pdState p → h.pdState p ≤ 5 → exec (.hardResetRx
    p) s = .next (s.after (h.pdHardReset p false))) ∧
  -- HARD_RESET_RECLOSE (R567)
  (∀ (s : State) (p : Fin 2), (s.hub.hold = .run ∨ s.hub.hold = .rstn) → ∀ h, h = s.now → (h.due (.reclose p) ∧ h.pdState p = 6 ∧ h.isSource p) →
    exec (.hardResetReclose p) s = .next (s.after (((h.disarm (.reclose p)).setPd p fun s => { s with ven := true, vdis := false }).setCode p 1)))
    ∧
  -- FEED_LOSS (R590)
  (∀ (s : State) (voutMv : W16) (sinks : BitVec 2), (s.hub.hold = .run ∨ s.hub.hold = .rstn) → ∀ h, h = s.now → h.get Obj.FEED_IN_USE = 1 →
    h.feedValid 0 = false → voutMv.toNat < h.get (feedKey 0 Obj.FA_UV) → h.feeds.loss = false → exec (.feedLoss voutMv sinks) s = .next (s.after (
      let g := (List.finRange 2).foldl (fun (h : Hub) p => if bitOf (h.get Obj.FEED_FRS_PORTS) p.val && sinks.getLsbD p.val then h.frsSource p
        else h) (h.setFeeds fun s => { s with loss := true })
      let g := (g.put Obj.FEED_ATTN (setBit (g.get Obj.FEED_ATTN) 1)).bump Obj.FEED_LOSSES; (g.event 0x57 Obj.FEED_VOUT_MV).report 11 3))) ∧
  -- SINK_TX_OK (R564)
  (∀ (s : State) (p : Fin 2) (a : _) (rest : _), (s.hub.hold = .run ∨ s.hub.hold = .rstn) → ∀ h, h = s.now → (h.pd[p]).cmds = a :: rest → h.pdRuns
    p = false → exec (.sinkTxOk p) s = .next (s.after ((h.setPd p fun s => { s with cmds := rest }).pdStart p a))) ∧
  -- GOODCRC_TIMEOUT (R564)
  (∀ (s : State) (p : Fin 2) (m : PdMsg), (s.hub.hold = .run ∨ s.hub.hold = .rstn) → ∀ h, h = s.now → (h.pd[p]).last = some m → (h.pd[p]).retries
    < 2 → exec (.goodcrcTimeout p) s = .next (s.after (((h.setPd p fun s => { s with retries := s.retries + 1 }).bump (Obj.MSG_RETRIES
    p.val)).emit (.pdMsg p.val m)))) ∧
  -- FRS_VBUS_FALL (R563)
  (∀ (s : State) (p : Fin 2), (s.hub.hold = .run ∨ s.hub.hold = .rstn) → ∀ h, h = s.now → (h.pd[p]).frsArmed = true → h.pdState p = 3 → exec
    (.frsVbusFall p) s = .next (s.after (((h.setPd p fun s => { s with frsArmed := false, ven := true, ask := some .frSwap }).setCode p 1).pdSend
    p .frSwap))) ∧
  -- HARD_RESET_VBUS_RETURN (R567)
  (∀ (s : State) (p : Fin 2), (s.hub.hold = .run ∨ s.hub.hold = .rstn) → ∀ h, h = s.now → (h.pdState p = 6 ∧ h.isSink p) → exec
    (.hardResetVbusReturn p) s = .next (s.after ((h.setPd p fun s => { s with ven := true }).pdTo p 2)))

/-- Completion of the commands of the table for hot-swap slots: each answers the state after its own effect. -/
def Obligations.SlotCommandsComplete : Prop :=
  -- SLOT_ENABLE_WRITE (R575)
  (∀ (s : State) (o : Origin) (n : Fin 8) (v : W32), s.hub.hold = .run → s.now.clear o (Obj.SLOT_ENABLE n.val) v.toNat → ∀ g, g = s.now.written
    (Obj.SLOT_ENABLE n.val) → exec (.slotEnableWrite o n v) s = .next (s.after (((g.plainWrite o (Obj.SLOT_ENABLE n.val) v.toNat).2.slotEnabled
    n).ret o (g.plainWrite o (Obj.SLOT_ENABLE n.val) v.toNat).1))) ∧
  -- SEAT_CHANGE (R575)
  (∀ (s : State) (n : Fin 8) (seated : Bool), (s.hub.hold = .run ∨ s.hub.hold = .rstn) → ∀ h, h = s.now → (h.slots[n]).seated ≠ seated → h.get
    (Obj.SLOT_STATE n.val) = 5 → seated = false → exec (.seatChange n seated) s = .next (s.after ((h.setHotSlot n fun x =>
    { x with seated := seated }).slotIdle n))) ∧
  -- SEAT_DEBOUNCE_EXPIRY (R575)
  (∀ (s : State) (n : Fin 8), (s.hub.hold = .run ∨ s.hub.hold = .rstn) → ∀ h, h = s.now → (h.get (Obj.SLOT_STATE n.val) = 2 ∧ h.due (.seat n) ∧
    (h.slots[n]).seated) → exec (.seatDebounceExpiry n) s = .next (s.after (h.slotWait n))) ∧
  -- SLOT_RAMP_START (R577)
  (∀ (s : State) (n : Fin 8) (busMv : W16), (s.hub.hold = .run ∨ s.hub.hold = .rstn) → ∀ h, h = s.now → h.get (Obj.SLOT_STATE n.val) = 3 →
    (busWindow (h.slotNext (Obj.SLOT_BUS n.val))).1 ≤ busMv.toNat → busMv.toNat ≤ (busWindow (h.slotNext (Obj.SLOT_BUS n.val))).2 → h.coupledOk
    (h.get (Obj.SLOT_PD_PORT n.val)) = true → exec (.slotRampStart n busMv) s = .next (s.after (h.slotRampEnter n))) ∧
  -- SLOT_POWER_GOOD (R578)
  (∀ (s : State) (n : Fin 8), (s.hub.hold = .run ∨ s.hub.hold = .rstn) → ∀ h, h = s.now → h.get (Obj.SLOT_STATE n.val) = 4 → exec (.slotPowerGood
    n) s = .next (s.after (
      let g := (h.slotLeave n).put (Obj.SLOT_STATE n.val) 5
      let g := g.put (Obj.SLOT_ATTN n.val) (setBit (g.get (Obj.SLOT_ATTN n.val)) 3); g.arm (.goodTime n) (ms (g.get (Obj.SLOT_GOOD_TIME n.val)))))) ∧
  -- SLOT_RAMP_TIMEOUT (R575)
  (∀ (s : State) (n : Fin 8), (s.hub.hold = .run ∨ s.hub.hold = .rstn) → ∀ h, h = s.now → (h.get (Obj.SLOT_STATE n.val) = 4 ∧ h.due (.ramp n)) →
    exec (.slotRampTimeout n) s = .next (s.after (h.slotFault n 3))) ∧
  -- SLOT_FAST_TRIP (R579)
  (∀ (s : State) (n : Fin 8) (ma : W32) (busMv voutMv : W16), (s.hub.hold = .run ∨ s.hub.hold = .rstn) → ∀ h, h = s.now → (h.slotConducts n ∧
    h.tripsFast n ma.toNat busMv.toNat voutMv.toNat) → exec (.slotFastTrip n ma busMv voutMv) s = .next (s.after ((h.bump (Obj.FAST_TRIPS
    n.val)).slotFault n 1))) ∧
  -- SLOT_BREAKER_TRIP (R580)
  (∀ (s : State) (n : Fin 8) (ma us : W32), (s.hub.hold = .run ∨ s.hub.hold = .rstn) → ∀ h, h = s.now → (h.get (Obj.SLOT_STATE n.val) = 5 ∧ h.get
    (Obj.SLOT_ILIM n.val) < ma.toNat ∧ h.get (Obj.SLOT_TRIP_TIME n.val) ≤ us.toNat) → exec (.slotBreakerTrip n ma us) s = .next (s.after
    (h.slotFault n 2))) ∧
  -- SLOT_BUS_OVERVOLTAGE (R575)
  (∀ (s : State) (n : Fin 8) (mv : W32), (s.hub.hold = .run ∨ s.hub.hold = .rstn) → ∀ h, h = s.now → (h.slotConducts n ∧ (busWindow (h.get
    (Obj.SLOT_BUS n.val))).2 < mv.toNat) → exec (.slotBusOvervoltage n mv) s = .next (s.after (h.slotFault n 4))) ∧
  -- SLOT_BUS_UNDERVOLTAGE (R575)
  (∀ (s : State) (n : Fin 8) (mv : W32), (s.hub.hold = .run ∨ s.hub.hold = .rstn) → ∀ h, h = s.now → (h.slotConducts n ∧ mv.toNat < (busWindow
    (h.get (Obj.SLOT_BUS n.val))).1) → exec (.slotBusUndervoltage n mv) s = .next (s.after (h.slotWait n))) ∧
  -- SLOT_RETRY_EXPIRY (R581)
  (∀ (s : State) (n : Fin 8), (s.hub.hold = .run ∨ s.hub.hold = .rstn) → ∀ h, h = s.now → h.due (.slotRetry n) = true → h.get (Obj.SLOT_STATE
    n.val) = 6 → exec (.slotRetryExpiry n) s = .next (s.after ((h.disarm (.slotRetry n)).slotIdle n))) ∧
  -- SLOT_GOOD_TIME_EXPIRY (R583)
  (∀ (s : State) (n : Fin 8), (s.hub.hold = .run ∨ s.hub.hold = .rstn) → ∀ h, h = s.now → (h.get (Obj.SLOT_STATE n.val) = 5 ∧ h.due (.goodTime n))
    → exec (.slotGoodTimeExpiry n) s = .next (s.after ((h.put (Obj.SLOT_FAULT_COUNT n.val) 0).disarm (.goodTime n)))) ∧
  -- SLOT_CLEAR (R583)
  (∀ (s : State) (o : Origin) (n : Fin 8) (v : W32), s.hub.hold = .run → s.now.clear o (Obj.SLOT_CLEAR n.val) v.toNat → ∀ g, g = s.now.written
    (Obj.SLOT_CLEAR n.val) → exec (.slotClear o n v) s = .next (s.after ((g.slotCleared n).ret o rcOk)))

/-- Completion of the commands of the table for supply feeds: each answers the state after its own effect. -/
def Obligations.FeedCommandsComplete : Prop :=
  -- FEED_INVALID (R586)
  (∀ (s : State) (f : Fin 2) (mv : W16) (confirmed : Bool), (s.hub.hold = .run ∨ s.hub.hold = .rstn) → ∀ h, h = s.now → h.feedWithin f mv.toNat =
    false → exec (.feedInvalid f mv confirmed) s = .next (s.after (((h.setFeeds fun x =>
    { x with ok := x.ok.set f false, inRange := x.inRange.set f false }).disarm (.feedHold f)).feedSelect confirmed))) ∧
  -- FEED_VALID_HOLD_EXPIRY (R586)
  (∀ (s : State) (f : Fin 2) (mv : W16) (elapsed confirmed : Bool), (s.hub.hold = .run ∨ s.hub.hold = .rstn) → ∀ h, h = s.now → h.feedWithin f
    mv.toNat = true → exec (.feedValidHoldExpiry f mv elapsed confirmed) s = .next (s.after (if elapsed then (if h.due (.feedHold f) then
    ((h.setFeeds fun x => { x with ok := x.ok.set f true }).disarm (.feedHold f)).feedSelect confirmed else h) else if h.feeds.inRange[f] then h
    else ((h.setFeeds fun x => { x with inRange := x.inRange.set f true }).arm (.feedHold f) (ms (h.get Obj.FEED_VALID_HOLD))).feedSelect
    confirmed))) ∧
  -- FEED_RETURN_HOLD_EXPIRY (R587)
  (∀ (s : State) (confirmed : Bool), (s.hub.hold = .run ∨ s.hub.hold = .rstn) → ∀ h, h = s.now → h.due .feedReturn = true → h.get Obj.FEED_MODE =
    0 → h.feedStuck = false → h.feeds.switch = none → h.feedValid h.feedFirst = true → h.get Obj.FEED_IN_USE ≠ 0 → h.get Obj.FEED_IN_USE ≠
    h.feedFirst.val + 1 → exec (.feedReturnHoldExpiry confirmed) s = .next (s.after (((h.disarm .feedReturn).feedSwitch h.feedFirst
    confirmed).feedSelect confirmed))) ∧
  -- FEED_BBM_FAILED (R589)
  (∀ (s : State) (t : Nat), (s.hub.hold = .run ∨ s.hub.hold = .rstn) → ∀ h, h = s.now → h.feeds.switch = some (0, t) → exec .feedBbmFailed s =
    .next (s.after (
      let g := ((h.setFeeds fun x => { x with switch := none }).put (feedState 1) 5).put Obj.FEED_IN_USE 0
      let g := (g.put Obj.FEED_ATTN (setBit (g.get Obj.FEED_ATTN) 2)).bump Obj.BBM_FAILS; ((g.event 0x58 (feedState 1)).report 11 2).feedShow))) ∧
  -- FEED_MODE_WRITE (R587)
  (∀ (s : State) (o : Origin) (v : W32), s.hub.hold = .run → s.now.clear o Obj.FEED_MODE v.toNat → ∀ g, g = s.now.written Obj.FEED_MODE → exec
    (.feedModeWrite o v) s = .next (s.after (((g.plainWrite o Obj.FEED_MODE v.toNat).2.feedModeWritten).ret o (g.plainWrite o Obj.FEED_MODE
    v.toNat).1))) ∧
  -- FEED_CLEAR (R589)
  (∀ (s : State) (o : Origin) (v : W32), s.hub.hold = .run → s.now.clear o Obj.FEED_CLEAR v.toNat → ∀ g, g = s.now.written Obj.FEED_CLEAR → exec
    (.feedClear o v) s = .next (s.after ((g.feedCleared).ret o rcOk)))

/-- Completion of the commands of the table for key staging, commits, integrity, remasking and reseeding of the Caddy: each answers the state
after its own effect. -/
def Obligations.CaddyCommandsComplete : Prop :=
  -- KEY_STAGE_PLAINTEXT (R606)
  (∀ (s : State) (o : Origin) (k : KeySlot) (material : List Byte), s.hub.hold = .run → ∀ h, h = s.now → h.frozen o = false → (h.origin o).held =
    none → h.caddyRights o = true → material.length ≤ 40 → exec (.keyStagePlaintext o k material) s = .next (s.after (((h.keyMaterial o k
    material).2).ret o (h.keyMaterial o k material).1))) ∧
  -- KEY_STAGE_UNWRAP (R606)
  (∀ (s : State) (o : Origin) (k : KeySlot) (material : List Byte), s.hub.hold = .run → ∀ h, h = s.now → h.frozen o = false → (h.origin o).held =
    none → h.caddyRights o = true → material.length ≤ 40 → exec (.keyStageUnwrap o k material) s = .next (s.after (((h.keyMaterial o k
    material).2).ret o (h.keyMaterial o k material).1))) ∧
  -- KEY_STAGE_DERIVE (R606)
  (∀ (s : State) (o : Origin) (k : KeySlot) (labelContext : List Byte), s.hub.hold = .run → ∀ h, h = s.now → h.frozen o = false → (h.origin
    o).held = none → h.caddyRights o = true → labelContext.length ≤ 68 → exec (.keyStageDerive o k labelContext) s = .next (s.after (((h.keyDerive
    o k labelContext).2).ret o (h.keyDerive o k labelContext).1))) ∧
  -- KEY_GENERATE (R606)
  (∀ (s : State) (o : Origin) (k : KeySlot), s.hub.hold = .run → s.now.clear o (Obj.KEY_CONTROL k.val) 1 → ∀ g, g = s.now.written (Obj.KEY_CONTROL
    k.val) → exec (.keyGenerate o k) s = .next (s.after ((g.keyControl o k 1).2.ret o (g.keyControl o k 1).1))) ∧
  -- KEY_ABORT (R618)
  (∀ (s : State) (o : Origin) (k : KeySlot), s.hub.hold = .run → s.now.clear o (Obj.KEY_CONTROL k.val) 2 → ∀ g, g = s.now.written (Obj.KEY_CONTROL
    k.val) → exec (.keyAbort o k) s = .next (s.after ((g.keyControl o k 2).2.ret o (g.keyControl o k 2).1))) ∧
  -- KEY_INVALIDATE (R610)
  (∀ (s : State) (o : Origin) (k : KeySlot), s.hub.hold = .run → s.now.clear o (Obj.KEY_CONTROL k.val) 3 → ∀ g, g = s.now.written (Obj.KEY_CONTROL
    k.val) → exec (.keyInvalidate o k) s = .next (s.after ((g.keyControl o k 3).2.ret o (g.keyControl o k 3).1))) ∧
  -- KEY_COMMIT (R608)
  (∀ (s : State) (o : Origin) (k : KeySlot) (expected : W64), s.hub.hold = .run → s.now.clear o (Obj.KEY_COMMIT k.val) expected.toNat → ∀ g, g =
    s.now.written (Obj.KEY_COMMIT k.val) → exec (.keyCommit o k expected) s = .next (s.after ((g.keyCommitted o k expected.toNat).2.ret o
    (g.keyCommitted o k expected.toNat).1))) ∧
  -- KEY_STAGE_EXPIRED (R607)
  (∀ (s : State) (k : KeySlot), s.hub.hold = .run → ∀ h, h = s.now → h.due (.keyStage k) = true → exec (.keyStageExpired k) s = .next (s.after
    (h.expireShadow k))) ∧
  -- KEY_RECORD_WRITTEN (R611)
  (∀ (s : State) (k : KeySlot), s.hub.hold = .run → ∀ h, h = s.now → (h.caddy.slots[k]).writing = true → (h.caddy.slots[k]).voiding = false → exec
    (.keyRecordWritten k) s = .next (s.after (
      let x := h.caddy.slots[k]
      let g := h.setKey k fun s => if s.lastRec.val = 1 then
        { s with rec0 := some ⟨x.topSeq + 1, clrBit (h.get (Obj.KEY_ATTR k.val)) 1, x.live, h.get (Obj.KEY_KCV k.val), true, false⟩, lastRec := 0, writing := false }
        else
        { s with rec1 := some ⟨x.topSeq + 1, clrBit (h.get (Obj.KEY_ATTR k.val)) 1, x.live, h.get (Obj.KEY_KCV k.val), true, false⟩, lastRec := 1, writing := false }
      ((g.bump (Obj.KEY_MRAM_WRITES k.val)).bump Obj.MRAM_KEY_WRITES).disarm (.keyRecord k)))) ∧
  -- KEY_INTEGRITY_CHECK (R601)
  (∀ (s : State) (bad ecc : W64), s.hub.hold = .run → ∀ h, h = s.now → h.due .keyCheck = true → exec (.keyIntegrityCheck bad ecc) s = .next
    (s.after ((List.finRange 64).foldl (fun h k => if !bitOf (h.get (Obj.KEY_ATTR k.val)) 0 then h else if ecc.getLsbD k.val then (h.keyFault
    k).eccFault 6 else if bad.getLsbD k.val then h.keyFault k else h.keyWritten k) (h.arm .keyCheck (ms 10))))) ∧
  -- CADDY_REMASK (R600)
  (∀ (s : State) (k : KeySlot), s.hub.hold = .run → ∀ h, h = s.now → h.caddyPhase ≠ 1 → ((h.caddy.slots[k]).maskedAt.all fun t => Nat.ble (t + ms
    1) h.now) = true → exec (.caddyRemask k) s = .next (s.after ((h.remask k).setKey k fun s => { s with maskedAt := some h.now }))) ∧
  -- DRBG_RESEED (R602)
  (∀ (s : State) (healthy : Bool), s.hub.hold = .run → ∀ h, h = s.now → h.armed .reseed = false ∨ h.due .reseed = true → exec (.drbgReseed
    healthy) s = .next (s.after (
      let g := h.arm .reseed (ms 1)
      if healthy then ((g.put Obj.ENTROPY_STATE 1).drbgReseed).causesPass else if g.get Obj.ENTROPY_STATE = 2 then g else ((((g.put
          Obj.ENTROPY_STATE 2).bump Obj.ENTROPY_FAILS).caddyAttn 6).event 0x61 Obj.ENTROPY_STATE).report 16 0xFF))) ∧
  -- KEY_RECORD_VOIDED (R610)
  (∀ (s : State) (k : KeySlot), s.hub.hold = .run → ∀ h, h = s.now → (h.caddy.slots[k]).voiding = true → exec (.keyRecordVoided k) s = .next
    (s.after ((h.setKey k fun s =>
    { s with rec0 := s.rec0.map fun r => { r with voided := true }, rec1 := s.rec1.map fun r => { r with voided := true }, voiding := false }).disarm
    (.keyVoid k))))
end

