-- ==== Sys2Proof/Laws/Crypto.lean ====
section
/-! SUPPORT. The lengths of what the ciphers answer: a round key, a block, the key stream and the tag of a cell. -/

namespace Sys2Proof.Machine

@[simp] theorem toBE_length (n v : Nat) : (toBE n v).length = n := by
  induction n with
  | zero => rfl
  | succ n ih => simp [toBE, ih]

@[simp] theorem slice_length (bs : List Byte) (i n : Nat) : (slice bs i n).length = min n (bs.length - i) := by simp [slice]

@[simp] theorem padTo_length (n : Nat) (bs : List Byte) : (padTo n bs).length = n := by
  simp only [padTo, List.length_append, List.length_take, List.length_replicate]; omega

@[simp] theorem xorBytes_length (a b : List Byte) : (xorBytes a b).length = min a.length b.length := by simp [xorBytes]

@[simp] theorem aesShift_length (d : Nat) (s : List Byte) : (aesShift d s).length = 16 := by simp [aesShift]

/-- The key schedule adds a word at a time, each of four bytes. -/
theorem aesExpand_words (n i : Nat) (rcon : Byte) (w : List (List Byte)) (hw : 8 ≤ w.length) (h4 : ∀ x ∈ w, x.length = 4) :
    (aesExpand n i rcon w).length = w.length + n ∧ ∀ x ∈ aesExpand n i rcon w, x.length = 4 := by
  induction n generalizing i rcon w with
  | zero => exact ⟨rfl, h4⟩
  | succ n ih =>
    have get4 (j : Nat) (hj : j < 8) : (w.getD j []).length = 4 := by
      rw [List.getD_eq_getElem?_getD, List.getElem?_eq_getElem (by omega)]; exact h4 _ (List.getElem_mem _)
    have h0 := get4 0 (by omega)
    have h7 := get4 7 (by omega)
    have go (t : List Byte) (r : Byte) (ht : t.length = 4) :
        (aesExpand n (i + 1) r ((w.getD 7 []).zipWith (· ^^^ ·) t :: w)).length = w.length + (n + 1) ∧
          ∀ x ∈ aesExpand n (i + 1) r ((w.getD 7 []).zipWith (· ^^^ ·) t :: w), x.length = 4 := by
      have := ih (i + 1) r ((w.getD 7 []).zipWith (· ^^^ ·) t :: w) (by rw [List.length_cons]; omega) (by
        intro x hx
        rcases List.mem_cons.1 hx with rfl | hx
        · rw [List.length_zipWith, h7, ht]; rfl
        · exact h4 x hx)
      exact ⟨by rw [this.1, List.length_cons]; omega, this.2⟩
    unfold aesExpand
    by_cases h8 : i % 8 = 0
    · simp only [h8, if_pos]
      exact go _ _ (by rw [List.length_modify, List.length_map, List.length_append, List.length_drop, List.length_take, h0]; rfl)
    · by_cases hm : i % 8 = 4
      · simp only [if_neg h8, if_pos hm]
        exact go _ _ (by rw [List.length_map, h0])
      · simp only [h8, hm, if_false]
        exact go _ _ h0

/-- Lists of one length, joined. -/
theorem flatten_length {k : Nat} (w : List (List Byte)) (h : ∀ x ∈ w, x.length = k) : w.flatten.length = w.length * k := by
  induction w with
  | nil => simp
  | cons x w ih =>
    rw [List.flatten_cons, List.length_append, ih fun y hy => h y (List.mem_cons_of_mem _ hy), h x List.mem_cons_self,
      List.length_cons, Nat.add_mul, Nat.one_mul, Nat.add_comm]

/-- The fifteenth round key has sixteen bytes. -/
theorem aesKeys_last (key : List Byte) : ((aesKeys key).getD 14 []).length = 16 := by
  have h := aesExpand_words 52 8 1 ((List.range 8).map fun i => slice (padTo 32 key) (4 * i) 4).reverse (by simp) (by
    intro x hx
    obtain ⟨i, hi, rfl⟩ := by simpa using hx
    simp; omega)
  unfold aesKeys
  generalize aesExpand 52 8 1 ((List.range 8).map fun i => slice (padTo 32 key) (4 * i) 4).reverse = w at h ⊢
  have hl : (w.reverse).length = 60 := by simp [h.1]
  have h4 : ∀ x ∈ (w.reverse.drop 56).take 4, x.length = 4 := fun x hx =>
    h.2 x (List.mem_reverse.1 (List.mem_of_mem_drop (List.mem_of_mem_take hx)))
  have hn : ((w.reverse.drop 56).take 4).length = 4 := by simp [hl]
  have : ((w.reverse.drop 56).take 4).flatten.length = 16 := by rw [flatten_length _ h4, hn]
  simpa [aesKeys.slice16] using this

@[simp] theorem aesRounds_length (key block : List Byte) : (aesRounds (aesKeys key) block).length = 16 := by
  rw [aesRounds, xorBytes_length, aesShift_length, aesKeys_last]; rfl

@[simp] theorem aes256_length (key block : List Byte) : (aes256 key block).length = 16 := by unfold aes256; simp

@[simp] theorem gcmTag_length (key iv aad ct : List Byte) : (gcmTag key iv aad ct).length = 16 := by unfold gcmTag; simp

@[simp] theorem gcmStream_length (key iv : List Byte) (n : Nat) : (gcmStream key iv n).length = n := by
  unfold gcmStream
  have : ((List.range (ceilDiv n 16)).flatMap fun i => aesRounds (aesKeys key) (iv ++ toBE 4 (i + 2))).length = ceilDiv n 16 * 16 := by
    rw [List.flatMap_def, flatten_length _ (k := 16) (by simp), List.length_map, List.length_range]
  rw [List.length_take]
  show min n ((List.range (ceilDiv n 16)).flatMap fun i => aesRounds (aesKeys key) (iv ++ toBE 4 (i + 2))).length = n
  rw [this, ceilDiv]; omega

/-- A protected payload is 128 bytes: the tag stands in its last 16. -/
@[simp] theorem sealCell_length (key iv aad body : List Byte) (n : Nat) : (sealCell key iv aad body n).length = 128 := by
  simp [sealCell]

/-- A list XORed twice with one that is as long. -/
theorem xorBytes_twice (a b : List Byte) (h : a.length = b.length) : xorBytes (xorBytes a b) b = a := by
  induction a generalizing b with
  | nil => simp [xorBytes]
  | cons x a ih => cases b with
    | nil => simp at h
    | cons y b =>
      have := ih b (by simpa using h)
      simp only [xorBytes] at this
      simp [xorBytes, this, BitVec.xor_assoc]

end Sys2Proof.Machine
end

