-- ==== Sys2Proof/Laws/State.lean ====
section
/-! SUPPORT. What each named update of the hub leaves alone, and what it sets: one lemma per field. -/

namespace Sys2Proof.Machine

variable (h : Hub)

/-! ### put -/

@[simp] theorem Hub.put_objs (k v : Nat) : (h.put k v).objs = h.objs.write k (fitObj k v) := rfl
@[simp] theorem Hub.put_mem (k v : Nat) : (h.put k v).mem = h.mem := rfl
@[simp] theorem Hub.put_octs (k v : Nat) : (h.put k v).octs = h.octs := rfl
@[simp] theorem Hub.put_waiting (k v : Nat) : (h.put k v).waiting = h.waiting := rfl
@[simp] theorem Hub.put_heldActs (k v : Nat) : (h.put k v).heldActs = h.heldActs := rfl
@[simp] theorem Hub.put_staged (k v : Nat) : (h.put k v).staged = h.staged := rfl
@[simp] theorem Hub.put_origins (k v : Nat) : (h.put k v).origins = h.origins := rfl
@[simp] theorem Hub.put_seg (k v : Nat) : (h.put k v).seg = h.seg := rfl
@[simp] theorem Hub.put_mram (k v : Nat) : (h.put k v).mram = h.mram := rfl
@[simp] theorem Hub.put_storeRun (k v : Nat) : (h.put k v).storeRun = h.storeRun := rfl
@[simp] theorem Hub.put_hold (k v : Nat) : (h.put k v).hold = h.hold := rfl
@[simp] theorem Hub.put_now (k v : Nat) : (h.put k v).now = h.now := rfl
@[simp] theorem Hub.put_timers (k v : Nat) : (h.put k v).timers = h.timers := rfl
@[simp] theorem Hub.put_out (k v : Nat) : (h.put k v).out = h.out := rfl
@[simp] theorem Hub.put_freeCtr (k v : Nat) : (h.put k v).freeCtr = h.freeCtr := rfl
@[simp] theorem Hub.put_netTime (k v : Nat) : (h.put k v).netTime = h.netTime := rfl
@[simp] theorem Hub.put_netRuns (k v : Nat) : (h.put k v).netRuns = h.netRuns := rfl
@[simp] theorem Hub.put_hop (k v : Nat) : (h.put k v).hop = h.hop := rfl
@[simp] theorem Hub.put_bridge (k v : Nat) : (h.put k v).bridge = h.bridge := rfl
@[simp] theorem Hub.put_links (k v : Nat) : (h.put k v).links = h.links := rfl
@[simp] theorem Hub.put_hopIn (k v : Nat) : (h.put k v).hopIn = h.hopIn := rfl
@[simp] theorem Hub.put_pathOver (k v : Nat) : (h.put k v).pathOver = h.pathOver := rfl
@[simp] theorem Hub.put_core (k v : Nat) : (h.put k v).core = h.core := rfl
@[simp] theorem Hub.put_dma (k v : Nat) : (h.put k v).dma = h.dma := rfl
@[simp] theorem Hub.put_pcie (k v : Nat) : (h.put k v).pcie = h.pcie := rfl
@[simp] theorem Hub.put_cam (k v : Nat) : (h.put k v).cam = h.cam := rfl
@[simp] theorem Hub.put_trig (k v : Nat) : (h.put k v).trig = h.trig := rfl
@[simp] theorem Hub.put_disp (k v : Nat) : (h.put k v).disp = h.disp := rfl
@[simp] theorem Hub.put_planes (k v : Nat) : (h.put k v).planes = h.planes := rfl
@[simp] theorem Hub.put_eth (k v : Nat) : (h.put k v).eth = h.eth := rfl
@[simp] theorem Hub.put_net (k v : Nat) : (h.put k v).net = h.net := rfl
@[simp] theorem Hub.put_xchg (k v : Nat) : (h.put k v).xchg = h.xchg := rfl
@[simp] theorem Hub.put_axl (k v : Nat) : (h.put k v).axl = h.axl := rfl
@[simp] theorem Hub.put_mot (k v : Nat) : (h.put k v).mot = h.mot := rfl
@[simp] theorem Hub.put_gpio (k v : Nat) : (h.put k v).gpio = h.gpio := rfl
@[simp] theorem Hub.put_masters (k v : Nat) : (h.put k v).masters = h.masters := rfl
@[simp] theorem Hub.put_uarts (k v : Nat) : (h.put k v).uarts = h.uarts := rfl
@[simp] theorem Hub.put_usb (k v : Nat) : (h.put k v).usb = h.usb := rfl
@[simp] theorem Hub.put_engs (k v : Nat) : (h.put k v).engs = h.engs := rfl
@[simp] theorem Hub.put_fw (k v : Nat) : (h.put k v).fw = h.fw := rfl
@[simp] theorem Hub.put_clk (k v : Nat) : (h.put k v).clk = h.clk := rfl
@[simp] theorem Hub.put_doms (k v : Nat) : (h.put k v).doms = h.doms := rfl
@[simp] theorem Hub.put_sim (k v : Nat) : (h.put k v).sim = h.sim := rfl
@[simp] theorem Hub.put_pd (k v : Nat) : (h.put k v).pd = h.pd := rfl
@[simp] theorem Hub.put_slots (k v : Nat) : (h.put k v).slots = h.slots := rfl
@[simp] theorem Hub.put_feeds (k v : Nat) : (h.put k v).feeds = h.feeds := rfl
@[simp] theorem Hub.put_caddy (k v : Nat) : (h.put k v).caddy = h.caddy := rfl
@[simp] theorem Hub.put_safety (k v : Nat) : (h.put k v).safety = h.safety := rfl
@[simp] theorem Hub.put_boot (k v : Nat) : (h.put k v).boot = h.boot := rfl

/-! ### emit -/

@[simp] theorem Hub.emit_out (x : Out) : (h.emit x).out = h.out ++ [x] := rfl
@[simp] theorem Hub.emit_objs (x : Out) : (h.emit x).objs = h.objs := rfl
@[simp] theorem Hub.emit_mem (x : Out) : (h.emit x).mem = h.mem := rfl
@[simp] theorem Hub.emit_octs (x : Out) : (h.emit x).octs = h.octs := rfl
@[simp] theorem Hub.emit_waiting (x : Out) : (h.emit x).waiting = h.waiting := rfl
@[simp] theorem Hub.emit_heldActs (x : Out) : (h.emit x).heldActs = h.heldActs := rfl
@[simp] theorem Hub.emit_staged (x : Out) : (h.emit x).staged = h.staged := rfl
@[simp] theorem Hub.emit_origins (x : Out) : (h.emit x).origins = h.origins := rfl
@[simp] theorem Hub.emit_seg (x : Out) : (h.emit x).seg = h.seg := rfl
@[simp] theorem Hub.emit_mram (x : Out) : (h.emit x).mram = h.mram := rfl
@[simp] theorem Hub.emit_storeRun (x : Out) : (h.emit x).storeRun = h.storeRun := rfl
@[simp] theorem Hub.emit_hold (x : Out) : (h.emit x).hold = h.hold := rfl
@[simp] theorem Hub.emit_now (x : Out) : (h.emit x).now = h.now := rfl
@[simp] theorem Hub.emit_timers (x : Out) : (h.emit x).timers = h.timers := rfl
@[simp] theorem Hub.emit_freeCtr (x : Out) : (h.emit x).freeCtr = h.freeCtr := rfl
@[simp] theorem Hub.emit_netTime (x : Out) : (h.emit x).netTime = h.netTime := rfl
@[simp] theorem Hub.emit_netRuns (x : Out) : (h.emit x).netRuns = h.netRuns := rfl
@[simp] theorem Hub.emit_hop (x : Out) : (h.emit x).hop = h.hop := rfl
@[simp] theorem Hub.emit_bridge (x : Out) : (h.emit x).bridge = h.bridge := rfl
@[simp] theorem Hub.emit_links (x : Out) : (h.emit x).links = h.links := rfl
@[simp] theorem Hub.emit_hopIn (x : Out) : (h.emit x).hopIn = h.hopIn := rfl
@[simp] theorem Hub.emit_pathOver (x : Out) : (h.emit x).pathOver = h.pathOver := rfl
@[simp] theorem Hub.emit_core (x : Out) : (h.emit x).core = h.core := rfl
@[simp] theorem Hub.emit_dma (x : Out) : (h.emit x).dma = h.dma := rfl
@[simp] theorem Hub.emit_pcie (x : Out) : (h.emit x).pcie = h.pcie := rfl
@[simp] theorem Hub.emit_cam (x : Out) : (h.emit x).cam = h.cam := rfl
@[simp] theorem Hub.emit_trig (x : Out) : (h.emit x).trig = h.trig := rfl
@[simp] theorem Hub.emit_disp (x : Out) : (h.emit x).disp = h.disp := rfl
@[simp] theorem Hub.emit_planes (x : Out) : (h.emit x).planes = h.planes := rfl
@[simp] theorem Hub.emit_eth (x : Out) : (h.emit x).eth = h.eth := rfl
@[simp] theorem Hub.emit_net (x : Out) : (h.emit x).net = h.net := rfl
@[simp] theorem Hub.emit_xchg (x : Out) : (h.emit x).xchg = h.xchg := rfl
@[simp] theorem Hub.emit_axl (x : Out) : (h.emit x).axl = h.axl := rfl
@[simp] theorem Hub.emit_mot (x : Out) : (h.emit x).mot = h.mot := rfl
@[simp] theorem Hub.emit_gpio (x : Out) : (h.emit x).gpio = h.gpio := rfl
@[simp] theorem Hub.emit_masters (x : Out) : (h.emit x).masters = h.masters := rfl
@[simp] theorem Hub.emit_uarts (x : Out) : (h.emit x).uarts = h.uarts := rfl
@[simp] theorem Hub.emit_usb (x : Out) : (h.emit x).usb = h.usb := rfl
@[simp] theorem Hub.emit_engs (x : Out) : (h.emit x).engs = h.engs := rfl
@[simp] theorem Hub.emit_fw (x : Out) : (h.emit x).fw = h.fw := rfl
@[simp] theorem Hub.emit_clk (x : Out) : (h.emit x).clk = h.clk := rfl
@[simp] theorem Hub.emit_doms (x : Out) : (h.emit x).doms = h.doms := rfl
@[simp] theorem Hub.emit_sim (x : Out) : (h.emit x).sim = h.sim := rfl
@[simp] theorem Hub.emit_pd (x : Out) : (h.emit x).pd = h.pd := rfl
@[simp] theorem Hub.emit_slots (x : Out) : (h.emit x).slots = h.slots := rfl
@[simp] theorem Hub.emit_feeds (x : Out) : (h.emit x).feeds = h.feeds := rfl
@[simp] theorem Hub.emit_caddy (x : Out) : (h.emit x).caddy = h.caddy := rfl
@[simp] theorem Hub.emit_safety (x : Out) : (h.emit x).safety = h.safety := rfl
@[simp] theorem Hub.emit_boot (x : Out) : (h.emit x).boot = h.boot := rfl

/-! ### arm -/

@[simp] theorem Hub.arm_timers (t : Timer) (d : Nat) : (h.arm t d).timers = (t, h.now + d) :: h.timers.filter (fun x => x.1 != t) := rfl
@[simp] theorem Hub.arm_objs (t : Timer) (d : Nat) : (h.arm t d).objs = h.objs := rfl
@[simp] theorem Hub.arm_mem (t : Timer) (d : Nat) : (h.arm t d).mem = h.mem := rfl
@[simp] theorem Hub.arm_octs (t : Timer) (d : Nat) : (h.arm t d).octs = h.octs := rfl
@[simp] theorem Hub.arm_waiting (t : Timer) (d : Nat) : (h.arm t d).waiting = h.waiting := rfl
@[simp] theorem Hub.arm_heldActs (t : Timer) (d : Nat) : (h.arm t d).heldActs = h.heldActs := rfl
@[simp] theorem Hub.arm_staged (t : Timer) (d : Nat) : (h.arm t d).staged = h.staged := rfl
@[simp] theorem Hub.arm_origins (t : Timer) (d : Nat) : (h.arm t d).origins = h.origins := rfl
@[simp] theorem Hub.arm_seg (t : Timer) (d : Nat) : (h.arm t d).seg = h.seg := rfl
@[simp] theorem Hub.arm_mram (t : Timer) (d : Nat) : (h.arm t d).mram = h.mram := rfl
@[simp] theorem Hub.arm_storeRun (t : Timer) (d : Nat) : (h.arm t d).storeRun = h.storeRun := rfl
@[simp] theorem Hub.arm_hold (t : Timer) (d : Nat) : (h.arm t d).hold = h.hold := rfl
@[simp] theorem Hub.arm_now (t : Timer) (d : Nat) : (h.arm t d).now = h.now := rfl
@[simp] theorem Hub.arm_out (t : Timer) (d : Nat) : (h.arm t d).out = h.out := rfl
@[simp] theorem Hub.arm_freeCtr (t : Timer) (d : Nat) : (h.arm t d).freeCtr = h.freeCtr := rfl
@[simp] theorem Hub.arm_netTime (t : Timer) (d : Nat) : (h.arm t d).netTime = h.netTime := rfl
@[simp] theorem Hub.arm_netRuns (t : Timer) (d : Nat) : (h.arm t d).netRuns = h.netRuns := rfl
@[simp] theorem Hub.arm_hop (t : Timer) (d : Nat) : (h.arm t d).hop = h.hop := rfl
@[simp] theorem Hub.arm_bridge (t : Timer) (d : Nat) : (h.arm t d).bridge = h.bridge := rfl
@[simp] theorem Hub.arm_links (t : Timer) (d : Nat) : (h.arm t d).links = h.links := rfl
@[simp] theorem Hub.arm_hopIn (t : Timer) (d : Nat) : (h.arm t d).hopIn = h.hopIn := rfl
@[simp] theorem Hub.arm_pathOver (t : Timer) (d : Nat) : (h.arm t d).pathOver = h.pathOver := rfl
@[simp] theorem Hub.arm_core (t : Timer) (d : Nat) : (h.arm t d).core = h.core := rfl
@[simp] theorem Hub.arm_dma (t : Timer) (d : Nat) : (h.arm t d).dma = h.dma := rfl
@[simp] theorem Hub.arm_pcie (t : Timer) (d : Nat) : (h.arm t d).pcie = h.pcie := rfl
@[simp] theorem Hub.arm_cam (t : Timer) (d : Nat) : (h.arm t d).cam = h.cam := rfl
@[simp] theorem Hub.arm_trig (t : Timer) (d : Nat) : (h.arm t d).trig = h.trig := rfl
@[simp] theorem Hub.arm_disp (t : Timer) (d : Nat) : (h.arm t d).disp = h.disp := rfl
@[simp] theorem Hub.arm_planes (t : Timer) (d : Nat) : (h.arm t d).planes = h.planes := rfl
@[simp] theorem Hub.arm_eth (t : Timer) (d : Nat) : (h.arm t d).eth = h.eth := rfl
@[simp] theorem Hub.arm_net (t : Timer) (d : Nat) : (h.arm t d).net = h.net := rfl
@[simp] theorem Hub.arm_xchg (t : Timer) (d : Nat) : (h.arm t d).xchg = h.xchg := rfl
@[simp] theorem Hub.arm_axl (t : Timer) (d : Nat) : (h.arm t d).axl = h.axl := rfl
@[simp] theorem Hub.arm_mot (t : Timer) (d : Nat) : (h.arm t d).mot = h.mot := rfl
@[simp] theorem Hub.arm_gpio (t : Timer) (d : Nat) : (h.arm t d).gpio = h.gpio := rfl
@[simp] theorem Hub.arm_masters (t : Timer) (d : Nat) : (h.arm t d).masters = h.masters := rfl
@[simp] theorem Hub.arm_uarts (t : Timer) (d : Nat) : (h.arm t d).uarts = h.uarts := rfl
@[simp] theorem Hub.arm_usb (t : Timer) (d : Nat) : (h.arm t d).usb = h.usb := rfl
@[simp] theorem Hub.arm_engs (t : Timer) (d : Nat) : (h.arm t d).engs = h.engs := rfl
@[simp] theorem Hub.arm_fw (t : Timer) (d : Nat) : (h.arm t d).fw = h.fw := rfl
@[simp] theorem Hub.arm_clk (t : Timer) (d : Nat) : (h.arm t d).clk = h.clk := rfl
@[simp] theorem Hub.arm_doms (t : Timer) (d : Nat) : (h.arm t d).doms = h.doms := rfl
@[simp] theorem Hub.arm_sim (t : Timer) (d : Nat) : (h.arm t d).sim = h.sim := rfl
@[simp] theorem Hub.arm_pd (t : Timer) (d : Nat) : (h.arm t d).pd = h.pd := rfl
@[simp] theorem Hub.arm_slots (t : Timer) (d : Nat) : (h.arm t d).slots = h.slots := rfl
@[simp] theorem Hub.arm_feeds (t : Timer) (d : Nat) : (h.arm t d).feeds = h.feeds := rfl
@[simp] theorem Hub.arm_caddy (t : Timer) (d : Nat) : (h.arm t d).caddy = h.caddy := rfl
@[simp] theorem Hub.arm_safety (t : Timer) (d : Nat) : (h.arm t d).safety = h.safety := rfl
@[simp] theorem Hub.arm_boot (t : Timer) (d : Nat) : (h.arm t d).boot = h.boot := rfl

/-! ### disarm -/

@[simp] theorem Hub.disarm_timers (t : Timer) : (h.disarm t).timers = h.timers.filter (fun x => x.1 != t) := rfl
@[simp] theorem Hub.disarm_objs (t : Timer) : (h.disarm t).objs = h.objs := rfl
@[simp] theorem Hub.disarm_mem (t : Timer) : (h.disarm t).mem = h.mem := rfl
@[simp] theorem Hub.disarm_octs (t : Timer) : (h.disarm t).octs = h.octs := rfl
@[simp] theorem Hub.disarm_waiting (t : Timer) : (h.disarm t).waiting = h.waiting := rfl
@[simp] theorem Hub.disarm_heldActs (t : Timer) : (h.disarm t).heldActs = h.heldActs := rfl
@[simp] theorem Hub.disarm_staged (t : Timer) : (h.disarm t).staged = h.staged := rfl
@[simp] theorem Hub.disarm_origins (t : Timer) : (h.disarm t).origins = h.origins := rfl
@[simp] theorem Hub.disarm_seg (t : Timer) : (h.disarm t).seg = h.seg := rfl
@[simp] theorem Hub.disarm_mram (t : Timer) : (h.disarm t).mram = h.mram := rfl
@[simp] theorem Hub.disarm_storeRun (t : Timer) : (h.disarm t).storeRun = h.storeRun := rfl
@[simp] theorem Hub.disarm_hold (t : Timer) : (h.disarm t).hold = h.hold := rfl
@[simp] theorem Hub.disarm_now (t : Timer) : (h.disarm t).now = h.now := rfl
@[simp] theorem Hub.disarm_out (t : Timer) : (h.disarm t).out = h.out := rfl
@[simp] theorem Hub.disarm_freeCtr (t : Timer) : (h.disarm t).freeCtr = h.freeCtr := rfl
@[simp] theorem Hub.disarm_netTime (t : Timer) : (h.disarm t).netTime = h.netTime := rfl
@[simp] theorem Hub.disarm_netRuns (t : Timer) : (h.disarm t).netRuns = h.netRuns := rfl
@[simp] theorem Hub.disarm_hop (t : Timer) : (h.disarm t).hop = h.hop := rfl
@[simp] theorem Hub.disarm_bridge (t : Timer) : (h.disarm t).bridge = h.bridge := rfl
@[simp] theorem Hub.disarm_links (t : Timer) : (h.disarm t).links = h.links := rfl
@[simp] theorem Hub.disarm_hopIn (t : Timer) : (h.disarm t).hopIn = h.hopIn := rfl
@[simp] theorem Hub.disarm_pathOver (t : Timer) : (h.disarm t).pathOver = h.pathOver := rfl
@[simp] theorem Hub.disarm_core (t : Timer) : (h.disarm t).core = h.core := rfl
@[simp] theorem Hub.disarm_dma (t : Timer) : (h.disarm t).dma = h.dma := rfl
@[simp] theorem Hub.disarm_pcie (t : Timer) : (h.disarm t).pcie = h.pcie := rfl
@[simp] theorem Hub.disarm_cam (t : Timer) : (h.disarm t).cam = h.cam := rfl
@[simp] theorem Hub.disarm_trig (t : Timer) : (h.disarm t).trig = h.trig := rfl
@[simp] theorem Hub.disarm_disp (t : Timer) : (h.disarm t).disp = h.disp := rfl
@[simp] theorem Hub.disarm_planes (t : Timer) : (h.disarm t).planes = h.planes := rfl
@[simp] theorem Hub.disarm_eth (t : Timer) : (h.disarm t).eth = h.eth := rfl
@[simp] theorem Hub.disarm_net (t : Timer) : (h.disarm t).net = h.net := rfl
@[simp] theorem Hub.disarm_xchg (t : Timer) : (h.disarm t).xchg = h.xchg := rfl
@[simp] theorem Hub.disarm_axl (t : Timer) : (h.disarm t).axl = h.axl := rfl
@[simp] theorem Hub.disarm_mot (t : Timer) : (h.disarm t).mot = h.mot := rfl
@[simp] theorem Hub.disarm_gpio (t : Timer) : (h.disarm t).gpio = h.gpio := rfl
@[simp] theorem Hub.disarm_masters (t : Timer) : (h.disarm t).masters = h.masters := rfl
@[simp] theorem Hub.disarm_uarts (t : Timer) : (h.disarm t).uarts = h.uarts := rfl
@[simp] theorem Hub.disarm_usb (t : Timer) : (h.disarm t).usb = h.usb := rfl
@[simp] theorem Hub.disarm_engs (t : Timer) : (h.disarm t).engs = h.engs := rfl
@[simp] theorem Hub.disarm_fw (t : Timer) : (h.disarm t).fw = h.fw := rfl
@[simp] theorem Hub.disarm_clk (t : Timer) : (h.disarm t).clk = h.clk := rfl
@[simp] theorem Hub.disarm_doms (t : Timer) : (h.disarm t).doms = h.doms := rfl
@[simp] theorem Hub.disarm_sim (t : Timer) : (h.disarm t).sim = h.sim := rfl
@[simp] theorem Hub.disarm_pd (t : Timer) : (h.disarm t).pd = h.pd := rfl
@[simp] theorem Hub.disarm_slots (t : Timer) : (h.disarm t).slots = h.slots := rfl
@[simp] theorem Hub.disarm_feeds (t : Timer) : (h.disarm t).feeds = h.feeds := rfl
@[simp] theorem Hub.disarm_caddy (t : Timer) : (h.disarm t).caddy = h.caddy := rfl
@[simp] theorem Hub.disarm_safety (t : Timer) : (h.disarm t).safety = h.safety := rfl
@[simp] theorem Hub.disarm_boot (t : Timer) : (h.disarm t).boot = h.boot := rfl

/-! ### used -/

@[simp] theorem Hub.used_freeCtr : (h.used).freeCtr = h.freeCtr + 1 := rfl
@[simp] theorem Hub.used_objs : (h.used).objs = h.objs := rfl
@[simp] theorem Hub.used_mem : (h.used).mem = h.mem := rfl
@[simp] theorem Hub.used_octs : (h.used).octs = h.octs := rfl
@[simp] theorem Hub.used_waiting : (h.used).waiting = h.waiting := rfl
@[simp] theorem Hub.used_heldActs : (h.used).heldActs = h.heldActs := rfl
@[simp] theorem Hub.used_staged : (h.used).staged = h.staged := rfl
@[simp] theorem Hub.used_origins : (h.used).origins = h.origins := rfl
@[simp] theorem Hub.used_seg : (h.used).seg = h.seg := rfl
@[simp] theorem Hub.used_mram : (h.used).mram = h.mram := rfl
@[simp] theorem Hub.used_storeRun : (h.used).storeRun = h.storeRun := rfl
@[simp] theorem Hub.used_hold : (h.used).hold = h.hold := rfl
@[simp] theorem Hub.used_now : (h.used).now = h.now := rfl
@[simp] theorem Hub.used_timers : (h.used).timers = h.timers := rfl
@[simp] theorem Hub.used_out : (h.used).out = h.out := rfl
@[simp] theorem Hub.used_netTime : (h.used).netTime = h.netTime := rfl
@[simp] theorem Hub.used_netRuns : (h.used).netRuns = h.netRuns := rfl
@[simp] theorem Hub.used_hop : (h.used).hop = h.hop := rfl
@[simp] theorem Hub.used_bridge : (h.used).bridge = h.bridge := rfl
@[simp] theorem Hub.used_links : (h.used).links = h.links := rfl
@[simp] theorem Hub.used_hopIn : (h.used).hopIn = h.hopIn := rfl
@[simp] theorem Hub.used_pathOver : (h.used).pathOver = h.pathOver := rfl
@[simp] theorem Hub.used_core : (h.used).core = h.core := rfl
@[simp] theorem Hub.used_dma : (h.used).dma = h.dma := rfl
@[simp] theorem Hub.used_pcie : (h.used).pcie = h.pcie := rfl
@[simp] theorem Hub.used_cam : (h.used).cam = h.cam := rfl
@[simp] theorem Hub.used_trig : (h.used).trig = h.trig := rfl
@[simp] theorem Hub.used_disp : (h.used).disp = h.disp := rfl
@[simp] theorem Hub.used_planes : (h.used).planes = h.planes := rfl
@[simp] theorem Hub.used_eth : (h.used).eth = h.eth := rfl
@[simp] theorem Hub.used_net : (h.used).net = h.net := rfl
@[simp] theorem Hub.used_xchg : (h.used).xchg = h.xchg := rfl
@[simp] theorem Hub.used_axl : (h.used).axl = h.axl := rfl
@[simp] theorem Hub.used_mot : (h.used).mot = h.mot := rfl
@[simp] theorem Hub.used_gpio : (h.used).gpio = h.gpio := rfl
@[simp] theorem Hub.used_masters : (h.used).masters = h.masters := rfl
@[simp] theorem Hub.used_uarts : (h.used).uarts = h.uarts := rfl
@[simp] theorem Hub.used_usb : (h.used).usb = h.usb := rfl
@[simp] theorem Hub.used_engs : (h.used).engs = h.engs := rfl
@[simp] theorem Hub.used_fw : (h.used).fw = h.fw := rfl
@[simp] theorem Hub.used_clk : (h.used).clk = h.clk := rfl
@[simp] theorem Hub.used_doms : (h.used).doms = h.doms := rfl
@[simp] theorem Hub.used_sim : (h.used).sim = h.sim := rfl
@[simp] theorem Hub.used_pd : (h.used).pd = h.pd := rfl
@[simp] theorem Hub.used_slots : (h.used).slots = h.slots := rfl
@[simp] theorem Hub.used_feeds : (h.used).feeds = h.feeds := rfl
@[simp] theorem Hub.used_caddy : (h.used).caddy = h.caddy := rfl
@[simp] theorem Hub.used_safety : (h.used).safety = h.safety := rfl
@[simp] theorem Hub.used_boot : (h.used).boot = h.boot := rfl

/-! ### memPut -/

@[simp] theorem Hub.memPut_mem (a : Nat) (b : Byte) : (h.memPut a b).mem = h.mem.write a b := rfl
@[simp] theorem Hub.memPut_objs (a : Nat) (b : Byte) : (h.memPut a b).objs = h.objs := rfl
@[simp] theorem Hub.memPut_octs (a : Nat) (b : Byte) : (h.memPut a b).octs = h.octs := rfl
@[simp] theorem Hub.memPut_waiting (a : Nat) (b : Byte) : (h.memPut a b).waiting = h.waiting := rfl
@[simp] theorem Hub.memPut_heldActs (a : Nat) (b : Byte) : (h.memPut a b).heldActs = h.heldActs := rfl
@[simp] theorem Hub.memPut_staged (a : Nat) (b : Byte) : (h.memPut a b).staged = h.staged := rfl
@[simp] theorem Hub.memPut_origins (a : Nat) (b : Byte) : (h.memPut a b).origins = h.origins := rfl
@[simp] theorem Hub.memPut_seg (a : Nat) (b : Byte) : (h.memPut a b).seg = h.seg := rfl
@[simp] theorem Hub.memPut_mram (a : Nat) (b : Byte) : (h.memPut a b).mram = h.mram := rfl
@[simp] theorem Hub.memPut_storeRun (a : Nat) (b : Byte) : (h.memPut a b).storeRun = h.storeRun := rfl
@[simp] theorem Hub.memPut_hold (a : Nat) (b : Byte) : (h.memPut a b).hold = h.hold := rfl
@[simp] theorem Hub.memPut_now (a : Nat) (b : Byte) : (h.memPut a b).now = h.now := rfl
@[simp] theorem Hub.memPut_timers (a : Nat) (b : Byte) : (h.memPut a b).timers = h.timers := rfl
@[simp] theorem Hub.memPut_out (a : Nat) (b : Byte) : (h.memPut a b).out = h.out := rfl
@[simp] theorem Hub.memPut_freeCtr (a : Nat) (b : Byte) : (h.memPut a b).freeCtr = h.freeCtr := rfl
@[simp] theorem Hub.memPut_netTime (a : Nat) (b : Byte) : (h.memPut a b).netTime = h.netTime := rfl
@[simp] theorem Hub.memPut_netRuns (a : Nat) (b : Byte) : (h.memPut a b).netRuns = h.netRuns := rfl
@[simp] theorem Hub.memPut_hop (a : Nat) (b : Byte) : (h.memPut a b).hop = h.hop := rfl
@[simp] theorem Hub.memPut_bridge (a : Nat) (b : Byte) : (h.memPut a b).bridge = h.bridge := rfl
@[simp] theorem Hub.memPut_links (a : Nat) (b : Byte) : (h.memPut a b).links = h.links := rfl
@[simp] theorem Hub.memPut_hopIn (a : Nat) (b : Byte) : (h.memPut a b).hopIn = h.hopIn := rfl
@[simp] theorem Hub.memPut_pathOver (a : Nat) (b : Byte) : (h.memPut a b).pathOver = h.pathOver := rfl
@[simp] theorem Hub.memPut_core (a : Nat) (b : Byte) : (h.memPut a b).core = h.core := rfl
@[simp] theorem Hub.memPut_dma (a : Nat) (b : Byte) : (h.memPut a b).dma = h.dma := rfl
@[simp] theorem Hub.memPut_pcie (a : Nat) (b : Byte) : (h.memPut a b).pcie = h.pcie := rfl
@[simp] theorem Hub.memPut_cam (a : Nat) (b : Byte) : (h.memPut a b).cam = h.cam := rfl
@[simp] theorem Hub.memPut_trig (a : Nat) (b : Byte) : (h.memPut a b).trig = h.trig := rfl
@[simp] theorem Hub.memPut_disp (a : Nat) (b : Byte) : (h.memPut a b).disp = h.disp := rfl
@[simp] theorem Hub.memPut_planes (a : Nat) (b : Byte) : (h.memPut a b).planes = h.planes := rfl
@[simp] theorem Hub.memPut_eth (a : Nat) (b : Byte) : (h.memPut a b).eth = h.eth := rfl
@[simp] theorem Hub.memPut_net (a : Nat) (b : Byte) : (h.memPut a b).net = h.net := rfl
@[simp] theorem Hub.memPut_xchg (a : Nat) (b : Byte) : (h.memPut a b).xchg = h.xchg := rfl
@[simp] theorem Hub.memPut_axl (a : Nat) (b : Byte) : (h.memPut a b).axl = h.axl := rfl
@[simp] theorem Hub.memPut_mot (a : Nat) (b : Byte) : (h.memPut a b).mot = h.mot := rfl
@[simp] theorem Hub.memPut_gpio (a : Nat) (b : Byte) : (h.memPut a b).gpio = h.gpio := rfl
@[simp] theorem Hub.memPut_masters (a : Nat) (b : Byte) : (h.memPut a b).masters = h.masters := rfl
@[simp] theorem Hub.memPut_uarts (a : Nat) (b : Byte) : (h.memPut a b).uarts = h.uarts := rfl
@[simp] theorem Hub.memPut_usb (a : Nat) (b : Byte) : (h.memPut a b).usb = h.usb := rfl
@[simp] theorem Hub.memPut_engs (a : Nat) (b : Byte) : (h.memPut a b).engs = h.engs := rfl
@[simp] theorem Hub.memPut_fw (a : Nat) (b : Byte) : (h.memPut a b).fw = h.fw := rfl
@[simp] theorem Hub.memPut_clk (a : Nat) (b : Byte) : (h.memPut a b).clk = h.clk := rfl
@[simp] theorem Hub.memPut_doms (a : Nat) (b : Byte) : (h.memPut a b).doms = h.doms := rfl
@[simp] theorem Hub.memPut_sim (a : Nat) (b : Byte) : (h.memPut a b).sim = h.sim := rfl
@[simp] theorem Hub.memPut_pd (a : Nat) (b : Byte) : (h.memPut a b).pd = h.pd := rfl
@[simp] theorem Hub.memPut_slots (a : Nat) (b : Byte) : (h.memPut a b).slots = h.slots := rfl
@[simp] theorem Hub.memPut_feeds (a : Nat) (b : Byte) : (h.memPut a b).feeds = h.feeds := rfl
@[simp] theorem Hub.memPut_caddy (a : Nat) (b : Byte) : (h.memPut a b).caddy = h.caddy := rfl
@[simp] theorem Hub.memPut_safety (a : Nat) (b : Byte) : (h.memPut a b).safety = h.safety := rfl
@[simp] theorem Hub.memPut_boot (a : Nat) (b : Byte) : (h.memPut a b).boot = h.boot := rfl

/-! ### putOct -/

@[simp] theorem Hub.putOct_octs (k : Nat) (bs : List Byte) : (h.putOct k bs).octs = if bs.isEmpty then h.octs.filter (fun c => c.1 != k) else (k, bs) :: h.octs.filter (fun c => c.1 != k) := rfl
@[simp] theorem Hub.putOct_objs (k : Nat) (bs : List Byte) : (h.putOct k bs).objs = h.objs := rfl
@[simp] theorem Hub.putOct_mem (k : Nat) (bs : List Byte) : (h.putOct k bs).mem = h.mem := rfl
@[simp] theorem Hub.putOct_waiting (k : Nat) (bs : List Byte) : (h.putOct k bs).waiting = h.waiting := rfl
@[simp] theorem Hub.putOct_heldActs (k : Nat) (bs : List Byte) : (h.putOct k bs).heldActs = h.heldActs := rfl
@[simp] theorem Hub.putOct_staged (k : Nat) (bs : List Byte) : (h.putOct k bs).staged = h.staged := rfl
@[simp] theorem Hub.putOct_origins (k : Nat) (bs : List Byte) : (h.putOct k bs).origins = h.origins := rfl
@[simp] theorem Hub.putOct_seg (k : Nat) (bs : List Byte) : (h.putOct k bs).seg = h.seg := rfl
@[simp] theorem Hub.putOct_mram (k : Nat) (bs : List Byte) : (h.putOct k bs).mram = h.mram := rfl
@[simp] theorem Hub.putOct_storeRun (k : Nat) (bs : List Byte) : (h.putOct k bs).storeRun = h.storeRun := rfl
@[simp] theorem Hub.putOct_hold (k : Nat) (bs : List Byte) : (h.putOct k bs).hold = h.hold := rfl
@[simp] theorem Hub.putOct_now (k : Nat) (bs : List Byte) : (h.putOct k bs).now = h.now := rfl
@[simp] theorem Hub.putOct_timers (k : Nat) (bs : List Byte) : (h.putOct k bs).timers = h.timers := rfl
@[simp] theorem Hub.putOct_out (k : Nat) (bs : List Byte) : (h.putOct k bs).out = h.out := rfl
@[simp] theorem Hub.putOct_freeCtr (k : Nat) (bs : List Byte) : (h.putOct k bs).freeCtr = h.freeCtr := rfl
@[simp] theorem Hub.putOct_netTime (k : Nat) (bs : List Byte) : (h.putOct k bs).netTime = h.netTime := rfl
@[simp] theorem Hub.putOct_netRuns (k : Nat) (bs : List Byte) : (h.putOct k bs).netRuns = h.netRuns := rfl
@[simp] theorem Hub.putOct_hop (k : Nat) (bs : List Byte) : (h.putOct k bs).hop = h.hop := rfl
@[simp] theorem Hub.putOct_bridge (k : Nat) (bs : List Byte) : (h.putOct k bs).bridge = h.bridge := rfl
@[simp] theorem Hub.putOct_links (k : Nat) (bs : List Byte) : (h.putOct k bs).links = h.links := rfl
@[simp] theorem Hub.putOct_hopIn (k : Nat) (bs : List Byte) : (h.putOct k bs).hopIn = h.hopIn := rfl
@[simp] theorem Hub.putOct_pathOver (k : Nat) (bs : List Byte) : (h.putOct k bs).pathOver = h.pathOver := rfl
@[simp] theorem Hub.putOct_core (k : Nat) (bs : List Byte) : (h.putOct k bs).core = h.core := rfl
@[simp] theorem Hub.putOct_dma (k : Nat) (bs : List Byte) : (h.putOct k bs).dma = h.dma := rfl
@[simp] theorem Hub.putOct_pcie (k : Nat) (bs : List Byte) : (h.putOct k bs).pcie = h.pcie := rfl
@[simp] theorem Hub.putOct_cam (k : Nat) (bs : List Byte) : (h.putOct k bs).cam = h.cam := rfl
@[simp] theorem Hub.putOct_trig (k : Nat) (bs : List Byte) : (h.putOct k bs).trig = h.trig := rfl
@[simp] theorem Hub.putOct_disp (k : Nat) (bs : List Byte) : (h.putOct k bs).disp = h.disp := rfl
@[simp] theorem Hub.putOct_planes (k : Nat) (bs : List Byte) : (h.putOct k bs).planes = h.planes := rfl
@[simp] theorem Hub.putOct_eth (k : Nat) (bs : List Byte) : (h.putOct k bs).eth = h.eth := rfl
@[simp] theorem Hub.putOct_net (k : Nat) (bs : List Byte) : (h.putOct k bs).net = h.net := rfl
@[simp] theorem Hub.putOct_xchg (k : Nat) (bs : List Byte) : (h.putOct k bs).xchg = h.xchg := rfl
@[simp] theorem Hub.putOct_axl (k : Nat) (bs : List Byte) : (h.putOct k bs).axl = h.axl := rfl
@[simp] theorem Hub.putOct_mot (k : Nat) (bs : List Byte) : (h.putOct k bs).mot = h.mot := rfl
@[simp] theorem Hub.putOct_gpio (k : Nat) (bs : List Byte) : (h.putOct k bs).gpio = h.gpio := rfl
@[simp] theorem Hub.putOct_masters (k : Nat) (bs : List Byte) : (h.putOct k bs).masters = h.masters := rfl
@[simp] theorem Hub.putOct_uarts (k : Nat) (bs : List Byte) : (h.putOct k bs).uarts = h.uarts := rfl
@[simp] theorem Hub.putOct_usb (k : Nat) (bs : List Byte) : (h.putOct k bs).usb = h.usb := rfl
@[simp] theorem Hub.putOct_engs (k : Nat) (bs : List Byte) : (h.putOct k bs).engs = h.engs := rfl
@[simp] theorem Hub.putOct_fw (k : Nat) (bs : List Byte) : (h.putOct k bs).fw = h.fw := rfl
@[simp] theorem Hub.putOct_clk (k : Nat) (bs : List Byte) : (h.putOct k bs).clk = h.clk := rfl
@[simp] theorem Hub.putOct_doms (k : Nat) (bs : List Byte) : (h.putOct k bs).doms = h.doms := rfl
@[simp] theorem Hub.putOct_sim (k : Nat) (bs : List Byte) : (h.putOct k bs).sim = h.sim := rfl
@[simp] theorem Hub.putOct_pd (k : Nat) (bs : List Byte) : (h.putOct k bs).pd = h.pd := rfl
@[simp] theorem Hub.putOct_slots (k : Nat) (bs : List Byte) : (h.putOct k bs).slots = h.slots := rfl
@[simp] theorem Hub.putOct_feeds (k : Nat) (bs : List Byte) : (h.putOct k bs).feeds = h.feeds := rfl
@[simp] theorem Hub.putOct_caddy (k : Nat) (bs : List Byte) : (h.putOct k bs).caddy = h.caddy := rfl
@[simp] theorem Hub.putOct_safety (k : Nat) (bs : List Byte) : (h.putOct k bs).safety = h.safety := rfl
@[simp] theorem Hub.putOct_boot (k : Nat) (bs : List Byte) : (h.putOct k bs).boot = h.boot := rfl

/-! ### setOrigin -/

@[simp] theorem Hub.setOrigin_origins (o : Origin) (x : OriginSt) : (h.setOrigin o x).origins = (o, x) :: h.origins.filter (fun y => y.1 != o) := rfl
@[simp] theorem Hub.setOrigin_objs (o : Origin) (x : OriginSt) : (h.setOrigin o x).objs = h.objs := rfl
@[simp] theorem Hub.setOrigin_mem (o : Origin) (x : OriginSt) : (h.setOrigin o x).mem = h.mem := rfl
@[simp] theorem Hub.setOrigin_octs (o : Origin) (x : OriginSt) : (h.setOrigin o x).octs = h.octs := rfl
@[simp] theorem Hub.setOrigin_waiting (o : Origin) (x : OriginSt) : (h.setOrigin o x).waiting = h.waiting := rfl
@[simp] theorem Hub.setOrigin_heldActs (o : Origin) (x : OriginSt) : (h.setOrigin o x).heldActs = h.heldActs := rfl
@[simp] theorem Hub.setOrigin_staged (o : Origin) (x : OriginSt) : (h.setOrigin o x).staged = h.staged := rfl
@[simp] theorem Hub.setOrigin_seg (o : Origin) (x : OriginSt) : (h.setOrigin o x).seg = h.seg := rfl
@[simp] theorem Hub.setOrigin_mram (o : Origin) (x : OriginSt) : (h.setOrigin o x).mram = h.mram := rfl
@[simp] theorem Hub.setOrigin_storeRun (o : Origin) (x : OriginSt) : (h.setOrigin o x).storeRun = h.storeRun := rfl
@[simp] theorem Hub.setOrigin_hold (o : Origin) (x : OriginSt) : (h.setOrigin o x).hold = h.hold := rfl
@[simp] theorem Hub.setOrigin_now (o : Origin) (x : OriginSt) : (h.setOrigin o x).now = h.now := rfl
@[simp] theorem Hub.setOrigin_timers (o : Origin) (x : OriginSt) : (h.setOrigin o x).timers = h.timers := rfl
@[simp] theorem Hub.setOrigin_out (o : Origin) (x : OriginSt) : (h.setOrigin o x).out = h.out := rfl
@[simp] theorem Hub.setOrigin_freeCtr (o : Origin) (x : OriginSt) : (h.setOrigin o x).freeCtr = h.freeCtr := rfl
@[simp] theorem Hub.setOrigin_netTime (o : Origin) (x : OriginSt) : (h.setOrigin o x).netTime = h.netTime := rfl
@[simp] theorem Hub.setOrigin_netRuns (o : Origin) (x : OriginSt) : (h.setOrigin o x).netRuns = h.netRuns := rfl
@[simp] theorem Hub.setOrigin_hop (o : Origin) (x : OriginSt) : (h.setOrigin o x).hop = h.hop := rfl
@[simp] theorem Hub.setOrigin_bridge (o : Origin) (x : OriginSt) : (h.setOrigin o x).bridge = h.bridge := rfl
@[simp] theorem Hub.setOrigin_links (o : Origin) (x : OriginSt) : (h.setOrigin o x).links = h.links := rfl
@[simp] theorem Hub.setOrigin_hopIn (o : Origin) (x : OriginSt) : (h.setOrigin o x).hopIn = h.hopIn := rfl
@[simp] theorem Hub.setOrigin_pathOver (o : Origin) (x : OriginSt) : (h.setOrigin o x).pathOver = h.pathOver := rfl
@[simp] theorem Hub.setOrigin_core (o : Origin) (x : OriginSt) : (h.setOrigin o x).core = h.core := rfl
@[simp] theorem Hub.setOrigin_dma (o : Origin) (x : OriginSt) : (h.setOrigin o x).dma = h.dma := rfl
@[simp] theorem Hub.setOrigin_pcie (o : Origin) (x : OriginSt) : (h.setOrigin o x).pcie = h.pcie := rfl
@[simp] theorem Hub.setOrigin_cam (o : Origin) (x : OriginSt) : (h.setOrigin o x).cam = h.cam := rfl
@[simp] theorem Hub.setOrigin_trig (o : Origin) (x : OriginSt) : (h.setOrigin o x).trig = h.trig := rfl
@[simp] theorem Hub.setOrigin_disp (o : Origin) (x : OriginSt) : (h.setOrigin o x).disp = h.disp := rfl
@[simp] theorem Hub.setOrigin_planes (o : Origin) (x : OriginSt) : (h.setOrigin o x).planes = h.planes := rfl
@[simp] theorem Hub.setOrigin_eth (o : Origin) (x : OriginSt) : (h.setOrigin o x).eth = h.eth := rfl
@[simp] theorem Hub.setOrigin_net (o : Origin) (x : OriginSt) : (h.setOrigin o x).net = h.net := rfl
@[simp] theorem Hub.setOrigin_xchg (o : Origin) (x : OriginSt) : (h.setOrigin o x).xchg = h.xchg := rfl
@[simp] theorem Hub.setOrigin_axl (o : Origin) (x : OriginSt) : (h.setOrigin o x).axl = h.axl := rfl
@[simp] theorem Hub.setOrigin_mot (o : Origin) (x : OriginSt) : (h.setOrigin o x).mot = h.mot := rfl
@[simp] theorem Hub.setOrigin_gpio (o : Origin) (x : OriginSt) : (h.setOrigin o x).gpio = h.gpio := rfl
@[simp] theorem Hub.setOrigin_masters (o : Origin) (x : OriginSt) : (h.setOrigin o x).masters = h.masters := rfl
@[simp] theorem Hub.setOrigin_uarts (o : Origin) (x : OriginSt) : (h.setOrigin o x).uarts = h.uarts := rfl
@[simp] theorem Hub.setOrigin_usb (o : Origin) (x : OriginSt) : (h.setOrigin o x).usb = h.usb := rfl
@[simp] theorem Hub.setOrigin_engs (o : Origin) (x : OriginSt) : (h.setOrigin o x).engs = h.engs := rfl
@[simp] theorem Hub.setOrigin_fw (o : Origin) (x : OriginSt) : (h.setOrigin o x).fw = h.fw := rfl
@[simp] theorem Hub.setOrigin_clk (o : Origin) (x : OriginSt) : (h.setOrigin o x).clk = h.clk := rfl
@[simp] theorem Hub.setOrigin_doms (o : Origin) (x : OriginSt) : (h.setOrigin o x).doms = h.doms := rfl
@[simp] theorem Hub.setOrigin_sim (o : Origin) (x : OriginSt) : (h.setOrigin o x).sim = h.sim := rfl
@[simp] theorem Hub.setOrigin_pd (o : Origin) (x : OriginSt) : (h.setOrigin o x).pd = h.pd := rfl
@[simp] theorem Hub.setOrigin_slots (o : Origin) (x : OriginSt) : (h.setOrigin o x).slots = h.slots := rfl
@[simp] theorem Hub.setOrigin_feeds (o : Origin) (x : OriginSt) : (h.setOrigin o x).feeds = h.feeds := rfl
@[simp] theorem Hub.setOrigin_caddy (o : Origin) (x : OriginSt) : (h.setOrigin o x).caddy = h.caddy := rfl
@[simp] theorem Hub.setOrigin_safety (o : Origin) (x : OriginSt) : (h.setOrigin o x).safety = h.safety := rfl
@[simp] theorem Hub.setOrigin_boot (o : Origin) (x : OriginSt) : (h.setOrigin o x).boot = h.boot := rfl

/-! ### ret -/

@[simp] theorem Hub.ret_out (o : Origin) (c : Nat) : (h.ret o c).out = h.out ++ [Out.result o c] := rfl
@[simp] theorem Hub.ret_objs (o : Origin) (c : Nat) : (h.ret o c).objs = h.objs := rfl
@[simp] theorem Hub.ret_mem (o : Origin) (c : Nat) : (h.ret o c).mem = h.mem := rfl
@[simp] theorem Hub.ret_octs (o : Origin) (c : Nat) : (h.ret o c).octs = h.octs := rfl
@[simp] theorem Hub.ret_waiting (o : Origin) (c : Nat) : (h.ret o c).waiting = h.waiting := rfl
@[simp] theorem Hub.ret_heldActs (o : Origin) (c : Nat) : (h.ret o c).heldActs = h.heldActs := rfl
@[simp] theorem Hub.ret_staged (o : Origin) (c : Nat) : (h.ret o c).staged = h.staged := rfl
@[simp] theorem Hub.ret_origins (o : Origin) (c : Nat) : (h.ret o c).origins = h.origins := rfl
@[simp] theorem Hub.ret_seg (o : Origin) (c : Nat) : (h.ret o c).seg = h.seg := rfl
@[simp] theorem Hub.ret_mram (o : Origin) (c : Nat) : (h.ret o c).mram = h.mram := rfl
@[simp] theorem Hub.ret_storeRun (o : Origin) (c : Nat) : (h.ret o c).storeRun = h.storeRun := rfl
@[simp] theorem Hub.ret_hold (o : Origin) (c : Nat) : (h.ret o c).hold = h.hold := rfl
@[simp] theorem Hub.ret_now (o : Origin) (c : Nat) : (h.ret o c).now = h.now := rfl
@[simp] theorem Hub.ret_timers (o : Origin) (c : Nat) : (h.ret o c).timers = h.timers := rfl
@[simp] theorem Hub.ret_freeCtr (o : Origin) (c : Nat) : (h.ret o c).freeCtr = h.freeCtr := rfl
@[simp] theorem Hub.ret_netTime (o : Origin) (c : Nat) : (h.ret o c).netTime = h.netTime := rfl
@[simp] theorem Hub.ret_netRuns (o : Origin) (c : Nat) : (h.ret o c).netRuns = h.netRuns := rfl
@[simp] theorem Hub.ret_hop (o : Origin) (c : Nat) : (h.ret o c).hop = h.hop := rfl
@[simp] theorem Hub.ret_bridge (o : Origin) (c : Nat) : (h.ret o c).bridge = h.bridge := rfl
@[simp] theorem Hub.ret_links (o : Origin) (c : Nat) : (h.ret o c).links = h.links := rfl
@[simp] theorem Hub.ret_hopIn (o : Origin) (c : Nat) : (h.ret o c).hopIn = h.hopIn := rfl
@[simp] theorem Hub.ret_pathOver (o : Origin) (c : Nat) : (h.ret o c).pathOver = h.pathOver := rfl
@[simp] theorem Hub.ret_core (o : Origin) (c : Nat) : (h.ret o c).core = h.core := rfl
@[simp] theorem Hub.ret_dma (o : Origin) (c : Nat) : (h.ret o c).dma = h.dma := rfl
@[simp] theorem Hub.ret_pcie (o : Origin) (c : Nat) : (h.ret o c).pcie = h.pcie := rfl
@[simp] theorem Hub.ret_cam (o : Origin) (c : Nat) : (h.ret o c).cam = h.cam := rfl
@[simp] theorem Hub.ret_trig (o : Origin) (c : Nat) : (h.ret o c).trig = h.trig := rfl
@[simp] theorem Hub.ret_disp (o : Origin) (c : Nat) : (h.ret o c).disp = h.disp := rfl
@[simp] theorem Hub.ret_planes (o : Origin) (c : Nat) : (h.ret o c).planes = h.planes := rfl
@[simp] theorem Hub.ret_eth (o : Origin) (c : Nat) : (h.ret o c).eth = h.eth := rfl
@[simp] theorem Hub.ret_net (o : Origin) (c : Nat) : (h.ret o c).net = h.net := rfl
@[simp] theorem Hub.ret_xchg (o : Origin) (c : Nat) : (h.ret o c).xchg = h.xchg := rfl
@[simp] theorem Hub.ret_axl (o : Origin) (c : Nat) : (h.ret o c).axl = h.axl := rfl
@[simp] theorem Hub.ret_mot (o : Origin) (c : Nat) : (h.ret o c).mot = h.mot := rfl
@[simp] theorem Hub.ret_gpio (o : Origin) (c : Nat) : (h.ret o c).gpio = h.gpio := rfl
@[simp] theorem Hub.ret_masters (o : Origin) (c : Nat) : (h.ret o c).masters = h.masters := rfl
@[simp] theorem Hub.ret_uarts (o : Origin) (c : Nat) : (h.ret o c).uarts = h.uarts := rfl
@[simp] theorem Hub.ret_usb (o : Origin) (c : Nat) : (h.ret o c).usb = h.usb := rfl
@[simp] theorem Hub.ret_engs (o : Origin) (c : Nat) : (h.ret o c).engs = h.engs := rfl
@[simp] theorem Hub.ret_fw (o : Origin) (c : Nat) : (h.ret o c).fw = h.fw := rfl
@[simp] theorem Hub.ret_clk (o : Origin) (c : Nat) : (h.ret o c).clk = h.clk := rfl
@[simp] theorem Hub.ret_doms (o : Origin) (c : Nat) : (h.ret o c).doms = h.doms := rfl
@[simp] theorem Hub.ret_sim (o : Origin) (c : Nat) : (h.ret o c).sim = h.sim := rfl
@[simp] theorem Hub.ret_pd (o : Origin) (c : Nat) : (h.ret o c).pd = h.pd := rfl
@[simp] theorem Hub.ret_slots (o : Origin) (c : Nat) : (h.ret o c).slots = h.slots := rfl
@[simp] theorem Hub.ret_feeds (o : Origin) (c : Nat) : (h.ret o c).feeds = h.feeds := rfl
@[simp] theorem Hub.ret_caddy (o : Origin) (c : Nat) : (h.ret o c).caddy = h.caddy := rfl
@[simp] theorem Hub.ret_safety (o : Origin) (c : Nat) : (h.ret o c).safety = h.safety := rfl
@[simp] theorem Hub.ret_boot (o : Origin) (c : Nat) : (h.ret o c).boot = h.boot := rfl

/-! ### bump -/

@[simp] theorem Hub.bump_mem (k : Nat) : (h.bump k).mem = h.mem := by
  unfold Hub.bump; repeat' split
  all_goals rfl
@[simp] theorem Hub.bump_octs (k : Nat) : (h.bump k).octs = h.octs := by
  unfold Hub.bump; repeat' split
  all_goals rfl
@[simp] theorem Hub.bump_waiting (k : Nat) : (h.bump k).waiting = h.waiting := by
  unfold Hub.bump; repeat' split
  all_goals rfl
@[simp] theorem Hub.bump_heldActs (k : Nat) : (h.bump k).heldActs = h.heldActs := by
  unfold Hub.bump; repeat' split
  all_goals rfl
@[simp] theorem Hub.bump_staged (k : Nat) : (h.bump k).staged = h.staged := by
  unfold Hub.bump; repeat' split
  all_goals rfl
@[simp] theorem Hub.bump_origins (k : Nat) : (h.bump k).origins = h.origins := by
  unfold Hub.bump; repeat' split
  all_goals rfl
@[simp] theorem Hub.bump_seg (k : Nat) : (h.bump k).seg = h.seg := by
  unfold Hub.bump; repeat' split
  all_goals rfl
@[simp] theorem Hub.bump_mram (k : Nat) : (h.bump k).mram = h.mram := by
  unfold Hub.bump; repeat' split
  all_goals rfl
@[simp] theorem Hub.bump_storeRun (k : Nat) : (h.bump k).storeRun = h.storeRun := by
  unfold Hub.bump; repeat' split
  all_goals rfl
@[simp] theorem Hub.bump_hold (k : Nat) : (h.bump k).hold = h.hold := by
  unfold Hub.bump; repeat' split
  all_goals rfl
@[simp] theorem Hub.bump_now (k : Nat) : (h.bump k).now = h.now := by
  unfold Hub.bump; repeat' split
  all_goals rfl
@[simp] theorem Hub.bump_timers (k : Nat) : (h.bump k).timers = h.timers := by
  unfold Hub.bump; repeat' split
  all_goals rfl
@[simp] theorem Hub.bump_out (k : Nat) : (h.bump k).out = h.out := by
  unfold Hub.bump; repeat' split
  all_goals rfl
@[simp] theorem Hub.bump_netTime (k : Nat) : (h.bump k).netTime = h.netTime := by
  unfold Hub.bump; repeat' split
  all_goals rfl
@[simp] theorem Hub.bump_netRuns (k : Nat) : (h.bump k).netRuns = h.netRuns := by
  unfold Hub.bump; repeat' split
  all_goals rfl
@[simp] theorem Hub.bump_hop (k : Nat) : (h.bump k).hop = h.hop := by
  unfold Hub.bump; repeat' split
  all_goals rfl
@[simp] theorem Hub.bump_bridge (k : Nat) : (h.bump k).bridge = h.bridge := by
  unfold Hub.bump; repeat' split
  all_goals rfl
@[simp] theorem Hub.bump_links (k : Nat) : (h.bump k).links = h.links := by
  unfold Hub.bump; repeat' split
  all_goals rfl
@[simp] theorem Hub.bump_hopIn (k : Nat) : (h.bump k).hopIn = h.hopIn := by
  unfold Hub.bump; repeat' split
  all_goals rfl
@[simp] theorem Hub.bump_pathOver (k : Nat) : (h.bump k).pathOver = h.pathOver := by
  unfold Hub.bump; repeat' split
  all_goals rfl
@[simp] theorem Hub.bump_core (k : Nat) : (h.bump k).core = h.core := by
  unfold Hub.bump; repeat' split
  all_goals rfl
@[simp] theorem Hub.bump_dma (k : Nat) : (h.bump k).dma = h.dma := by
  unfold Hub.bump; repeat' split
  all_goals rfl
@[simp] theorem Hub.bump_pcie (k : Nat) : (h.bump k).pcie = h.pcie := by
  unfold Hub.bump; repeat' split
  all_goals rfl
@[simp] theorem Hub.bump_cam (k : Nat) : (h.bump k).cam = h.cam := by
  unfold Hub.bump; repeat' split
  all_goals rfl
@[simp] theorem Hub.bump_trig (k : Nat) : (h.bump k).trig = h.trig := by
  unfold Hub.bump; repeat' split
  all_goals rfl
@[simp] theorem Hub.bump_disp (k : Nat) : (h.bump k).disp = h.disp := by
  unfold Hub.bump; repeat' split
  all_goals rfl
@[simp] theorem Hub.bump_planes (k : Nat) : (h.bump k).planes = h.planes := by
  unfold Hub.bump; repeat' split
  all_goals rfl
@[simp] theorem Hub.bump_eth (k : Nat) : (h.bump k).eth = h.eth := by
  unfold Hub.bump; repeat' split
  all_goals rfl
@[simp] theorem Hub.bump_net (k : Nat) : (h.bump k).net = h.net := by
  unfold Hub.bump; repeat' split
  all_goals rfl
@[simp] theorem Hub.bump_xchg (k : Nat) : (h.bump k).xchg = h.xchg := by
  unfold Hub.bump; repeat' split
  all_goals rfl
@[simp] theorem Hub.bump_axl (k : Nat) : (h.bump k).axl = h.axl := by
  unfold Hub.bump; repeat' split
  all_goals rfl
@[simp] theorem Hub.bump_mot (k : Nat) : (h.bump k).mot = h.mot := by
  unfold Hub.bump; repeat' split
  all_goals rfl
@[simp] theorem Hub.bump_gpio (k : Nat) : (h.bump k).gpio = h.gpio := by
  unfold Hub.bump; repeat' split
  all_goals rfl
@[simp] theorem Hub.bump_masters (k : Nat) : (h.bump k).masters = h.masters := by
  unfold Hub.bump; repeat' split
  all_goals rfl
@[simp] theorem Hub.bump_uarts (k : Nat) : (h.bump k).uarts = h.uarts := by
  unfold Hub.bump; repeat' split
  all_goals rfl
@[simp] theorem Hub.bump_usb (k : Nat) : (h.bump k).usb = h.usb := by
  unfold Hub.bump; repeat' split
  all_goals rfl
@[simp] theorem Hub.bump_engs (k : Nat) : (h.bump k).engs = h.engs := by
  unfold Hub.bump; repeat' split
  all_goals rfl
@[simp] theorem Hub.bump_fw (k : Nat) : (h.bump k).fw = h.fw := by
  unfold Hub.bump; repeat' split
  all_goals rfl
@[simp] theorem Hub.bump_clk (k : Nat) : (h.bump k).clk = h.clk := by
  unfold Hub.bump; repeat' split
  all_goals rfl
@[simp] theorem Hub.bump_doms (k : Nat) : (h.bump k).doms = h.doms := by
  unfold Hub.bump; repeat' split
  all_goals rfl
@[simp] theorem Hub.bump_sim (k : Nat) : (h.bump k).sim = h.sim := by
  unfold Hub.bump; repeat' split
  all_goals rfl
@[simp] theorem Hub.bump_pd (k : Nat) : (h.bump k).pd = h.pd := by
  unfold Hub.bump; repeat' split
  all_goals rfl
@[simp] theorem Hub.bump_slots (k : Nat) : (h.bump k).slots = h.slots := by
  unfold Hub.bump; repeat' split
  all_goals rfl
@[simp] theorem Hub.bump_feeds (k : Nat) : (h.bump k).feeds = h.feeds := by
  unfold Hub.bump; repeat' split
  all_goals rfl
@[simp] theorem Hub.bump_caddy (k : Nat) : (h.bump k).caddy = h.caddy := by
  unfold Hub.bump; repeat' split
  all_goals rfl
@[simp] theorem Hub.bump_safety (k : Nat) : (h.bump k).safety = h.safety := by
  unfold Hub.bump; repeat' split
  all_goals rfl
@[simp] theorem Hub.bump_boot (k : Nat) : (h.bump k).boot = h.boot := by
  unfold Hub.bump; repeat' split
  all_goals rfl

/-! ### event -/

@[simp] theorem Hub.event_mem (c k : Nat) : (h.event c k).mem = h.mem := by simp [Hub.event]
@[simp] theorem Hub.event_octs (c k : Nat) : (h.event c k).octs = h.octs := by simp [Hub.event]
@[simp] theorem Hub.event_waiting (c k : Nat) : (h.event c k).waiting = h.waiting := by simp [Hub.event]
@[simp] theorem Hub.event_heldActs (c k : Nat) : (h.event c k).heldActs = h.heldActs := by simp [Hub.event]
@[simp] theorem Hub.event_staged (c k : Nat) : (h.event c k).staged = h.staged := by simp [Hub.event]
@[simp] theorem Hub.event_origins (c k : Nat) : (h.event c k).origins = h.origins := by simp [Hub.event]
@[simp] theorem Hub.event_seg (c k : Nat) : (h.event c k).seg = h.seg := by simp [Hub.event]
@[simp] theorem Hub.event_mram (c k : Nat) : (h.event c k).mram = h.mram := by simp [Hub.event]
@[simp] theorem Hub.event_storeRun (c k : Nat) : (h.event c k).storeRun = h.storeRun := by simp [Hub.event]
@[simp] theorem Hub.event_hold (c k : Nat) : (h.event c k).hold = h.hold := by simp [Hub.event]
@[simp] theorem Hub.event_now (c k : Nat) : (h.event c k).now = h.now := by simp [Hub.event]
@[simp] theorem Hub.event_timers (c k : Nat) : (h.event c k).timers = h.timers := by simp [Hub.event]
@[simp] theorem Hub.event_out (c k : Nat) : (h.event c k).out = h.out := by simp [Hub.event]
@[simp] theorem Hub.event_netTime (c k : Nat) : (h.event c k).netTime = h.netTime := by simp [Hub.event]
@[simp] theorem Hub.event_netRuns (c k : Nat) : (h.event c k).netRuns = h.netRuns := by simp [Hub.event]
@[simp] theorem Hub.event_hop (c k : Nat) : (h.event c k).hop = h.hop := by simp [Hub.event]
@[simp] theorem Hub.event_bridge (c k : Nat) : (h.event c k).bridge = h.bridge := by simp [Hub.event]
@[simp] theorem Hub.event_links (c k : Nat) : (h.event c k).links = h.links := by simp [Hub.event]
@[simp] theorem Hub.event_hopIn (c k : Nat) : (h.event c k).hopIn = h.hopIn := by simp [Hub.event]
@[simp] theorem Hub.event_pathOver (c k : Nat) : (h.event c k).pathOver = h.pathOver := by simp [Hub.event]
@[simp] theorem Hub.event_core (c k : Nat) : (h.event c k).core = h.core := by simp [Hub.event]
@[simp] theorem Hub.event_dma (c k : Nat) : (h.event c k).dma = h.dma := by simp [Hub.event]
@[simp] theorem Hub.event_pcie (c k : Nat) : (h.event c k).pcie = h.pcie := by simp [Hub.event]
@[simp] theorem Hub.event_cam (c k : Nat) : (h.event c k).cam = h.cam := by simp [Hub.event]
@[simp] theorem Hub.event_trig (c k : Nat) : (h.event c k).trig = h.trig := by simp [Hub.event]
@[simp] theorem Hub.event_disp (c k : Nat) : (h.event c k).disp = h.disp := by simp [Hub.event]
@[simp] theorem Hub.event_planes (c k : Nat) : (h.event c k).planes = h.planes := by simp [Hub.event]
@[simp] theorem Hub.event_eth (c k : Nat) : (h.event c k).eth = h.eth := by simp [Hub.event]
@[simp] theorem Hub.event_net (c k : Nat) : (h.event c k).net = h.net := by simp [Hub.event]
@[simp] theorem Hub.event_xchg (c k : Nat) : (h.event c k).xchg = h.xchg := by simp [Hub.event]
@[simp] theorem Hub.event_axl (c k : Nat) : (h.event c k).axl = h.axl := by simp [Hub.event]
@[simp] theorem Hub.event_mot (c k : Nat) : (h.event c k).mot = h.mot := by simp [Hub.event]
@[simp] theorem Hub.event_gpio (c k : Nat) : (h.event c k).gpio = h.gpio := by simp [Hub.event]
@[simp] theorem Hub.event_masters (c k : Nat) : (h.event c k).masters = h.masters := by simp [Hub.event]
@[simp] theorem Hub.event_uarts (c k : Nat) : (h.event c k).uarts = h.uarts := by simp [Hub.event]
@[simp] theorem Hub.event_usb (c k : Nat) : (h.event c k).usb = h.usb := by simp [Hub.event]
@[simp] theorem Hub.event_engs (c k : Nat) : (h.event c k).engs = h.engs := by simp [Hub.event]
@[simp] theorem Hub.event_fw (c k : Nat) : (h.event c k).fw = h.fw := by simp [Hub.event]
@[simp] theorem Hub.event_clk (c k : Nat) : (h.event c k).clk = h.clk := by simp [Hub.event]
@[simp] theorem Hub.event_doms (c k : Nat) : (h.event c k).doms = h.doms := by simp [Hub.event]
@[simp] theorem Hub.event_sim (c k : Nat) : (h.event c k).sim = h.sim := by simp [Hub.event]
@[simp] theorem Hub.event_pd (c k : Nat) : (h.event c k).pd = h.pd := by simp [Hub.event]
@[simp] theorem Hub.event_slots (c k : Nat) : (h.event c k).slots = h.slots := by simp [Hub.event]
@[simp] theorem Hub.event_feeds (c k : Nat) : (h.event c k).feeds = h.feeds := by simp [Hub.event]
@[simp] theorem Hub.event_caddy (c k : Nat) : (h.event c k).caddy = h.caddy := by simp [Hub.event]
@[simp] theorem Hub.event_safety (c k : Nat) : (h.event c k).safety = h.safety := by simp [Hub.event]
@[simp] theorem Hub.event_boot (c k : Nat) : (h.event c k).boot = h.boot := by simp [Hub.event]

end Sys2Proof.Machine
end

