-- ==== Sys2Proof/Laws/Store.lean ====
section
/-! SUPPORT. The sparse stores: reading after writing, and the canonical form kept (R53; log entry 4). -/

namespace Sys2Proof.Machine

variable {α : Type} [DecidableEq α]

/-- Keys above a bound. -/
def allAbove (k : Nat) (l : List (Nat × α)) : Prop := ∀ c ∈ l, k < c.1

theorem canonical_tail {d : Nat → α} {c : Nat × α} {l : List (Nat × α)} (h : canonical d (c :: l) = true) : canonical d l = true := by
  cases l with
  | nil => rfl
  | cons b t => simp [canonical] at h; exact h.2

theorem canonical_head_ne {d : Nat → α} {k : Nat} {v : α} {l : List (Nat × α)} (h : canonical d ((k, v) :: l) = true) : v ≠ d k := by
  cases l with
  | nil => simpa [canonical] using h
  | cons b t => simp [canonical] at h; exact h.1.1

theorem canonical_above {d : Nat → α} {l : List (Nat × α)} : ∀ {k : Nat} {v : α}, canonical d ((k, v) :: l) = true → allAbove k l := by
  induction l with
  | nil => intro k v _ c hc; cases hc
  | cons b t ih =>
    obtain ⟨k', v'⟩ := b
    intro k v h c hc
    have hlt : k < k' := by simp [canonical] at h; exact h.1.2
    cases hc with
    | head => exact hlt
    | tail _ hc => exact Nat.lt_trans hlt (ih (canonical_tail h) c hc)

theorem canonical_cons {d : Nat → α} {k : Nat} {v : α} {l : List (Nat × α)} (hv : v ≠ d k) (ha : allAbove k l)
    (hl : canonical d l = true) : canonical d ((k, v) :: l) = true := by
  cases l with
  | nil => simpa [canonical] using hv
  | cons b t =>
    obtain ⟨k', v'⟩ := b
    have := ha (k', v') (by simp)
    simp [canonical, hv, this, hl]

omit [DecidableEq α] in
theorem findCell_above {k : Nat} {l : List (Nat × α)} (h : allAbove k l) : findCell l k = none := by
  induction l with
  | nil => rfl
  | cons b t ih =>
    obtain ⟨k', v'⟩ := b
    have h1 : k < k' := h (k', v') (by simp)
    have h2 : (k == k') = false := by simp; omega
    simp only [findCell, h2]
    exact ih fun c hc => h c (by simp [hc])

theorem insertCell_above {d : Nat → α} {j k : Nat} {v : α} {l : List (Nat × α)} (hk : j < k) (h : allAbove j l) :
    allAbove j (insertCell d k v l) := by
  induction l with
  | nil =>
    intro c hc
    simp only [insertCell] at hc
    split at hc
    · cases hc
    · simp at hc; subst hc; exact hk
  | cons b t ih =>
    obtain ⟨k', v'⟩ := b
    have h1 : j < k' := h (k', v') (by simp)
    have ht : allAbove j t := fun c hc => h c (by simp [hc])
    intro c hc
    simp only [insertCell] at hc
    repeat' split at hc
    · exact h c hc
    · rcases List.mem_cons.1 hc with rfl | hc
      · exact hk
      · exact h c hc
    · exact ht c hc
    · rcases List.mem_cons.1 hc with rfl | hc
      · exact hk
      · exact ht c hc
    · rcases List.mem_cons.1 hc with rfl | hc
      · exact h1
      · exact ih ht c hc

/-- Writing keeps the canonical form. -/
theorem canonical_insertCell {d : Nat → α} {k : Nat} {v : α} {l : List (Nat × α)} (h : canonical d l = true) :
    canonical d (insertCell d k v l) = true := by
  induction l with
  | nil =>
    simp only [insertCell]
    split
    · rfl
    · simpa [canonical]
  | cons b t ih =>
    obtain ⟨k', v'⟩ := b
    have ha := canonical_above h
    have ht := canonical_tail h
    simp only [insertCell]
    split
    · rename_i hlt
      split
      · exact h
      · rename_i hv
        refine canonical_cons hv ?_ h
        intro c hc
        rcases List.mem_cons.1 hc with rfl | hc
        · exact hlt
        · exact Nat.lt_trans hlt (ha c hc)
    · split
      · rename_i heq
        subst heq
        split
        · exact ht
        · rename_i hv
          exact canonical_cons hv ha ht
      · exact canonical_cons (canonical_head_ne h) (insertCell_above (by omega) ha) (ih ht)

/-- The writes of a command keep the canonical form. -/
theorem canonical_commitCells {d : Nat → α} {fit : Nat → α → α} (dirty : List (Nat × α)) {base : List (Nat × α)}
    (h : canonical d base = true) : canonical d (commitCells d fit dirty base) = true := by
  induction dirty with
  | nil => exact h
  | cons c t ih => exact canonical_insertCell ih

/-- A canonical list read after a write gives the value written at its key, and every other key's as before. -/
theorem findCell_insertCell {d : Nat → α} {k : Nat} {v : α} {l : List (Nat × α)} (h : canonical d l = true) (j : Nat) :
    (findCell (insertCell d k v l) j).getD (d j) = if j = k then v else (findCell l j).getD (d j) := by
  induction l with
  | nil =>
    by_cases hj : j = k
    · subst hj; simp only [insertCell]; split <;> simp_all [findCell]
    · simp only [insertCell]; split <;> simp_all [findCell]
  | cons b t ih =>
    obtain ⟨k', v'⟩ := b
    have ha := canonical_above h
    simp only [insertCell]
    split
    · rename_i hlt
      have hnone : findCell ((k', v') :: t) k = none := findCell_above (by
        intro c hc
        rcases List.mem_cons.1 hc with rfl | hc
        · exact hlt
        · exact Nat.lt_trans hlt (ha c hc))
      split
      · rename_i hv
        by_cases hj : j = k
        · subst hj; simp [hnone, hv]
        · simp [hj]
      · by_cases hj : j = k
        · subst hj; simp [findCell]
        · simp [findCell, hj]
    · split
      · rename_i heq
        subst heq
        split
        · rename_i hv
          by_cases hj : j = k
          · subst hj; simp [findCell_above ha, hv]
          · simp [findCell, hj]
        · by_cases hj : j = k
          · subst hj; simp [findCell]
          · simp [findCell, hj]
      · rename_i hne
        by_cases hj : j = k'
        · subst hj
          have : ¬ j = k := fun e => hne e.symm
          simp [findCell, this]
        · simp only [findCell, beq_iff_eq, hj, if_false]
          exact ih (canonical_tail h)

omit [DecidableEq α] in
/-- An overlay read after a write at the same key. -/
theorem read_write_same {d : Nat → α} (o : Overlay α) (k : Nat) (v : α) : (o.write k v).read d k = v := by
  simp [Overlay.read, Overlay.write, findCell]

omit [DecidableEq α] in
/-- An overlay read after a write at another key. -/
theorem read_write_other {d : Nat → α} (o : Overlay α) {j k : Nat} (v : α) (h : j ≠ k) : (o.write k v).read d j = o.read d j := by
  have : (j == k) = false := by simpa using h
  simp [Overlay.read, Overlay.write, findCell, this]

/-- The base list after a command reads as the overlay did at its end, each written value fitted. -/
theorem commitCells_read {d : Nat → α} {fit : Nat → α → α} (dirty : List (Nat × α)) {base : List (Nat × α)}
    (h : canonical d base = true) (j : Nat) :
    (findCell (commitCells d fit dirty base) j).getD (d j) =
      match findCell dirty j with
      | some v => fit j v
      | none => (findCell base j).getD (d j) := by
  induction dirty with
  | nil => rfl
  | cons c t ih =>
    obtain ⟨k, v⟩ := c
    have hc := canonical_commitCells (fit := fit) t h
    simp only [commitCells, List.foldr] at hc ⊢
    rw [findCell_insertCell hc]
    by_cases hj : j = k
    · subst hj; simp [findCell]
    · simp only [hj, if_false, findCell, beq_iff_eq]
      exact ih

end Sys2Proof.Machine
end

