-- ==== Sys2Proof/Laws/Ops.lean ====
section
/-! SUPPORT. What the shared operations do, said once: objects and memory read after a write, the frame of a command, the canonical
stores kept, and the guard of a write. -/

namespace Sys2Proof.Machine

/-! ### Objects -/

@[simp] theorem fitObj_idem (k v : Nat) : fitObj k (fitObj k v) = fitObj k v := by
  unfold fitObj; split
  · exact Nat.mod_mod _ _
  · rfl

@[simp] theorem get_put_same (h : Hub) (k v : Nat) : (h.put k v).get k = fitObj k v := read_write_same h.objs k _

theorem get_put_other (h : Hub) {j k : Nat} (v : Nat) (hk : j ≠ k) : (h.put k v).get j = h.get j := read_write_other h.objs _ hk

/-- A write to one object: what every object then reads. -/
theorem get_put (h : Hub) (k v j : Nat) : (h.put k v).get j = if j = k then fitObj k v else h.get j := by
  split
  · rename_i e; subst e; exact get_put_same h j v
  · rename_i e; exact get_put_other h v e

@[simp] theorem emit_get (h : Hub) (x : Out) (k : Nat) : (h.emit x).get k = h.get k := rfl
@[simp] theorem arm_get (h : Hub) (t : Timer) (d k : Nat) : (h.arm t d).get k = h.get k := rfl
@[simp] theorem disarm_get (h : Hub) (t : Timer) (k : Nat) : (h.disarm t).get k = h.get k := rfl
@[simp] theorem used_get (h : Hub) (k : Nat) : h.used.get k = h.get k := rfl
@[simp] theorem ret_get (h : Hub) (o : Origin) (c k : Nat) : (h.ret o c).get k = h.get k := rfl
@[simp] theorem memPut_get (h : Hub) (a : Nat) (b : Byte) (k : Nat) : (h.memPut a b).get k = h.get k := rfl

@[simp] theorem emit_flag (h : Hub) (x : Out) (k : Nat) : (h.emit x).flag k = h.flag k := rfl
@[simp] theorem emit_eff (h : Hub) (x : Out) (k : Nat) : (h.emit x).eff k = h.eff k := rfl
@[simp] theorem arm_flag (h : Hub) (t : Timer) (d : Nat) (k : Nat) : (h.arm t d).flag k = h.flag k := rfl
@[simp] theorem arm_eff (h : Hub) (t : Timer) (d : Nat) (k : Nat) : (h.arm t d).eff k = h.eff k := rfl
@[simp] theorem disarm_flag (h : Hub) (t : Timer) (k : Nat) : (h.disarm t).flag k = h.flag k := rfl
@[simp] theorem disarm_eff (h : Hub) (t : Timer) (k : Nat) : (h.disarm t).eff k = h.eff k := rfl

/-- A counter leaves every other object alone. -/
theorem get_bump_other (h : Hub) {j k : Nat} (hk : j ≠ k) : (h.bump k).get j = h.get j := by
  unfold Hub.bump
  split
  · split
    · exact get_put_other h _ hk
    · exact get_put_other h _ hk
  · rfl

/-- A counter below the top of its width counts one. -/
theorem get_bump_same (h : Hub) {k : Nat} {r : ObjRow} (hr : rowOf k = some r) (hv : h.get k + 1 < 2 ^ r.ty.width) :
    (h.bump k).get k = h.get k + 1 := by
  unfold Hub.bump
  simp only [hr, hv, if_true, get_put_same]
  simp [fitObj, hr, Nat.mod_eq_of_lt hv]

/-- An event leaves every object alone but `EVENT_LAST` and `EVENT_COUNT`. -/
theorem get_event_other (h : Hub) {c k j : Nat} (h1 : j ≠ Obj.EVENT_LAST) (h2 : j ≠ Obj.EVENT_COUNT) : (h.event c k).get j = h.get j := by
  unfold Hub.event
  rw [get_bump_other _ h2, get_put_other _ _ h1]

/-! ### Memory -/

@[simp] theorem memGet_memPut_same (h : Hub) (a : Nat) (b : Byte) : (h.memPut a b).memGet a = b := read_write_same h.mem a b

theorem memGet_memPut_other (h : Hub) {a x : Nat} (b : Byte) (hx : x ≠ a) : (h.memPut a b).memGet x = h.memGet x :=
  read_write_other h.mem b hx

@[simp] theorem put_memGet (h : Hub) (k v a : Nat) : (h.put k v).memGet a = h.memGet a := rfl
@[simp] theorem emit_memGet (h : Hub) (x : Out) (a : Nat) : (h.emit x).memGet a = h.memGet a := rfl

/-- Bytes written lie at the addresses from the first on; every other byte is as before. -/
theorem memGet_memWrite (bs : List Byte) : ∀ (h : Hub) (a x : Nat),
    (h.memWrite a bs).memGet x = if a ≤ x ∧ x < a + bs.length then bs.getD (x - a) 0 else h.memGet x := by
  induction bs with
  | nil => intro h a x; rw [if_neg (by rw [List.length_nil]; omega)]; rfl
  | cons b bs ih =>
    intro h a x
    rw [Hub.memWrite, ih]
    by_cases hx : x = a
    · subst hx
      rw [if_neg (by omega), if_pos (by rw [List.length_cons]; omega), memGet_memPut_same, Nat.sub_self]; rfl
    · rw [memGet_memPut_other h b hx]
      by_cases h1 : a + 1 ≤ x ∧ x < a + 1 + bs.length
      · have h2 : a ≤ x ∧ x < a + (b :: bs).length := by simp; omega
        have h3 : x - a = (x - (a + 1)) + 1 := by omega
        rw [if_pos h1, if_pos h2, h3, List.getD_cons_succ]
      · have h2 : ¬(a ≤ x ∧ x < a + (b :: bs).length) := by simp; omega
        rw [if_neg h1, if_neg h2]

/-! ### The frame of a command -/

/-- The lists of a store after a command. -/
theorem settle_objs (h0 h : Hub) : (Hub.settle h0 h).objs = ⟨commitCells objDefault fitObj h.objs.dirty h0.objs.base, []⟩ := rfl
theorem settle_mem (h0 h : Hub) : (Hub.settle h0 h).mem = ⟨commitCells memDefault (fun _ b => b) h.mem.dirty h0.mem.base, []⟩ := rfl

theorem fits_insertCell {d : Nat → Nat} {k v : Nat} {l : List (Nat × Nat)} (hv : fitObj k v = v) (hl : ∀ c ∈ l, fitObj c.1 c.2 = c.2) :
    ∀ c ∈ insertCell d k v l, fitObj c.1 c.2 = c.2 := by
  induction l with
  | nil =>
    intro c hc
    simp only [insertCell] at hc
    split at hc
    · cases hc
    · simp at hc; subst hc; exact hv
  | cons b t ih =>
    obtain ⟨k', v'⟩ := b
    have ht : ∀ c ∈ t, fitObj c.1 c.2 = c.2 := fun c hc => hl c (by simp [hc])
    intro c hc
    simp only [insertCell] at hc
    repeat' split at hc
    · exact hl c hc
    · rcases List.mem_cons.1 hc with rfl | hc
      · exact hv
      · exact hl c hc
    · exact ht c hc
    · rcases List.mem_cons.1 hc with rfl | hc
      · exact hv
      · exact ht c hc
    · rcases List.mem_cons.1 hc with rfl | hc
      · exact hl _ (by simp)
      · exact ih ht c hc

theorem fits_commitCells (dirty : List (Nat × Nat)) {base : List (Nat × Nat)} (h : ∀ c ∈ base, fitObj c.1 c.2 = c.2) :
    ∀ c ∈ commitCells objDefault fitObj dirty base, fitObj c.1 c.2 = c.2 := by
  induction dirty with
  | nil => exact h
  | cons c t ih => exact fits_insertCell (fitObj_idem _ _) ih

/-- The stores stay sound through a command, whatever it writes. -/
theorem settle_sound (h0 h : Hub) (ho : Objects.wf h0) (hm : Memory.wf h0) :
    Objects.wf (Hub.settle h0 h) ∧ (Hub.settle h0 h).mem.dirty = [] ∧ Memory.wf (Hub.settle h0 h) :=
  ⟨⟨rfl, canonical_commitCells h.objs.dirty ho.2.1, fits_commitCells h.objs.dirty ho.2.2⟩, rfl,
    canonical_commitCells (fit := fun _ b => b) h.mem.dirty hm⟩

/-- An object the command wrote reads after it as the command left it. -/
theorem settle_get (h0 h : Hub) (ho : canonical objDefault h0.objs.base = true) (k : Nat) :
    (Hub.settle h0 h).get k = match findCell h.objs.dirty k with
      | some v => fitObj k v
      | none => (findCell h0.objs.base k).getD (objDefault k) := by
  show (findCell (commitCells objDefault fitObj h.objs.dirty h0.objs.base) k).getD (objDefault k) = _
  rw [commitCells_read (fit := fitObj) h.objs.dirty ho k]
  cases findCell h.objs.dirty k <;> rfl

/-- A byte the command wrote reads after it as the command left it. -/
theorem settle_memGet (h0 h : Hub) (hm : canonical memDefault h0.mem.base = true) (a : Nat) :
    (Hub.settle h0 h).memGet a = match findCell h.mem.dirty a with
      | some v => v
      | none => (findCell h0.mem.base a).getD (memDefault a) := by
  show (findCell (commitCells memDefault (fun _ b => b) h.mem.dirty h0.mem.base) a).getD (memDefault a) = _
  rw [commitCells_read (fit := fun _ b => b) h.mem.dirty hm a]
  cases findCell h.mem.dirty a <;> rfl

/-- What a command of the hub proper does: out of reset its operation on the hub, the outputs cleared first. -/
theorem run_eq (s : State) (f : Hub → Hub) (h : s.hub.hold = .run) :
    s.run f = .next { s with hub := Hub.settle s.hub (f { s.hub with out := [] }) } := by
  simp [State.run, State.always, h]

/-- Held in reset, a command of the hub proper only clears the outputs. -/
theorem run_held (s : State) (f : Hub → Hub) (h : s.hub.hold ≠ .run) :
    s.run f = .next { s with hub := Hub.settle s.hub { s.hub with out := [] } } := by
  simp [State.run, State.always, h]

/-- A command in any frame answers a next state, with the queue as it was and the stores settled. -/
theorem always_next (s : State) (f : Hub → Hub) : ∃ h, s.always f = .next { s with hub := Hub.settle s.hub h } := ⟨_, rfl⟩

theorem run_next (s : State) (f : Hub → Hub) : ∃ h, s.run f = .next { s with hub := Hub.settle s.hub h } := by
  unfold State.run; split <;> exact always_next _ _

theorem kept_next (s : State) (f : Hub → Hub) : ∃ h, s.kept f = .next { s with hub := Hub.settle s.hub h } := by
  unfold State.kept; split <;> exact always_next _ _

/-! ### The guard of a write -/

/-- A block that is on is not woken by an access. -/
theorem accessWake_on (h : Hub) (o : Origin) (idx : Nat) (hd : h.domOn (domainOfIdx idx) = true) : h.accessWake o idx = h := by
  have : h.domState (domainOfIdx idx) ≠ 1 := by
    intro e; simp [Hub.domOn, e] at hd
  simp [Hub.accessWake, this]

/-- A write with nothing in its way has the effect of its object, and its result is reported. -/
theorem guarded_clear (h : Hub) (o : Origin) (k v : Nat) (act : Hub → Nat × Hub) (hc : h.clear o k v) :
    h.guarded o k v act = (act (h.written k)).2.ret o (act (h.written k)).1 := by
  obtain ⟨h1, h2, h3, h4, h5⟩ := hc
  have h6 : (isCaddyKey k && (rowOf k).isSome && !h.caddyRights o) = false := by rcases h3 with h | h <;> simp [h]
  simp [Hub.guarded, Hub.guardedR, h1, h2, h6, h4, h5, accessWake_on]

end Sys2Proof.Machine
end

