-- ==== Sys2Proof/Laws/Frames.lean ====
section
/-! SUPPORT. What a state reads after a command that wrote nothing, or only what the record of discards and events keeps, and what a
refused write does. -/

namespace Sys2Proof.Machine

/-! ### Commands and what is read after them -/

/-- A command of a block that RSTn leaves running, out of reset or in it: its operation on the hub. -/
theorem kept_eq (s : State) (f : Hub → Hub) (h : s.hub.hold = .run ∨ s.hub.hold = .rstn) : s.kept f = .next (s.after (f s.now)) := by
  simp [State.kept, State.always, h, State.after, State.now]

/-- A command that lists no object leaves every object as it was. -/
theorem after_get_same (s : State) (hs : s.Sound) (h : Hub) (ho : h.objs.dirty = s.hub.objs.dirty) (k : Nat) :
    (s.after h).hub.get k = s.hub.get k := by
  show (Hub.settle s.hub h).get k = _
  rw [settle_get _ _ hs.1.2.1, ho, hs.1.1]
  show _ = Overlay.read objDefault s.hub.objs k
  simp [Overlay.read, hs.1.1, findCell]

/-- A command that writes no memory leaves every byte as it was. -/
theorem after_memGet_same (s : State) (hs : s.Sound) (h : Hub) (ho : h.mem = s.hub.mem) (a : Nat) :
    (s.after h).hub.memGet a = s.hub.memGet a := by
  show (Hub.settle s.hub h).memGet a = _
  rw [settle_memGet _ _ hs.2.2, ho, hs.2.1]
  show _ = Overlay.read memDefault s.hub.mem a
  simp [Overlay.read, hs.2.1, findCell]

/-- Every value a command has listed is one of its object's width. -/
def Fits (h : Hub) : Prop := ∀ k v, findCell h.objs.dirty k = some v → fitObj k v = v

theorem fits_put (h : Hub) (hf : Fits h) (k v : Nat) : Fits (h.put k v) := by
  intro j x hj
  simp only [Hub.put, Overlay.write, findCell] at hj
  split at hj
  · rename_i e
    have : j = k := by simpa using e
    subst this; cases hj; simp
  · exact hf j x hj

theorem fits_now (s : State) (hs : s.Sound) : Fits s.now := by
  intro k v h
  have : s.now.objs.dirty = [] := hs.1.1
  rw [this] at h; cases h

/-- What a command leaves in an object reads so after it. -/
theorem after_get (s : State) (hs : s.Sound) (h : Hub) (hb : h.objs.base = s.hub.objs.base) (hf : Fits h) (k : Nat) :
    (s.after h).hub.get k = h.get k := by
  show (Hub.settle s.hub h).get k = _
  rw [settle_get _ _ hs.1.2.1]
  show _ = Overlay.read objDefault h.objs k
  unfold Overlay.read
  cases hc : findCell h.objs.dirty k with
  | none => simp [hb]
  | some v => simp [hf k v hc]

/-! ### Refused writes -/

/-- A write of a frozen origin is refused with FROZEN and changes nothing (R74). -/
theorem guarded_frozen (h : Hub) (o : Origin) (k v : Nat) (act : Hub → Nat × Hub) (hf : h.frozen o = true) :
    h.guarded o k v act = h.ret o rcFrozen := by
  simp [Hub.guarded, Hub.guardedR, hf]

/-- A write that fails its checks reports their result and changes nothing. -/
theorem guarded_refused (h : Hub) (o : Origin) (k v : Nat) (act : Hub → Nat × Hub) (hc : h.checkWrite o k v ≠ rcOk)
    (hh : (h.origin o).held = none) (hk : isCaddyKey k = false ∨ h.caddyRights o = true) :
    h.guarded o k v act = h.ret o (h.checkWrite o k v) := by
  simp only [Hub.guarded, Hub.guardedR]
  by_cases hf : h.frozen o = true
  · simp [hf, Hub.checkWrite]
  · have : (isCaddyKey k && (rowOf k).isSome && !h.caddyRights o) = false := by rcases hk with h | h <;> simp [h]
    simp [hf, hh, this, hc]

/-! ### What a discarded prefetch buffer may change -/

/-- `g` differs from `h` in the record of discards and events, the bridge, the timers and the count of free values at most. -/
structure Keeps (h g : Hub) : Prop where
  base : g.objs.base = h.objs.base
  waiting : g.waiting = h.waiting
  staged : g.staged = h.staged
  now : g.now = h.now
  net : g.netTime = h.netTime
  runs : g.netRuns = h.netRuns
  mem : g.mem = h.mem
  out : g.out = h.out
  engs : g.engs = h.engs
  mram : g.mram = h.mram
  fw : g.fw = h.fw
  run : g.storeRun = h.storeRun
  hold : g.hold = h.hold
  fits : Fits h → Fits g
  get : ∀ j, discardRecord j = false → g.get j = h.get j

theorem Keeps.refl (h : Hub) : Keeps h h := ⟨rfl, rfl, rfl, rfl, rfl, rfl, rfl, rfl, rfl, rfl, rfl, rfl, rfl, id, fun _ _ => rfl⟩

theorem Keeps.trans {a b c : Hub} (h1 : Keeps a b) (h2 : Keeps b c) : Keeps a c :=
  ⟨h2.base.trans h1.base, h2.waiting.trans h1.waiting, h2.staged.trans h1.staged, h2.now.trans h1.now, h2.net.trans h1.net,
    h2.runs.trans h1.runs, h2.mem.trans h1.mem, h2.out.trans h1.out, h2.engs.trans h1.engs, h2.mram.trans h1.mram, h2.fw.trans h1.fw, h2.run.trans h1.run, h2.hold.trans h1.hold,
    fun h => h2.fits (h1.fits h), fun j hj => (h2.get j hj).trans (h1.get j hj)⟩

theorem keeps_put (h : Hub) (k v : Nat) (hk : discardRecord k = true) : Keeps h (h.put k v) := by
  refine ⟨rfl, rfl, rfl, rfl, rfl, rfl, rfl, rfl, rfl, rfl, rfl, rfl, rfl, fun hf => fits_put h hf k v, fun j hj => get_put_other h v ?_⟩
  rintro rfl; rw [hk] at hj; cases hj

theorem keeps_used (h : Hub) : Keeps h h.used := ⟨rfl, rfl, rfl, rfl, rfl, rfl, rfl, rfl, rfl, rfl, rfl, rfl, rfl, id, fun _ _ => rfl⟩

theorem keeps_disarm (h : Hub) (t : Timer) : Keeps h (h.disarm t) :=
  ⟨rfl, rfl, rfl, rfl, rfl, rfl, rfl, rfl, rfl, rfl, rfl, rfl, rfl, id, fun _ _ => rfl⟩

theorem keeps_bump (h : Hub) (k : Nat) (hk : discardRecord k = true) : Keeps h (h.bump k) := by
  unfold Hub.bump; split
  · split
    · exact keeps_put h _ _ hk
    · exact (keeps_put h _ _ hk).trans (keeps_used _)
  · exact Keeps.refl h

theorem keeps_event (h : Hub) (c k : Nat) : Keeps h (h.event c k) := by
  unfold Hub.event
  exact (keeps_put h _ _ (by decide)).trans (keeps_bump _ _ (by decide))

theorem discardRecord_log (e : Fin 8) : discardRecord (Obj.DISCARD_LOG (4 * e.val)) = true ∧
    discardRecord (Obj.DISCARD_LOG (4 * e.val + 1)) = true ∧ discardRecord (Obj.DISCARD_LOG (4 * e.val + 2)) = true ∧
    discardRecord (Obj.DISCARD_LOG (4 * e.val + 3)) = true := by
  revert e; decide

theorem keeps_logDiscard (h : Hub) (w off : Nat) (d : W32) : Keeps h (h.logDiscard w off d) := by
  unfold Hub.logDiscard
  simp only []
  obtain ⟨a, b, c, d'⟩ := discardRecord_log h.bridge.discardNext
  refine Keeps.trans ?_ (keeps_bump _ _ (by decide))
  have K := (((keeps_put h _ off a).trans (keeps_put _ _ (w + 16) b)).trans (keeps_put _ _ d.toNat c)).trans (keeps_put _ _ h.time32 d')
  exact ⟨K.base, K.waiting, K.staged, K.now, K.net, K.runs, K.mem, K.out, K.engs, K.mram, K.fw, K.run, K.hold, K.fits, K.get⟩

theorem keeps_foldl {α : Type} (f : Hub → α → Hub) (hf : ∀ h a, Keeps h (f h a)) (l : List α) (h : Hub) : Keeps h (l.foldl f h) := by
  induction l generalizing h with
  | nil => exact Keeps.refl h
  | cons a l ih => exact (hf h a).trans (ih _)

theorem keeps_fillTold (h : Hub) (serial : Nat) : Keeps h (h.fillTold serial) :=
  ⟨rfl, rfl, rfl, rfl, rfl, rfl, rfl, rfl, rfl, rfl, rfl, rfl, rfl, id, fun _ _ => rfl⟩

theorem keeps_discardPrefetch (h : Hub) (w : Fin 16) : Keeps h (h.discardPrefetch w) := by
  unfold Hub.discardPrefetch
  split
  · exact Keeps.refl h
  · rename_i p _
    refine Keeps.trans ?_ (keeps_disarm _ _)
    have K := keeps_foldl (fun h (c : Nat × W32) => h.logDiscard w.val c.1 c.2) (fun h c => keeps_logDiscard h _ _ _) p.words h
    generalize p.words.foldl (fun h (c : Nat × W32) => h.logDiscard w.val c.1 c.2) h = g at *
    have K' : Keeps h { g with bridge := { g.bridge with prefetch := g.bridge.prefetch.set w none } } :=
      ⟨K.base, K.waiting, K.staged, K.now, K.net, K.runs, K.mem, K.out, K.engs, K.mram, K.fw, K.run, K.hold, K.fits, K.get⟩
    split
    · exact K'
    · exact (K'.trans (keeps_fillTold _ _)).trans (keeps_event _ _ _)

/-- What an accepted write discards from the prefetch buffers changes the record of discards and events at most (R77, R121). -/
theorem keeps_written (h : Hub) (k : Nat) : Keeps h (h.written k) := by
  unfold Hub.written Hub.dropBlock
  refine keeps_foldl _ (fun h w => ?_) _ _
  split
  · split
    · exact keeps_discardPrefetch _ _
    · exact Keeps.refl _
  · exact Keeps.refl _

/-! ### Events -/

/-- An event names itself and its object in `EVENT_LAST` (R68). -/
theorem event_last (h : Hub) (c l : Nat) (hc : c < 256) : (h.event c l).get Obj.EVENT_LAST = c * 2 ^ 24 + l % 2 ^ 24 := by
  unfold Hub.event
  rw [get_bump_other _ (by decide), get_put_same]
  obtain ⟨r, hr, hw⟩ : ∃ r, rowOf Obj.EVENT_LAST = some r ∧ r.ty.width = 32 := ⟨_, rfl, rfl⟩
  simp only [fitObj, hr, hw]; omega

/-- An event counts in `EVENT_COUNT` (R68). -/
theorem event_count (h : Hub) (c l : Nat) (hh : h.get Obj.EVENT_COUNT + 1 < 2 ^ 32) :
    (h.event c l).get Obj.EVENT_COUNT = h.get Obj.EVENT_COUNT + 1 := by
  unfold Hub.event
  obtain ⟨r, hr, hw⟩ : ∃ r, rowOf Obj.EVENT_COUNT = some r ∧ r.ty.width = 32 := ⟨_, rfl, rfl⟩
  have e : (h.put Obj.EVENT_LAST (c * 2 ^ 24 + l % 2 ^ 24)).get Obj.EVENT_COUNT = h.get Obj.EVENT_COUNT := get_put_other _ _ (by decide)
  rw [get_bump_same _ hr (by rw [e, hw]; exact hh), e]

end Sys2Proof.Machine
end

