-- ==== Sys2Proof/Laws/Sets.lean ====
section
/-! SUPPORT. The updates of one block's own state leave the objects, the instants and the power states alone. -/

namespace Sys2Proof.Machine

variable (h : Hub)

@[simp] theorem setX_get (p : Port) (f : XchgSt → XchgSt) (j : Nat) : (h.setX p f).get j = h.get j := rfl
@[simp] theorem setX_flag (p : Port) (f : XchgSt → XchgSt) (j : Nat) : (h.setX p f).flag j = h.flag j := rfl
@[simp] theorem setX_eff (p : Port) (f : XchgSt → XchgSt) (j : Nat) : (h.setX p f).eff j = h.eff j := rfl
@[simp] theorem setX_domOn (p : Port) (f : XchgSt → XchgSt) (j : Nat) : (h.setX p f).domOn j = h.domOn j := rfl
@[simp] theorem setX_now (p : Port) (f : XchgSt → XchgSt) : (h.setX p f).now = h.now := rfl
@[simp] theorem setX_timers (p : Port) (f : XchgSt → XchgSt) : (h.setX p f).timers = h.timers := rfl
@[simp] theorem setX_mem (p : Port) (f : XchgSt → XchgSt) : (h.setX p f).mem = h.mem := rfl
@[simp] theorem setX_objs (p : Port) (f : XchgSt → XchgSt) : (h.setX p f).objs = h.objs := rfl
@[simp] theorem setBridge_get (f : Bridge → Bridge) (j : Nat) : (h.setBridge f).get j = h.get j := rfl
@[simp] theorem setBridge_flag (f : Bridge → Bridge) (j : Nat) : (h.setBridge f).flag j = h.flag j := rfl
@[simp] theorem setBridge_eff (f : Bridge → Bridge) (j : Nat) : (h.setBridge f).eff j = h.eff j := rfl
@[simp] theorem setBridge_domOn (f : Bridge → Bridge) (j : Nat) : (h.setBridge f).domOn j = h.domOn j := rfl
@[simp] theorem setBridge_now (f : Bridge → Bridge) : (h.setBridge f).now = h.now := rfl
@[simp] theorem setBridge_timers (f : Bridge → Bridge) : (h.setBridge f).timers = h.timers := rfl
@[simp] theorem setBridge_mem (f : Bridge → Bridge) : (h.setBridge f).mem = h.mem := rfl
@[simp] theorem setBridge_objs (f : Bridge → Bridge) : (h.setBridge f).objs = h.objs := rfl
@[simp] theorem setKey_get (k : KeySlot) (f : KeySt → KeySt) (j : Nat) : (h.setKey k f).get j = h.get j := rfl
@[simp] theorem setKey_flag (k : KeySlot) (f : KeySt → KeySt) (j : Nat) : (h.setKey k f).flag j = h.flag j := rfl
@[simp] theorem setKey_eff (k : KeySlot) (f : KeySt → KeySt) (j : Nat) : (h.setKey k f).eff j = h.eff j := rfl
@[simp] theorem setKey_domOn (k : KeySlot) (f : KeySt → KeySt) (j : Nat) : (h.setKey k f).domOn j = h.domOn j := rfl
@[simp] theorem setKey_now (k : KeySlot) (f : KeySt → KeySt) : (h.setKey k f).now = h.now := rfl
@[simp] theorem setKey_timers (k : KeySlot) (f : KeySt → KeySt) : (h.setKey k f).timers = h.timers := rfl
@[simp] theorem setKey_mem (k : KeySlot) (f : KeySt → KeySt) : (h.setKey k f).mem = h.mem := rfl
@[simp] theorem setKey_objs (k : KeySlot) (f : KeySt → KeySt) : (h.setKey k f).objs = h.objs := rfl
@[simp] theorem setFrame_get (s : Fin 16) (f : Option CamFrame) (j : Nat) : (h.setFrame s f).get j = h.get j := rfl
@[simp] theorem setFrame_flag (s : Fin 16) (f : Option CamFrame) (j : Nat) : (h.setFrame s f).flag j = h.flag j := rfl
@[simp] theorem setFrame_eff (s : Fin 16) (f : Option CamFrame) (j : Nat) : (h.setFrame s f).eff j = h.eff j := rfl
@[simp] theorem setFrame_domOn (s : Fin 16) (f : Option CamFrame) (j : Nat) : (h.setFrame s f).domOn j = h.domOn j := rfl
@[simp] theorem setFrame_now (s : Fin 16) (f : Option CamFrame) : (h.setFrame s f).now = h.now := rfl
@[simp] theorem setFrame_timers (s : Fin 16) (f : Option CamFrame) : (h.setFrame s f).timers = h.timers := rfl
@[simp] theorem setFrame_mem (s : Fin 16) (f : Option CamFrame) : (h.setFrame s f).mem = h.mem := rfl
@[simp] theorem setFrame_objs (s : Fin 16) (f : Option CamFrame) : (h.setFrame s f).objs = h.objs := rfl
@[simp] theorem setTrig_get (t : Fin 8) (x : TrigSt) (j : Nat) : (h.setTrig t x).get j = h.get j := rfl
@[simp] theorem setTrig_flag (t : Fin 8) (x : TrigSt) (j : Nat) : (h.setTrig t x).flag j = h.flag j := rfl
@[simp] theorem setTrig_eff (t : Fin 8) (x : TrigSt) (j : Nat) : (h.setTrig t x).eff j = h.eff j := rfl
@[simp] theorem setTrig_domOn (t : Fin 8) (x : TrigSt) (j : Nat) : (h.setTrig t x).domOn j = h.domOn j := rfl
@[simp] theorem setTrig_now (t : Fin 8) (x : TrigSt) : (h.setTrig t x).now = h.now := rfl
@[simp] theorem setTrig_timers (t : Fin 8) (x : TrigSt) : (h.setTrig t x).timers = h.timers := rfl
@[simp] theorem setTrig_mem (t : Fin 8) (x : TrigSt) : (h.setTrig t x).mem = h.mem := rfl
@[simp] theorem setTrig_objs (t : Fin 8) (x : TrigSt) : (h.setTrig t x).objs = h.objs := rfl
@[simp] theorem setClk_get (f : ClkSt → ClkSt) (j : Nat) : (h.setClk f).get j = h.get j := rfl
@[simp] theorem setClk_flag (f : ClkSt → ClkSt) (j : Nat) : (h.setClk f).flag j = h.flag j := rfl
@[simp] theorem setClk_eff (f : ClkSt → ClkSt) (j : Nat) : (h.setClk f).eff j = h.eff j := rfl
@[simp] theorem setClk_domOn (f : ClkSt → ClkSt) (j : Nat) : (h.setClk f).domOn j = h.domOn j := rfl
@[simp] theorem setClk_now (f : ClkSt → ClkSt) : (h.setClk f).now = h.now := rfl
@[simp] theorem setClk_timers (f : ClkSt → ClkSt) : (h.setClk f).timers = h.timers := rfl
@[simp] theorem setClk_mem (f : ClkSt → ClkSt) : (h.setClk f).mem = h.mem := rfl
@[simp] theorem setClk_objs (f : ClkSt → ClkSt) : (h.setClk f).objs = h.objs := rfl
@[simp] theorem setDisp_get (p : Fin 2) (f : DispPort → DispPort) (j : Nat) : (h.setDisp p f).get j = h.get j := rfl
@[simp] theorem setDisp_flag (p : Fin 2) (f : DispPort → DispPort) (j : Nat) : (h.setDisp p f).flag j = h.flag j := rfl
@[simp] theorem setDisp_eff (p : Fin 2) (f : DispPort → DispPort) (j : Nat) : (h.setDisp p f).eff j = h.eff j := rfl
@[simp] theorem setDisp_domOn (p : Fin 2) (f : DispPort → DispPort) (j : Nat) : (h.setDisp p f).domOn j = h.domOn j := rfl
@[simp] theorem setDisp_now (p : Fin 2) (f : DispPort → DispPort) : (h.setDisp p f).now = h.now := rfl
@[simp] theorem setDisp_timers (p : Fin 2) (f : DispPort → DispPort) : (h.setDisp p f).timers = h.timers := rfl
@[simp] theorem setDisp_mem (p : Fin 2) (f : DispPort → DispPort) : (h.setDisp p f).mem = h.mem := rfl
@[simp] theorem setDisp_objs (p : Fin 2) (f : DispPort → DispPort) : (h.setDisp p f).objs = h.objs := rfl
@[simp] theorem setPlane_get (q : Fin 4) (f : PlaneSt → PlaneSt) (j : Nat) : (h.setPlane q f).get j = h.get j := rfl
@[simp] theorem setPlane_flag (q : Fin 4) (f : PlaneSt → PlaneSt) (j : Nat) : (h.setPlane q f).flag j = h.flag j := rfl
@[simp] theorem setPlane_eff (q : Fin 4) (f : PlaneSt → PlaneSt) (j : Nat) : (h.setPlane q f).eff j = h.eff j := rfl
@[simp] theorem setPlane_domOn (q : Fin 4) (f : PlaneSt → PlaneSt) (j : Nat) : (h.setPlane q f).domOn j = h.domOn j := rfl
@[simp] theorem setPlane_now (q : Fin 4) (f : PlaneSt → PlaneSt) : (h.setPlane q f).now = h.now := rfl
@[simp] theorem setPlane_timers (q : Fin 4) (f : PlaneSt → PlaneSt) : (h.setPlane q f).timers = h.timers := rfl
@[simp] theorem setPlane_mem (q : Fin 4) (f : PlaneSt → PlaneSt) : (h.setPlane q f).mem = h.mem := rfl
@[simp] theorem setPlane_objs (q : Fin 4) (f : PlaneSt → PlaneSt) : (h.setPlane q f).objs = h.objs := rfl
@[simp] theorem setDma_get (ch : Fin 64) (d : DmaCh) (j : Nat) : (h.setDma ch d).get j = h.get j := rfl
@[simp] theorem setDma_flag (ch : Fin 64) (d : DmaCh) (j : Nat) : (h.setDma ch d).flag j = h.flag j := rfl
@[simp] theorem setDma_eff (ch : Fin 64) (d : DmaCh) (j : Nat) : (h.setDma ch d).eff j = h.eff j := rfl
@[simp] theorem setDma_domOn (ch : Fin 64) (d : DmaCh) (j : Nat) : (h.setDma ch d).domOn j = h.domOn j := rfl
@[simp] theorem setDma_now (ch : Fin 64) (d : DmaCh) : (h.setDma ch d).now = h.now := rfl
@[simp] theorem setDma_timers (ch : Fin 64) (d : DmaCh) : (h.setDma ch d).timers = h.timers := rfl
@[simp] theorem setDma_mem (ch : Fin 64) (d : DmaCh) : (h.setDma ch d).mem = h.mem := rfl
@[simp] theorem setDma_objs (ch : Fin 64) (d : DmaCh) : (h.setDma ch d).objs = h.objs := rfl
@[simp] theorem setEng_get (e : Engine) (f : EngSt → EngSt) (j : Nat) : (h.setEng e f).get j = h.get j := rfl
@[simp] theorem setEng_flag (e : Engine) (f : EngSt → EngSt) (j : Nat) : (h.setEng e f).flag j = h.flag j := rfl
@[simp] theorem setEng_eff (e : Engine) (f : EngSt → EngSt) (j : Nat) : (h.setEng e f).eff j = h.eff j := rfl
@[simp] theorem setEng_domOn (e : Engine) (f : EngSt → EngSt) (j : Nat) : (h.setEng e f).domOn j = h.domOn j := rfl
@[simp] theorem setEng_now (e : Engine) (f : EngSt → EngSt) : (h.setEng e f).now = h.now := rfl
@[simp] theorem setEng_timers (e : Engine) (f : EngSt → EngSt) : (h.setEng e f).timers = h.timers := rfl
@[simp] theorem setEng_mem (e : Engine) (f : EngSt → EngSt) : (h.setEng e f).mem = h.mem := rfl
@[simp] theorem setEng_objs (e : Engine) (f : EngSt → EngSt) : (h.setEng e f).objs = h.objs := rfl
@[simp] theorem setHop_get (f : HopSt → HopSt) (j : Nat) : (h.setHop f).get j = h.get j := rfl
@[simp] theorem setHop_flag (f : HopSt → HopSt) (j : Nat) : (h.setHop f).flag j = h.flag j := rfl
@[simp] theorem setHop_eff (f : HopSt → HopSt) (j : Nat) : (h.setHop f).eff j = h.eff j := rfl
@[simp] theorem setHop_domOn (f : HopSt → HopSt) (j : Nat) : (h.setHop f).domOn j = h.domOn j := rfl
@[simp] theorem setHop_now (f : HopSt → HopSt) : (h.setHop f).now = h.now := rfl
@[simp] theorem setHop_timers (f : HopSt → HopSt) : (h.setHop f).timers = h.timers := rfl
@[simp] theorem setHop_mem (f : HopSt → HopSt) : (h.setHop f).mem = h.mem := rfl
@[simp] theorem setHop_objs (f : HopSt → HopSt) : (h.setHop f).objs = h.objs := rfl
@[simp] theorem setLink_get (p : Port) (f : LinkSt → LinkSt) (j : Nat) : (h.setLink p f).get j = h.get j := rfl
@[simp] theorem setLink_flag (p : Port) (f : LinkSt → LinkSt) (j : Nat) : (h.setLink p f).flag j = h.flag j := rfl
@[simp] theorem setLink_eff (p : Port) (f : LinkSt → LinkSt) (j : Nat) : (h.setLink p f).eff j = h.eff j := rfl
@[simp] theorem setLink_domOn (p : Port) (f : LinkSt → LinkSt) (j : Nat) : (h.setLink p f).domOn j = h.domOn j := rfl
@[simp] theorem setLink_now (p : Port) (f : LinkSt → LinkSt) : (h.setLink p f).now = h.now := rfl
@[simp] theorem setLink_timers (p : Port) (f : LinkSt → LinkSt) : (h.setLink p f).timers = h.timers := rfl
@[simp] theorem setLink_mem (p : Port) (f : LinkSt → LinkSt) : (h.setLink p f).mem = h.mem := rfl
@[simp] theorem setLink_objs (p : Port) (f : LinkSt → LinkSt) : (h.setLink p f).objs = h.objs := rfl
@[simp] theorem setAxl_get (n : Fin 8) (f : AxlSt → AxlSt) (j : Nat) : (h.setAxl n f).get j = h.get j := rfl
@[simp] theorem setAxl_flag (n : Fin 8) (f : AxlSt → AxlSt) (j : Nat) : (h.setAxl n f).flag j = h.flag j := rfl
@[simp] theorem setAxl_eff (n : Fin 8) (f : AxlSt → AxlSt) (j : Nat) : (h.setAxl n f).eff j = h.eff j := rfl
@[simp] theorem setAxl_domOn (n : Fin 8) (f : AxlSt → AxlSt) (j : Nat) : (h.setAxl n f).domOn j = h.domOn j := rfl
@[simp] theorem setAxl_now (n : Fin 8) (f : AxlSt → AxlSt) : (h.setAxl n f).now = h.now := rfl
@[simp] theorem setAxl_timers (n : Fin 8) (f : AxlSt → AxlSt) : (h.setAxl n f).timers = h.timers := rfl
@[simp] theorem setAxl_mem (n : Fin 8) (f : AxlSt → AxlSt) : (h.setAxl n f).mem = h.mem := rfl
@[simp] theorem setAxl_objs (n : Fin 8) (f : AxlSt → AxlSt) : (h.setAxl n f).objs = h.objs := rfl
@[simp] theorem setMac_get (e : Fin 2) (f : MacSt → MacSt) (j : Nat) : (h.setMac e f).get j = h.get j := rfl
@[simp] theorem setMac_flag (e : Fin 2) (f : MacSt → MacSt) (j : Nat) : (h.setMac e f).flag j = h.flag j := rfl
@[simp] theorem setMac_eff (e : Fin 2) (f : MacSt → MacSt) (j : Nat) : (h.setMac e f).eff j = h.eff j := rfl
@[simp] theorem setMac_domOn (e : Fin 2) (f : MacSt → MacSt) (j : Nat) : (h.setMac e f).domOn j = h.domOn j := rfl
@[simp] theorem setMac_now (e : Fin 2) (f : MacSt → MacSt) : (h.setMac e f).now = h.now := rfl
@[simp] theorem setMac_timers (e : Fin 2) (f : MacSt → MacSt) : (h.setMac e f).timers = h.timers := rfl
@[simp] theorem setMac_mem (e : Fin 2) (f : MacSt → MacSt) : (h.setMac e f).mem = h.mem := rfl
@[simp] theorem setMac_objs (e : Fin 2) (f : MacSt → MacSt) : (h.setMac e f).objs = h.objs := rfl
@[simp] theorem setWake_get (d : Domain) (cause detail : Nat) (j : Nat) : (h.setWake d cause detail).get j = h.get j := rfl
@[simp] theorem setWake_flag (d : Domain) (cause detail : Nat) (j : Nat) : (h.setWake d cause detail).flag j = h.flag j := rfl
@[simp] theorem setWake_eff (d : Domain) (cause detail : Nat) (j : Nat) : (h.setWake d cause detail).eff j = h.eff j := rfl
@[simp] theorem setWake_domOn (d : Domain) (cause detail : Nat) (j : Nat) : (h.setWake d cause detail).domOn j = h.domOn j := rfl
@[simp] theorem setWake_now (d : Domain) (cause detail : Nat) : (h.setWake d cause detail).now = h.now := rfl
@[simp] theorem setWake_timers (d : Domain) (cause detail : Nat) : (h.setWake d cause detail).timers = h.timers := rfl
@[simp] theorem setWake_mem (d : Domain) (cause detail : Nat) : (h.setWake d cause detail).mem = h.mem := rfl
@[simp] theorem setWake_objs (d : Domain) (cause detail : Nat) : (h.setWake d cause detail).objs = h.objs := rfl
@[simp] theorem setStaged_get (g : Staged) (j : Nat) : (h.setStaged g).get j = h.get j := rfl
@[simp] theorem setStaged_flag (g : Staged) (j : Nat) : (h.setStaged g).flag j = h.flag j := rfl
@[simp] theorem setStaged_eff (g : Staged) (j : Nat) : (h.setStaged g).eff j = h.eff j := rfl
@[simp] theorem setStaged_domOn (g : Staged) (j : Nat) : (h.setStaged g).domOn j = h.domOn j := rfl
@[simp] theorem setStaged_now (g : Staged) : (h.setStaged g).now = h.now := rfl
@[simp] theorem setStaged_timers (g : Staged) : (h.setStaged g).timers = h.timers := rfl
@[simp] theorem setStaged_mem (g : Staged) : (h.setStaged g).mem = h.mem := rfl
@[simp] theorem setStaged_objs (g : Staged) : (h.setStaged g).objs = h.objs := rfl
@[simp] theorem setPcie_get (f : PcieSt → PcieSt) (j : Nat) : (h.setPcie f).get j = h.get j := rfl
@[simp] theorem setPcie_flag (f : PcieSt → PcieSt) (j : Nat) : (h.setPcie f).flag j = h.flag j := rfl
@[simp] theorem setPcie_eff (f : PcieSt → PcieSt) (j : Nat) : (h.setPcie f).eff j = h.eff j := rfl
@[simp] theorem setPcie_domOn (f : PcieSt → PcieSt) (j : Nat) : (h.setPcie f).domOn j = h.domOn j := rfl
@[simp] theorem setPcie_now (f : PcieSt → PcieSt) : (h.setPcie f).now = h.now := rfl
@[simp] theorem setPcie_timers (f : PcieSt → PcieSt) : (h.setPcie f).timers = h.timers := rfl
@[simp] theorem setPcie_mem (f : PcieSt → PcieSt) : (h.setPcie f).mem = h.mem := rfl
@[simp] theorem setPcie_objs (f : PcieSt → PcieSt) : (h.setPcie f).objs = h.objs := rfl
@[simp] theorem setPd_get (p : Fin 2) (f : PdSt → PdSt) (j : Nat) : (h.setPd p f).get j = h.get j := rfl
@[simp] theorem setPd_flag (p : Fin 2) (f : PdSt → PdSt) (j : Nat) : (h.setPd p f).flag j = h.flag j := rfl
@[simp] theorem setPd_eff (p : Fin 2) (f : PdSt → PdSt) (j : Nat) : (h.setPd p f).eff j = h.eff j := rfl
@[simp] theorem setPd_domOn (p : Fin 2) (f : PdSt → PdSt) (j : Nat) : (h.setPd p f).domOn j = h.domOn j := rfl
@[simp] theorem setPd_now (p : Fin 2) (f : PdSt → PdSt) : (h.setPd p f).now = h.now := rfl
@[simp] theorem setPd_timers (p : Fin 2) (f : PdSt → PdSt) : (h.setPd p f).timers = h.timers := rfl
@[simp] theorem setPd_mem (p : Fin 2) (f : PdSt → PdSt) : (h.setPd p f).mem = h.mem := rfl
@[simp] theorem setPd_objs (p : Fin 2) (f : PdSt → PdSt) : (h.setPd p f).objs = h.objs := rfl
@[simp] theorem setGpio_get (f : GpioSt → GpioSt) (j : Nat) : (h.setGpio f).get j = h.get j := rfl
@[simp] theorem setGpio_flag (f : GpioSt → GpioSt) (j : Nat) : (h.setGpio f).flag j = h.flag j := rfl
@[simp] theorem setGpio_eff (f : GpioSt → GpioSt) (j : Nat) : (h.setGpio f).eff j = h.eff j := rfl
@[simp] theorem setGpio_domOn (f : GpioSt → GpioSt) (j : Nat) : (h.setGpio f).domOn j = h.domOn j := rfl
@[simp] theorem setGpio_now (f : GpioSt → GpioSt) : (h.setGpio f).now = h.now := rfl
@[simp] theorem setGpio_timers (f : GpioSt → GpioSt) : (h.setGpio f).timers = h.timers := rfl
@[simp] theorem setGpio_mem (f : GpioSt → GpioSt) : (h.setGpio f).mem = h.mem := rfl
@[simp] theorem setGpio_objs (f : GpioSt → GpioSt) : (h.setGpio f).objs = h.objs := rfl
@[simp] theorem setMaster_get (m : Fin 6) (f : MasterSt → MasterSt) (j : Nat) : (h.setMaster m f).get j = h.get j := rfl
@[simp] theorem setMaster_flag (m : Fin 6) (f : MasterSt → MasterSt) (j : Nat) : (h.setMaster m f).flag j = h.flag j := rfl
@[simp] theorem setMaster_eff (m : Fin 6) (f : MasterSt → MasterSt) (j : Nat) : (h.setMaster m f).eff j = h.eff j := rfl
@[simp] theorem setMaster_domOn (m : Fin 6) (f : MasterSt → MasterSt) (j : Nat) : (h.setMaster m f).domOn j = h.domOn j := rfl
@[simp] theorem setMaster_now (m : Fin 6) (f : MasterSt → MasterSt) : (h.setMaster m f).now = h.now := rfl
@[simp] theorem setMaster_timers (m : Fin 6) (f : MasterSt → MasterSt) : (h.setMaster m f).timers = h.timers := rfl
@[simp] theorem setMaster_mem (m : Fin 6) (f : MasterSt → MasterSt) : (h.setMaster m f).mem = h.mem := rfl
@[simp] theorem setMaster_objs (m : Fin 6) (f : MasterSt → MasterSt) : (h.setMaster m f).objs = h.objs := rfl
@[simp] theorem setUart_get (n : Fin 4) (f : UartSt → UartSt) (j : Nat) : (h.setUart n f).get j = h.get j := rfl
@[simp] theorem setUart_flag (n : Fin 4) (f : UartSt → UartSt) (j : Nat) : (h.setUart n f).flag j = h.flag j := rfl
@[simp] theorem setUart_eff (n : Fin 4) (f : UartSt → UartSt) (j : Nat) : (h.setUart n f).eff j = h.eff j := rfl
@[simp] theorem setUart_domOn (n : Fin 4) (f : UartSt → UartSt) (j : Nat) : (h.setUart n f).domOn j = h.domOn j := rfl
@[simp] theorem setUart_now (n : Fin 4) (f : UartSt → UartSt) : (h.setUart n f).now = h.now := rfl
@[simp] theorem setUart_timers (n : Fin 4) (f : UartSt → UartSt) : (h.setUart n f).timers = h.timers := rfl
@[simp] theorem setUart_mem (n : Fin 4) (f : UartSt → UartSt) : (h.setUart n f).mem = h.mem := rfl
@[simp] theorem setUart_objs (n : Fin 4) (f : UartSt → UartSt) : (h.setUart n f).objs = h.objs := rfl
@[simp] theorem setUsb_get (f : UsbSt → UsbSt) (j : Nat) : (h.setUsb f).get j = h.get j := rfl
@[simp] theorem setUsb_flag (f : UsbSt → UsbSt) (j : Nat) : (h.setUsb f).flag j = h.flag j := rfl
@[simp] theorem setUsb_eff (f : UsbSt → UsbSt) (j : Nat) : (h.setUsb f).eff j = h.eff j := rfl
@[simp] theorem setUsb_domOn (f : UsbSt → UsbSt) (j : Nat) : (h.setUsb f).domOn j = h.domOn j := rfl
@[simp] theorem setUsb_now (f : UsbSt → UsbSt) : (h.setUsb f).now = h.now := rfl
@[simp] theorem setUsb_timers (f : UsbSt → UsbSt) : (h.setUsb f).timers = h.timers := rfl
@[simp] theorem setUsb_mem (f : UsbSt → UsbSt) : (h.setUsb f).mem = h.mem := rfl
@[simp] theorem setUsb_objs (f : UsbSt → UsbSt) : (h.setUsb f).objs = h.objs := rfl
@[simp] theorem setCore_get (f : CoreSt → CoreSt) (j : Nat) : (h.setCore f).get j = h.get j := rfl
@[simp] theorem setCore_flag (f : CoreSt → CoreSt) (j : Nat) : (h.setCore f).flag j = h.flag j := rfl
@[simp] theorem setCore_eff (f : CoreSt → CoreSt) (j : Nat) : (h.setCore f).eff j = h.eff j := rfl
@[simp] theorem setCore_domOn (f : CoreSt → CoreSt) (j : Nat) : (h.setCore f).domOn j = h.domOn j := rfl
@[simp] theorem setCore_now (f : CoreSt → CoreSt) : (h.setCore f).now = h.now := rfl
@[simp] theorem setCore_timers (f : CoreSt → CoreSt) : (h.setCore f).timers = h.timers := rfl
@[simp] theorem setCore_mem (f : CoreSt → CoreSt) : (h.setCore f).mem = h.mem := rfl
@[simp] theorem setCore_objs (f : CoreSt → CoreSt) : (h.setCore f).objs = h.objs := rfl
@[simp] theorem setDom_get (d : Domain) (f : DomSt → DomSt) (j : Nat) : (h.setDom d f).get j = h.get j := rfl
@[simp] theorem setDom_flag (d : Domain) (f : DomSt → DomSt) (j : Nat) : (h.setDom d f).flag j = h.flag j := rfl
@[simp] theorem setDom_eff (d : Domain) (f : DomSt → DomSt) (j : Nat) : (h.setDom d f).eff j = h.eff j := rfl
@[simp] theorem setDom_domOn (d : Domain) (f : DomSt → DomSt) (j : Nat) : (h.setDom d f).domOn j = h.domOn j := rfl
@[simp] theorem setDom_now (d : Domain) (f : DomSt → DomSt) : (h.setDom d f).now = h.now := rfl
@[simp] theorem setDom_timers (d : Domain) (f : DomSt → DomSt) : (h.setDom d f).timers = h.timers := rfl
@[simp] theorem setDom_mem (d : Domain) (f : DomSt → DomSt) : (h.setDom d f).mem = h.mem := rfl
@[simp] theorem setDom_objs (d : Domain) (f : DomSt → DomSt) : (h.setDom d f).objs = h.objs := rfl
@[simp] theorem setSim_get (f : SimSt → SimSt) (j : Nat) : (h.setSim f).get j = h.get j := rfl
@[simp] theorem setSim_flag (f : SimSt → SimSt) (j : Nat) : (h.setSim f).flag j = h.flag j := rfl
@[simp] theorem setSim_eff (f : SimSt → SimSt) (j : Nat) : (h.setSim f).eff j = h.eff j := rfl
@[simp] theorem setSim_domOn (f : SimSt → SimSt) (j : Nat) : (h.setSim f).domOn j = h.domOn j := rfl
@[simp] theorem setSim_now (f : SimSt → SimSt) : (h.setSim f).now = h.now := rfl
@[simp] theorem setSim_timers (f : SimSt → SimSt) : (h.setSim f).timers = h.timers := rfl
@[simp] theorem setSim_mem (f : SimSt → SimSt) : (h.setSim f).mem = h.mem := rfl
@[simp] theorem setSim_objs (f : SimSt → SimSt) : (h.setSim f).objs = h.objs := rfl
@[simp] theorem setHotSlot_get (n : Fin 8) (f : SlotSt → SlotSt) (j : Nat) : (h.setHotSlot n f).get j = h.get j := rfl
@[simp] theorem setHotSlot_flag (n : Fin 8) (f : SlotSt → SlotSt) (j : Nat) : (h.setHotSlot n f).flag j = h.flag j := rfl
@[simp] theorem setHotSlot_eff (n : Fin 8) (f : SlotSt → SlotSt) (j : Nat) : (h.setHotSlot n f).eff j = h.eff j := rfl
@[simp] theorem setHotSlot_domOn (n : Fin 8) (f : SlotSt → SlotSt) (j : Nat) : (h.setHotSlot n f).domOn j = h.domOn j := rfl
@[simp] theorem setHotSlot_now (n : Fin 8) (f : SlotSt → SlotSt) : (h.setHotSlot n f).now = h.now := rfl
@[simp] theorem setHotSlot_timers (n : Fin 8) (f : SlotSt → SlotSt) : (h.setHotSlot n f).timers = h.timers := rfl
@[simp] theorem setHotSlot_mem (n : Fin 8) (f : SlotSt → SlotSt) : (h.setHotSlot n f).mem = h.mem := rfl
@[simp] theorem setHotSlot_objs (n : Fin 8) (f : SlotSt → SlotSt) : (h.setHotSlot n f).objs = h.objs := rfl
@[simp] theorem setFeeds_get (f : FeedSt → FeedSt) (j : Nat) : (h.setFeeds f).get j = h.get j := rfl
@[simp] theorem setFeeds_flag (f : FeedSt → FeedSt) (j : Nat) : (h.setFeeds f).flag j = h.flag j := rfl
@[simp] theorem setFeeds_eff (f : FeedSt → FeedSt) (j : Nat) : (h.setFeeds f).eff j = h.eff j := rfl
@[simp] theorem setFeeds_domOn (f : FeedSt → FeedSt) (j : Nat) : (h.setFeeds f).domOn j = h.domOn j := rfl
@[simp] theorem setFeeds_now (f : FeedSt → FeedSt) : (h.setFeeds f).now = h.now := rfl
@[simp] theorem setFeeds_timers (f : FeedSt → FeedSt) : (h.setFeeds f).timers = h.timers := rfl
@[simp] theorem setFeeds_mem (f : FeedSt → FeedSt) : (h.setFeeds f).mem = h.mem := rfl
@[simp] theorem setFeeds_objs (f : FeedSt → FeedSt) : (h.setFeeds f).objs = h.objs := rfl
@[simp] theorem setSm_get (f : Safety → Safety) (j : Nat) : (h.setSm f).get j = h.get j := rfl
@[simp] theorem setSm_flag (f : Safety → Safety) (j : Nat) : (h.setSm f).flag j = h.flag j := rfl
@[simp] theorem setSm_eff (f : Safety → Safety) (j : Nat) : (h.setSm f).eff j = h.eff j := rfl
@[simp] theorem setSm_domOn (f : Safety → Safety) (j : Nat) : (h.setSm f).domOn j = h.domOn j := rfl
@[simp] theorem setSm_now (f : Safety → Safety) : (h.setSm f).now = h.now := rfl
@[simp] theorem setSm_timers (f : Safety → Safety) : (h.setSm f).timers = h.timers := rfl
@[simp] theorem setSm_mem (f : Safety → Safety) : (h.setSm f).mem = h.mem := rfl
@[simp] theorem setSm_objs (f : Safety → Safety) : (h.setSm f).objs = h.objs := rfl

end Sys2Proof.Machine
end

