-- ==== Sys2Proof/Laws/Memory.lean ====
section
/-! SUPPORT. The operations on objects, timers, slots, feeds and the interrupt controller leave the memory's list of bytes alone. -/

namespace Sys2Proof.Machine

@[simp] theorem ite_mem (c : Prop) [Decidable c] (a b : Hub) : (if c then a else b).mem = if c then a.mem else b.mem := apply_ite _ _ _ _
/-- A fold of operations that leave memory alone leaves it alone. -/
theorem foldl_mem {α : Type} (f : Hub → α → Hub) (hf : ∀ h a, (f h a).mem = h.mem) (l : List α) (h : Hub) : (l.foldl f h).mem = h.mem := by
  induction l generalizing h with
  | nil => rfl
  | cons a l ih => rw [List.foldl_cons, ih, hf]
@[simp] theorem put_mem (h : Hub) (k v : Nat) : (Hub.put h k v).mem = h.mem := by
  unfold Hub.put; simp
@[simp] theorem putOct_mem (h : Hub) (k : Nat) (bs : List Byte) : (Hub.putOct h k bs).mem = h.mem := by
  unfold Hub.putOct; simp
@[simp] theorem used_mem (h : Hub) : (Hub.used h).mem = h.mem := by
  unfold Hub.used; simp
@[simp] theorem emit_mem (h : Hub) (x : Out) : (Hub.emit h x).mem = h.mem := by
  unfold Hub.emit; simp
@[simp] theorem arm_mem (h : Hub) (t : Timer) (d : Nat) : (Hub.arm h t d).mem = h.mem := by
  unfold Hub.arm; simp
@[simp] theorem disarm_mem (h : Hub) (t : Timer) : (Hub.disarm h t).mem = h.mem := by
  unfold Hub.disarm; simp
@[simp] theorem bump_mem (h : Hub) (k : Nat) : (Hub.bump h k).mem = h.mem := by
  unfold Hub.bump; (repeat' split) <;> simp
@[simp] theorem bumpBy_mem (h : Hub) (k n : Nat) : (Hub.bumpBy h k n).mem = h.mem := by
  unfold Hub.bumpBy; (repeat' split) <;> simp
@[simp] theorem peak_mem (h : Hub) (k v : Nat) : (Hub.peak h k v).mem = h.mem := by
  unfold Hub.peak; simp
@[simp] theorem event_mem (h : Hub) (code key : Nat) : (Hub.event h code key).mem = h.mem := by
  unfold Hub.event; simp
@[simp] theorem takeOne_mem (h : Hub) (w : Waiting) : (Hub.takeOne h w).mem = h.mem := by
  unfold Hub.takeOne; (repeat' split) <;> simp
@[simp] theorem takeUnit_mem (h : Hub) (u : EffUnit) (scope : Waiting → Bool) : (Hub.takeUnit h u scope).mem = h.mem := by
  unfold Hub.takeUnit; dsimp only; rw [foldl_mem _ (fun h w => takeOne_mem h w)]
@[simp] theorem accept_mem (h : Hub) (k v : Nat) : (Hub.accept h k v).mem = h.mem := by
  unfold Hub.accept; simp
@[simp] theorem setOrigin_mem (h : Hub) (o : Origin) (s : OriginSt) : (Hub.setOrigin h o s).mem = h.mem := by
  unfold Hub.setOrigin; simp
@[simp] theorem sawObject_mem (h : Hub) (o : Origin) (x : Option (Nat × W32)) : (Hub.sawObject h o x).mem = h.mem := by
  unfold Hub.sawObject; (repeat' split) <;> simp
@[simp] theorem ret_mem (h : Hub) (o : Origin) (code : Nat) : (Hub.ret h o code).mem = h.mem := by
  unfold Hub.ret; simp
@[simp] theorem startWake_mem (h : Hub) (d : Domain) (cause detail : Nat) : (Hub.startWake h d cause detail).mem = h.mem := by
  unfold Hub.startWake; (repeat' split) <;> simp
@[simp] theorem accessWake_mem (h : Hub) (o : Origin) (idx : Nat) : (Hub.accessWake h o idx).mem = h.mem := by
  unfold Hub.accessWake; dsimp only; (repeat' split) <;> simp
@[simp] theorem report_mem (h : Hub) (code detail : Nat) : (Hub.report h code detail).mem = h.mem := by
  unfold Hub.report; simp
@[simp] theorem endSession_mem (h : Hub) : (Hub.endSession h).mem = h.mem := by
  unfold Hub.endSession; simp
@[simp] theorem unstage_mem (h : Hub) (leader : Nat) : (Hub.unstage h leader).mem = h.mem := by
  unfold Hub.unstage; simp
@[simp] theorem expireGroup_mem (h : Hub) (leader : Nat) : (Hub.expireGroup h leader).mem = h.mem := by
  unfold Hub.expireGroup; simp
@[simp] theorem stageWrite_mem (h : Hub) (o : Origin) (k : Nat) (put : Staged → Staged) : (Hub.stageWrite h o k put).2.mem = h.mem := by
  unfold Hub.stageWrite; dsimp only; (repeat' split) <;> simp [Hub.setStaged]
@[simp] theorem abortGroup_mem (h : Hub) (o : Origin) (k : Nat) : (Hub.abortGroup h o k).2.mem = h.mem := by
  unfold Hub.abortGroup; (repeat' split) <;> simp
@[simp] theorem logDiscard_mem (h : Hub) (w : Nat) (off : Nat) (data : W32) : (Hub.logDiscard h w off data).mem = h.mem := by
  unfold Hub.logDiscard; simp
@[simp] theorem fillTold_mem (h : Hub) (serial : Nat) : (Hub.fillTold h serial).mem = h.mem := rfl
@[simp] theorem discardPrefetch_mem (h : Hub) (w : Fin 16) : (Hub.discardPrefetch h w).mem = h.mem := by
  unfold Hub.discardPrefetch; split
  · rfl
  · rename_i p _
    have q : ∀ g : Hub, (p.words.foldl (fun h c => h.logDiscard w.val c.1 c.2) g).mem = g.mem := foldl_mem _ (fun h c => logDiscard_mem h _ _ _) _
    dsimp only; split <;> simp [q]
@[simp] theorem dropBlock_mem (h : Hub) (target path off : Nat) : (Hub.dropBlock h target path off).mem = h.mem := by
  unfold Hub.dropBlock; apply foldl_mem; intro h w; (repeat' split) <;> simp
@[simp] theorem written_mem (h : Hub) (k : Nat) : (Hub.written h k).mem = h.mem := by
  unfold Hub.written; simp
@[simp] theorem expireShadow_mem (h : Hub) (k : KeySlot) : (Hub.expireShadow h k).mem = h.mem := by
  unfold Hub.expireShadow; dsimp only; (repeat' split) <;> simp
@[simp] theorem markFrozen_mem (h : Hub) (o : Origin) : (Hub.markFrozen h o).2.mem = h.mem := by
  cases o <;> first | rfl | (unfold Hub.markFrozen; dsimp only; split <;> rfl)
@[simp] theorem freeze_mem (h : Hub) (o : Origin) (violation : Nat) : (Hub.freeze h o violation).mem = h.mem := by
  have e : ∀ g : Hub, (h.markFrozen o).2 = g → g.mem = h.mem := by intro g hg; rw [← hg, markFrozen_mem]
  unfold Hub.freeze
  generalize hm : h.markFrozen o = x
  obtain ⟨code, g⟩ := x
  have hg : g.mem = h.mem := e g (by rw [hm])
  dsimp only
  cases o <;> simp only [event_mem, bump_mem, put_mem, ite_mem, endSession_mem, ite_self] <;>
    rw [foldl_mem, foldl_mem, foldl_mem, hg] <;> intro h a <;> (repeat' split) <;> simp
@[simp] theorem plainWrite_mem (h : Hub) (o : Origin) (k v : Nat) : (Hub.plainWrite h o k v).2.mem = h.mem := by
  unfold Hub.plainWrite; (repeat' split) <;> simp
@[simp] theorem holdLast_mem (h : Hub) (x : Held) : (Hub.holdLast h x).mem = h.mem := rfl
@[simp] theorem holdWrite_mem (h : Hub) (o : Origin) (k v : Nat) (act : Hub → Nat × Hub) :
    (Hub.holdWrite h o k v act).2.mem = h.mem := by
  unfold Hub.holdWrite; (repeat' split) <;> simp_all
@[simp] theorem guardedR_mem (h : Hub) (o : Origin) (k v : Nat) (act : Hub → Nat × Hub) (hact : ∀ g : Hub, (act g).2.mem = g.mem) :
    (Hub.guardedR h o k v act).2.mem = h.mem := by
  unfold Hub.guardedR; (repeat' split) <;> simp_all
@[simp] theorem guarded_mem (h : Hub) (o : Origin) (k v : Nat) (act : Hub → Nat × Hub) (hact : ∀ g : Hub, (act g).2.mem = g.mem) :
    (Hub.guarded h o k v act).mem = h.mem := by
  have := guardedR_mem h o k v act hact; unfold Hub.guarded; generalize h.guardedR o k v act = x at *; obtain ⟨c, g⟩ := x; simpa using this
@[simp] theorem icSet_mem (h : Hub) (s : Nat) : (Hub.icSet h s).mem = h.mem := by
  unfold Hub.icSet; simp
@[simp] theorem startupStep_mem (h : Hub) : (Hub.startupStep h).mem = h.mem := by
  unfold Hub.startupStep; simp
@[simp] theorem engShow_mem (h : Hub) (e : Engine) : (Hub.engShow h e).mem = h.mem := by
  unfold Hub.engShow; simp
@[simp] theorem slotLeave_mem (h : Hub) (n : Fin 8) : (Hub.slotLeave h n).mem = h.mem := by
  unfold Hub.slotLeave; simp
@[simp] theorem slotIdle_mem (h : Hub) (n : Fin 8) : (Hub.slotIdle h n).mem = h.mem := by
  unfold Hub.slotIdle; simp
@[simp] theorem slotRampEnter_mem (h : Hub) (n : Fin 8) : (Hub.slotRampEnter h n).mem = h.mem := by
  unfold Hub.slotRampEnter; simp
@[simp] theorem slotWait_mem (h : Hub) (n : Fin 8) : (Hub.slotWait h n).mem = h.mem := by
  unfold Hub.slotWait; simp
@[simp] theorem slotFault_mem (h : Hub) (n : Fin 8) (cause : Nat) : (Hub.slotFault h n cause).mem = h.mem := by
  unfold Hub.slotFault; dsimp only; split <;> simp
@[simp] theorem slotEnabled_mem (h : Hub) (n : Fin 8) : (Hub.slotEnabled h n).mem = h.mem := by
  unfold Hub.slotEnabled; simp
@[simp] theorem slotCleared_mem (h : Hub) (n : Fin 8) : (Hub.slotCleared h n).mem = h.mem := by
  unfold Hub.slotCleared; simp
@[simp] theorem slotCouple_mem (h : Hub) (n : Fin 8) : (Hub.slotCouple h n).mem = h.mem := by
  unfold Hub.slotCouple; simp
@[simp] theorem feedShow_mem (h : Hub) : (Hub.feedShow h).mem = h.mem := by
  unfold Hub.feedShow; exact foldl_mem _ (by intro h f; dsimp only; split <;> simp) _ _
@[simp] theorem feedSwitched_mem (h : Hub) (new : Fin 2) : (Hub.feedSwitched h new).mem = h.mem := by
  unfold Hub.feedSwitched; simp
@[simp] theorem feedSwitch_mem (h : Hub) (new : Fin 2) (confirmed : Bool) : (Hub.feedSwitch h new confirmed).mem = h.mem := by
  unfold Hub.feedSwitch; simp
@[simp] theorem feedPriority_mem (h : Hub) (confirmed : Bool) : (Hub.feedPriority h confirmed).mem = h.mem := by
  unfold Hub.feedPriority; (repeat' split) <;> simp
@[simp] theorem feedSelect_mem (h : Hub) (confirmed : Bool) : (Hub.feedSelect h confirmed).mem = h.mem := by
  unfold Hub.feedSelect; dsimp only; (repeat' split) <;> simp
@[simp] theorem feedStep_mem (h : Hub) : (Hub.feedStep h).mem = h.mem := by
  unfold Hub.feedStep; (repeat' split) <;> simp
@[simp] theorem feedModeWritten_mem (h : Hub) : (Hub.feedModeWritten h).mem = h.mem := by
  unfold Hub.feedModeWritten; simp
@[simp] theorem feedCleared_mem (h : Hub) : (Hub.feedCleared h).mem = h.mem := by
  unfold Hub.feedCleared; dsimp only
  rw [feedSelect_mem]
  exact foldl_mem _ (by intro h a; split <;> simp) _ _
@[simp] theorem contractHold_mem (h : Hub) (p : Fin 2) : (Hub.contractHold h p).mem = h.mem := by
  unfold Hub.contractHold; rw [feedSelect_mem, foldl_mem _ (by intro h n; split <;> simp), put_mem]
@[simp] theorem icLevels_mem (h : Hub) : (Hub.icLevels h).mem = h.mem := by
  unfold Hub.icLevels; dsimp only; exact foldl_mem _ (by intro h a; split <;> simp) _ _
@[simp] theorem claim_mem (h : Hub) (t : Nat) : (Hub.claim h t).2.mem = h.mem := by
  unfold Hub.claim; dsimp only; split <;> simp
@[simp] theorem complete_mem (h : Hub) (t v : Nat) : (Hub.complete h t v).mem = h.mem := by
  unfold Hub.complete; dsimp only; (repeat' split) <;> simp
@[simp] theorem icWrite_mem (h : Hub) (w v : Nat) : (Hub.icWrite h w v).mem = h.mem := by
  unfold Hub.icWrite; dsimp only; rw [foldl_mem _ (by intro h a; split <;> simp)]; simp
@[simp] theorem engWake_mem (h : Hub) (e : Engine) : (Hub.engWake h e).mem = h.mem := by
  unfold Hub.engWake; dsimp only; (repeat' split) <;> simp only [startWake_mem, bump_mem, put_mem, engShow_mem, setEng_mem]

end Sys2Proof.Machine
end

