-- ==== Sys2Proof/Laws/Start.lean ====
section
/-! SUPPORT. What a command of the TAP and a reset that clears the hub answer, said once. -/

namespace Sys2Proof.Machine

/-- The TAP has its supply: its command acts. -/
theorem tap_eq (s : State) (f : Hub → Hub) (hp : s.hub.hold ≠ .porn) (hv : s.hub.hold ≠ .vddAon) :
    s.tap f = .next (s.after (f s.now)) := by
  simp [State.tap, State.always, hp, hv, State.after, State.now]

/-- The TAP has no supply: its command only clears the outputs. -/
theorem tap_off (s : State) (f : Hub → Hub) (h : s.hub.hold = .porn ∨ s.hub.hold = .vddAon) : s.tap f = .next (s.after s.now) := by
  simp [State.tap, State.always, h, State.after, State.now]

/-- A command of the TAP answers a next state, with the queue as it was. -/
theorem tap_next (s : State) (f : Hub → Hub) : ∃ h, s.tap f = .next { s with hub := Hub.settle s.hub h } := by
  unfold State.tap; split <;> exact always_next _ _

/-- A reset that leaves nothing of the objects and of memory but what it puts there answers a next state, with the queue as it was. -/
theorem fresh_next (s : State) (f : Hub → Hub) :
    ∃ h, s.fresh f = .next { s with hub := Hub.settle { s.hub with objs := ⟨[], []⟩, mem := ⟨[], []⟩ } h } := ⟨_, rfl⟩

/-- An instruction of the TAP shows what it returns and is the one the TAP holds. -/
@[simp] theorem tap_out (h : Hub) (ir : JtagIr) (id : Option Nat) (cap : List Bool) (drv : List (Ball × Bool)) :
    (h.tap ir id cap drv).out = h.out ++ [.tap id cap drv] := rfl

@[simp] theorem tap_jtag (h : Hub) (ir : JtagIr) (id : Option Nat) (cap : List Bool) (drv : List (Ball × Bool)) :
    (h.tap ir id cap drv).boot.jtag = ir := rfl

@[simp] theorem tap_objs (h : Hub) (ir : JtagIr) (id : Option Nat) (cap : List Bool) (drv : List (Ball × Bool)) :
    (h.tap ir id cap drv).objs = h.objs := rfl

@[simp] theorem tap_mem (h : Hub) (ir : JtagIr) (id : Option Nat) (cap : List Bool) (drv : List (Ball × Bool)) :
    (h.tap ir id cap drv).mem = h.mem := rfl

end Sys2Proof.Machine
end

