-- ==== Sys2Proof/WellFormed.lean ====
section
/-! DEFINITION. Well-formed commands: what the spec fixes about the operands that their types leave open. The machine answers every
command; an ill-formed one spells nothing that can reach the hub's pins. -/

namespace Sys2Proof

/-- A cell: 8 bytes of header and 128 of payload (R187, R189). -/
def cellWf (hdr body : List Byte) : Bool := hdr.length == 8 && body.length == 128

/-- An access of a host: 1 to 8 bytes (R106). -/
def sizeWf (n : Fin 9) : Bool := n.val != 0

/-- The payload of a control cell, where one arrived intact (R195). -/
def contentWf (content : Option (List Byte)) : Bool := match content with
  | some c => Nat.ble c.length 128
  | none => true

/-- A cell an attachment presents or is handed. -/
def CellIn.wf (c : CellIn) : Bool := cellWf c.hdr c.body

/-- The operands of a command have the shape the spec gives them. -/
def Instr.wf : Instr → Bool
  | .cellRx _ (some (_, hdr, body)) => cellWf hdr body
  | .motionCellRx (some (_, c)) => c.wf
  | .ethEgressReassembly _ (some (_, c)) => c.wf
  | .cellIngress _ (some c) => c.wf
  | .pcieTlpEgress _ _ (some cells) => cells.all fun c => Nat.ble c.length 128
  | .markerRx _ _ block _ => block.length == 136
  | .trainingFrameRx _ t => t.frame.length == 64
  | .retrainCellRx _ c => contentWf c
  | .eqBackchannelRx _ c => contentWf c
  | .farLoopRequestRx _ c => contentWf c
  | .epochControlRx _ c => contentWf c
  | .swapRequestRx _ c => contentWf c
  | .swapAcceptRx _ c => contentWf c
  | .swapRefuseRx _ c => contentWf c
  | .keyPhaseAnnounceRx _ c => contentWf c
  | .timeExchangeRx _ c _ => contentWf c
  | .creditCellRx _ _ c => contentWf c
  | .pcieResetMessageRx _ _ c => contentWf c
  | .windowRead _ _ n _ => sizeWf n
  | .windowWrite _ _ n _ _ => sizeWf n
  | .remoteBridgeRequestRx _ _ _ _ _ _ n _ _ => sizeWf n
  | _ => true

end Sys2Proof
end

