-- ==== Sys2Proof/Tests/Slice0.lean ====
section
/-! SUPPORT. Tests: ill-formed commands, single steps on small states with their expected results from the rules, and for every statement
with hypotheses a state and operands that meet them together. -/

namespace Sys2Proof.Machine

/-- The hub out of reset, changed by `f`. -/
def wWith (f : Hub → Hub) : State := { State.reset with hub := f { State.reset.hub with hold := .run } }

/-- The hub out of reset. -/
def wState : State := wWith id

/-- The same, as it stands after a command that left it so: a sound state. -/
def wSound (f : Hub → Hub) : State := wState.after (f wState.hub)

theorem wSound_sound (f : Hub → Hub) : (wSound f).Sound :=
  settle_sound wState.hub _ ⟨rfl, rfl, fun c hc => by cases hc⟩ rfl

/-! ### Ill-formed commands -/

theorem test_wf_refuses_short_header : (Instr.cellRx 0 (some (0, [], List.replicate 128 0))).wf = false := by decide
theorem test_wf_refuses_short_payload : (Instr.motionCellRx (some (0, ⟨0, List.replicate 8 0, [], false⟩))).wf = false := by decide
theorem test_wf_refuses_short_reassembled_cell : (Instr.ethEgressReassembly 0 (some (0, ⟨0, [], [], false⟩))).wf = false := by decide
theorem test_wf_refuses_long_tlp_cell : (Instr.pcieTlpEgress 0 0 (some [List.replicate 129 0])).wf = false := by simp [Instr.wf]; rfl
theorem test_wf_refuses_short_core_cell : (Instr.cellIngress 0 (some ⟨0, [], [], false⟩)).wf = false := by decide
theorem test_wf_refuses_short_marker : (Instr.markerRx 0 0 (List.replicate 135 0) 0).wf = false := by simp [Instr.wf]
theorem test_wf_refuses_short_training_frame :
    (Instr.trainingFrameRx 0 ⟨List.replicate 63 0, 0, false, [], [], [], 0, 0, 0, [], 0, 0, none⟩).wf = false := by decide
theorem test_wf_refuses_long_content : (Instr.epochControlRx 0 (some (List.replicate 129 0))).wf = false ∧
    (Instr.retrainCellRx 0 (some (List.replicate 129 0))).wf = false ∧
    (Instr.eqBackchannelRx 0 (some (List.replicate 129 0))).wf = false ∧
    (Instr.farLoopRequestRx 0 (some (List.replicate 129 0))).wf = false ∧
    (Instr.swapRequestRx 0 (some (List.replicate 129 0))).wf = false ∧
    (Instr.swapAcceptRx 0 (some (List.replicate 129 0))).wf = false ∧
    (Instr.swapRefuseRx 0 (some (List.replicate 129 0))).wf = false ∧
    (Instr.keyPhaseAnnounceRx 0 (some (List.replicate 129 0))).wf = false ∧
    (Instr.creditCellRx 0 0 (some (List.replicate 129 0))).wf = false ∧
    (Instr.pcieResetMessageRx 0 0 (some (List.replicate 129 0))).wf = false ∧
    (Instr.timeExchangeRx 0 (some (List.replicate 129 0)) 0).wf = false := by
  simp [Instr.wf, contentWf]; decide
theorem test_wf_refuses_empty_access : (Instr.windowRead false 0 0 none).wf = false ∧ (Instr.windowWrite false 0 0 0 none).wf = false ∧
    (Instr.remoteBridgeRequestRx 0 false 0 false 0 0 0 0 false).wf = false := by decide
theorem test_wf_takes_a_whole_cell : (Instr.cellRx 0 (some (0, List.replicate 8 0, List.replicate 128 0))).wf = true := by simp [Instr.wf, cellWf]

/-! ### Words: the table's rows have no bits -/

theorem test_no_word_spells_a_command : decodeTableWord 16 0 = none := by decide

/-! ### Single steps, expected results from the rules -/

/-- What a step leaves, read by `f`. -/
def afterStep {α : Type} (s : State) (f : State → α) : Option α := match step s with
  | .next t => some (f t)
  | _ => none

/-- A state with one command waiting. -/
def wQueue (f : Hub → Hub) (i : Instr) : State := { wWith f with pending := [i] }

-- R57, R18: NODE_ROLE takes effect at reset: it reads 1 at once, and the value in effect stays 0
theorem test_node_role_waits : afterStep (wQueue id (.objectWrite .bar0 0x110001 1))
    (fun t => (t.hub.get 0x110001, t.hub.eff 0x110001, t.hub.out)) = some (1, 0, [.result .bar0 rcOk]) := by decide
-- R59: 3 is outside NODE_ROLE's range
theorem test_node_role_range : afterStep (wQueue id (.objectWrite .bar0 0x110001 3))
    (fun t => (t.hub.get 0x110001, t.hub.out)) = some (0, [.result .bar0 rcOutOfRange]) := by decide
-- R48
theorem test_idcode : afterStep (wQueue id .jtagIdcode) (fun t => t.hub.out) = some [.tap (some 0x14816A5B) [] []] := by decide
-- R42: two of three samples read ball 0 high, one ball 1
theorem test_strap_majority : strapMajority 0x01 0x02 0x01 = 1 := by decide
-- R581: the third fault latches, with both events
theorem test_third_fault_latches : afterStep (wQueue (fun h => ((h.put (Obj.SLOT_STATE 2) 5).put (Obj.SLOT_FAULT_COUNT 2) 2))
      (.slotBreakerTrip 2 0xFFFFFFFF 100000))
    (fun t => (t.hub.get (Obj.SLOT_STATE 2), t.hub.get (Obj.SLOT_FAULT_CAUSE 2), t.hub.get Obj.EVENT_COUNT,
      t.hub.get (Obj.SLOT_ATTN 2))) = some (7, 2, 2, 3) := by decide
-- R490: of two qualifying sources the one of the higher priority, 33 with 1 against 32 with 0
theorem test_claim_priority : afterStep (wQueue (fun h => ((h.put (Obj.SRC_CFG 0 32) 0x10).put (Obj.SRC_CFG 0 33) 0x30).put
      (Obj.IC_PENDING 1) 3) (.tgtClaim .bar0 0)) (fun t => (t.hub.out, t.hub.get (Obj.IC_PENDING 1), t.hub.get (Obj.IC_ACTIVE 1)))
    = some ([.data .bar0 rcOk 34], 1, 2) := by decide
-- RV32 words written out by their fields: addi x1, x2, 5; sw x2, 8(x1); c.nop
theorem test_engine_words : decode32 0b00000000010100010000000010010011 = some (.aluImm .add 1 2 5) ∧
    decode32 0b00000000001000001010010000100011 = some (.store 4 1 2 8) ∧ decode32 0 = none := by decide
-- RV32 addition wraps at 32 bits
theorem test_alu_add_wraps : aluRun .add 0xFFFFFFFF 5 = 4 := by decide

-- R135: the pairs 00, 01, 11, 10 are the levels from the lowest; NRZ uses the outer two
theorem test_line_symbols : toLine 1 [false, false, false, true, true, true, true, false] = [0, 1, 2, 3] ∧
    toLine 0 [false, true] = [0, 3] := by decide
set_option maxRecDepth 20000 in
-- FIPS 180-4: the digest of "abc"
theorem test_sha256_abc : sha256 [0x61, 0x62, 0x63] =
    toBE 32 0xba7816bf8f01cfea414140de5dae2223b00361a396177a9cb410ff61f20015ad := by unfold sha256; decide
-- FIPS 197: the example of SubBytes, and its inverse
theorem test_aes_sub : aesSub 0x53 = 0xed ∧ aesUnsub 0xed = 0x53 := by decide

/-! ### Witnesses of the other statements -/

theorem test_witness_StepRunsTheFrontCommand :
    ∃ (c : Instr) (rest : List Instr) (s : State), s.pending = c :: rest := ⟨.jtagBypass, [], wQueue id .jtagBypass, rfl⟩

theorem test_witness_IdleStepIsANanosecond : (∃ s : State, s.pending = [] ∧ s.hub.hold = .run) ∧
    (∃ s : State, s.pending = [] ∧ s.hub.hold = .rstn) ∧
    (∃ s : State, s.Sound ∧ s.pending = [] ∧ s.hub.hold ≠ .run ∧ s.hub.hold ≠ .rstn) :=
  ⟨⟨wState, rfl, rfl⟩, ⟨wWith fun h => { h with hold := .rstn }, rfl, rfl⟩,
    ⟨wSound fun h => { h with hold := .porn }, wSound_sound _, rfl, by decide⟩⟩

theorem test_witness_EveryStepKeepsStateSound : ∃ s t : State, s.Sound ∧ step s = .next t := ⟨wSound id, _, wSound_sound _, rfl⟩

theorem test_witness_EveryCommandAnswersANextState : ∃ s : State, s.Sound := ⟨wSound id, wSound_sound _⟩

theorem test_witness_HeldHubIgnoresCommands :
    (∃ (i : Instr) (s : State), keptCommand i = false ∧ resetCommand i = false ∧ s.hub.hold ≠ .run) ∧
    (∃ (i : Instr) (s : State), keptCommand i = true ∧ stillCommand i = false ∧ s.hub.hold ≠ .run ∧ s.hub.hold ≠ .rstn) ∧
    (∃ s : State, s.hub.hold = .porn) ∧ (∃ s : State, s.hub.hold = .vddAon) ∧ ∃ s : State, s.Sound :=
  ⟨⟨.ssTimeout, wWith fun h => { h with hold := .rstn }, by decide⟩, ⟨.seatChange 0 true, wWith fun h => { h with hold := .porn }, by decide⟩,
    ⟨wWith fun h => { h with hold := .porn }, rfl⟩, ⟨wWith fun h => { h with hold := .vddAon }, rfl⟩, ⟨wSound id, wSound_sound _⟩⟩

theorem test_witness_FrozenOriginIsRefused : ∃ (s : State) (o : Origin), s.hub.hold = .run ∧ s.now.frozen o = true :=
  ⟨wWith fun h => h.put Obj.FREEZE_LOCAL 1, .bar0, by decide⟩

theorem test_witness_RefusedWriteChangesNothing : ∃ (s : State) (o : Origin) (k : BitVec 24) (v : W64), s.Sound ∧ s.hub.hold = .run ∧
    (s.now.origin o).held = none ∧ (isCaddyKey k.toNat = false ∨ s.now.caddyRights o = true) ∧
    s.now.checkWrite o k.toNat v.toNat ≠ rcOk :=
  ⟨wSound id, .bar0, 0x110001, 3, wSound_sound _, by decide⟩

theorem test_witness_WriteChecksGiveTheirResults : ∃ h : Hub, h.frozen .bar0 = false ∧ (rowOf 5 = none ∧ idxDefined 0 = false) ∧
    (rowOf 0x110000 = none ∧ idxDefined 0x1100 = true) ∧ (∃ r, rowOf 0x110002 = some r ∧ r.acc = .ro) ∧
    (∃ r, rowOf Obj.SAFE_RESET = some r ∧ r.acc ≠ .ro ∧ r.acc ≠ .rc ∧ (r.safety = true → h.safetyOrigin .bar0 = false)) ∧
    (∃ r, rowOf 0x110001 = some r ∧ r.acc ≠ .ro ∧ r.acc ≠ .rc ∧ r.safety = false ∧ r.ty ≠ .octets ∧ r.ty ≠ .domain ∧
      r.ty.width ≤ 16 ∧ 2 ^ r.ty.width ≤ 256 ∧ legalOk r.legal r.ty.width (keepBits r 3) = false ∧
      legalOk r.legal r.ty.width (keepBits r 1) = true ∧ h.extraLegal 0x110001 (keepBits r 1) = true) :=
  ⟨wState.hub, by decide⟩

theorem test_witness_SafetyObjectsTakeWritesFromTheSessionOnly :
    (∃ (s : State) (o : Origin) (k : BitVec 24) (r : ObjRow), s.Sound ∧ s.hub.hold = .run ∧ s.now.frozen o = false ∧
      (s.now.origin o).held = none ∧ (isCaddyKey k.toNat = false ∨ s.now.caddyRights o = true) ∧ rowOf k.toNat = some r ∧
      r.acc ≠ .ro ∧ r.acc ≠ .rc ∧ r.safety = true ∧ s.now.safetyOrigin o = false) ∧
    (∃ (h : Hub) (k : KeySlot), h.safetyOrigin (.hop k) = true) :=
  ⟨⟨wSound id, .bar0, 0x1F0107, (rowOf 0x1F0107).get (by decide), wSound_sound _, by decide⟩,
    ⟨(wState.hub.put Obj.SS_STATE 1).put Obj.SS_SLOT 2, 2, by decide⟩⟩

theorem test_witness_PlainWriteTakesEffectAtOnce : ∃ (s : State) (o : Origin) (k : BitVec 24) (v : W64) (r : ObjRow), s.Sound ∧
    s.hub.hold = .run ∧ s.now.clear o k.toNat v.toNat ∧ rowOf k.toNat = some r ∧ r.acc = .rw ∧ r.unit = .now ∧
    actsPlainly k.toNat = true ∧ s.now.reservedWrite o k.toNat = false :=
  ⟨wSound id, .bar0, 0x250001, 1, (rowOf 0x250001).get (by decide), wSound_sound _, by unfold Hub.clear; decide⟩

theorem test_witness_DeferredWriteWaitsForItsUnit :
    (∃ (s : State) (o : Origin) (k : BitVec 24) (v : W64) (r : ObjRow), s.Sound ∧ s.hub.hold = .run ∧ s.now.clear o k.toNat v.toNat ∧
      rowOf k.toNat = some r ∧ r.acc ≠ .rwp ∧ r.unit ≠ .now ∧ actsPlainly k.toNat = true ∧ s.now.reservedWrite o k.toNat = false) ∧
    (∃ (h : Hub) (k v₁ v₂ t₁ t₂ : Nat) (n₁ n₂ : Option Nat) (r : ObjRow), rowOf k = some r ∧ r.acc ≠ .rwp ∧ r.unit ≠ .now ∧ k < effOffset ∧
      v₂ < 2 ^ r.ty.width ∧ h.waiting = [⟨k, v₁, t₁, n₁, r.unit⟩, ⟨k, v₂, t₂, n₂, r.unit⟩]) :=
  ⟨⟨wSound id, .bar0, 0x110001, 1, (rowOf 0x110001).get (by decide), wSound_sound _, by unfold Hub.clear; decide⟩,
    ⟨{ wState.hub with waiting := [⟨0x400401, 1, 0, none, .epoch⟩, ⟨0x400401, 2, 0, some 5, .epoch⟩] }, 0x400401, 1, 2, 0, 0, none, some 5,
      (rowOf 0x400401).get (by decide), by decide⟩⟩

theorem test_witness_WordPairIsOneWrite : ∃ (s : State) (o : Origin) (k : BitVec 24) (r : ObjRow), s.hub.hold = .run ∧
    s.now.frozen o = false ∧ rowOf k.toNat = some r ∧ r.ty = .u64 ∧ rowOf (k.toNat + 1) = none ∧ wideOf (k.toNat + 1) = some k.toNat ∧
    r.acc ≠ .ro ∧ r.acc ≠ .rc ∧ (isCaddyKey k.toNat = false ∨ s.now.caddyRights o = true) ∧ (s.now.origin o).held = none ∧
    ((wWith fun h => h.setOrigin o { held := some (k.toNat, 5) }).now.origin o).held = some (k.toNat, 5) ∧
    ((wWith fun h => h.setOrigin o { held := some (1, 5) }).now.origin o).held = some (1, 5) :=
  ⟨wState, .bar0, 0x120008, (rowOf 0x120008).get (by decide), by decide⟩

theorem test_witness_StoreWhileOneRunsIsBusy : ∃ (s : State) (o : Origin) (v w : W32) (k : KeySlot), s.hub.hold = .run ∧
    s.hub.storeRun ≠ .idle ∧ s.now.clear o Obj.STORE_CMD v.toNat ∧ s.now.clear o Obj.RESTORE_CMD w.toNat ∧ s.now.frozen (.hop k) = false :=
  ⟨wWith fun h => { h with storeRun := .restore }, .bar0, 0x73746F72, 0x6C6F6164, 1, by unfold Hub.clear; decide⟩

theorem test_witness_StagingBelongsToItsOwner : ∃ (s : State) (o : Origin) (k : BitVec 24) (v : W64) (r : ObjRow), s.Sound ∧
    s.hub.hold = .run ∧ s.now.clear o k.toNat v.toNat ∧ rowOf k.toNat = some r ∧ r.acc = .rwp ∧ actsPlainly k.toNat = true ∧
    s.now.staged.any (fun g => g.leader == leaderOf k.toNat) = false ∧ (s.now.staged.filter fun g => !s.now.stale g).length < 32 :=
  ⟨wSound id, .bar0, 0x251001, 0, (rowOf 0x251001).get (by decide), wSound_sound _, by unfold Hub.clear; decide⟩

theorem test_witness_StagingBelongsToItsOwner_full : ∃ (s : State) (o : Origin) (k : BitVec 24) (v : W64) (r : ObjRow), s.Sound ∧
    s.hub.hold = .run ∧ s.now.clear o k.toNat v.toNat ∧ rowOf k.toNat = some r ∧ r.acc = .rwp ∧ actsPlainly k.toNat = true ∧
    s.now.staged.any (fun g => g.leader == leaderOf k.toNat) = false ∧ 32 ≤ (s.now.staged.filter fun g => !s.now.stale g).length :=
  ⟨wSound fun h => { h with staged := List.replicate 32 ⟨0x251101, .mp, 0, [], []⟩ }, .bar0, 0x251001, 0,
    (rowOf 0x251001).get (by decide), wSound_sound _, by unfold Hub.clear; decide⟩

/-- A hub in which the management port has staged the group of window 0. -/
def wStaged (h : Hub) : Hub := { h with staged := [⟨0x251001, .mp, 0, [(0x251001, 0)], []⟩] }

theorem test_witness_StagingBelongsToItsOwner_busy : ∃ (s : State) (o : Origin) (k : BitVec 24) (v : W64) (r : ObjRow) (g : Staged),
    s.Sound ∧ s.hub.hold = .run ∧ s.now.clear o k.toNat v.toNat ∧ rowOf k.toNat = some r ∧ r.acc = .rwp ∧ actsPlainly k.toNat = true ∧
    s.now.stagedGroup (leaderOf k.toNat) = some g ∧ g.owner ≠ o :=
  ⟨wSound wStaged, .bar0, 0x251001, 0, (rowOf 0x251001).get (by decide), ⟨0x251001, .mp, 0, [(0x251001, 0)], []⟩, wSound_sound _,
    by unfold Hub.clear; decide⟩

theorem test_witness_CommitAndAbortAreTheOwners :
    (∃ (s : State) (o : Origin) (v : W32) (g : Staged), s.hub.hold = .run ∧ namesGroup v.toNat = true ∧
      s.now.clear o Obj.GROUP_COMMIT v.toNat ∧ s.now.clear o Obj.GROUP_ABORT v.toNat ∧
      s.now.stagedGroup (leaderOf (v.toNat % 2 ^ 24)) = some g ∧ g.owner ≠ o) ∧
    (∃ (s : State) (o : Origin) (v : W32), s.hub.hold = .run ∧ namesGroup v.toNat = true ∧ s.now.clear o Obj.GROUP_COMMIT v.toNat ∧
      s.now.clear o Obj.GROUP_ABORT v.toNat ∧ s.now.staged.any (fun g => g.leader == leaderOf (v.toNat % 2 ^ 24)) = false) :=
  ⟨⟨wWith wStaged, .bar0, 0x251001, ⟨0x251001, .mp, 0, [(0x251001, 0)], []⟩, by unfold Hub.clear; decide⟩,
    ⟨wState, .bar0, 0x251001, by unfold Hub.clear; decide⟩⟩

theorem test_witness_GroupExpiresAt100Milliseconds :
    (∃ (s : State) (l : BitVec 24), s.Sound ∧ s.hub.hold = .run ∧
      (s.now.staged.find? (fun g => g.leader == l.toNat)).any s.now.stale = true ∧ s.hub.get Obj.EVENT_COUNT + 1 < 2 ^ 32) ∧
    (∃ (s : State) (l : BitVec 24), s.Sound ∧ s.hub.hold = .run ∧
      (s.now.staged.find? (fun g => g.leader == l.toNat)).any s.now.stale = false) :=
  ⟨⟨wSound fun h => { wStaged h with now := ms 100 }, 0x251001, wSound_sound _, by decide⟩,
    ⟨wSound fun h => { wStaged h with now := ms 100 - 1 }, 0x251001, wSound_sound _, by decide⟩⟩

set_option maxRecDepth 4000 in
theorem test_witness_ClaimTakesTheHighestSource :
    (∃ (s : State) (o : Origin) (t : Fin 14) (n : Nat), s.Sound ∧ s.hub.hold = .run ∧ s.now.frozen o = false ∧ n < 192 ∧
      s.now.icLevels.claimable t.val n = true ∧ ∀ m, m < 192 → s.now.icLevels.claimable t.val m = true →
        field (s.now.icLevels.srcCfg m) 7 5 < field (s.now.icLevels.srcCfg n) 7 5 ∨
        (field (s.now.icLevels.srcCfg m) 7 5 = field (s.now.icLevels.srcCfg n) 7 5 ∧ n ≤ m)) ∧
    (∃ (s : State) (o : Origin) (t : Fin 14), s.Sound ∧ s.hub.hold = .run ∧ s.now.frozen o = false ∧
      ∀ m, m < 192 → s.now.icLevels.claimable t.val m = false) ∧
    (∃ (s : State) (o : Origin) (t : Fin 14) (v : W32), s.now.clear o (Obj.TGT_COMPLETE t.val) v.toNat ∧ v.toNat < 192 ∧
      (s.now.written (Obj.TGT_COMPLETE t.val)).fw.activeAt.contains (v.toNat, t.val) = true) ∧
    (∃ (s : State) (o : Origin) (t : Fin 14) (v : W32), s.now.clear o (Obj.TGT_COMPLETE t.val) v.toNat ∧
      (192 ≤ v.toNat ∨ (s.now.written (Obj.TGT_COMPLETE t.val)).fw.activeAt.contains (v.toNat, t.val) = false)) :=
  ⟨⟨wSound fun h => (h.put (Obj.SRC_CFG 0 33) 0x30).put (Obj.IC_PENDING 1) 2, .bar0, 0, 33, wSound_sound _, by decide⟩,
    ⟨wSound id, .bar0, 5, wSound_sound _, by decide⟩,
    ⟨wWith fun h => { h with fw := { h.fw with activeAt := [(191, 0)] } }, .bar0, 0, 191, by unfold Hub.clear; decide⟩,
    ⟨wState, .bar0, 0, 192, by unfold Hub.clear; decide⟩⟩

theorem test_witness_SlotFaultEntryIsRecorded : ∃ (s : State) (n : Fin 8), s.Sound ∧ s.hub.hold = .run ∧
    s.now.get (Obj.SLOT_FAULT_COUNT n.val) < 255 ∧ s.now.get (Obj.FAULTS n.val) + 1 < 2 ^ 32 ∧
    s.now.get (Obj.SLOT_STATE n.val) = 4 ∧ s.now.due (.ramp n) = true ∧ s.now.slotConducts n = true ∧
    s.now.tripsFast n 0xFFFFFFFF 48000 0 = true ∧ (busWindow (s.now.get (Obj.SLOT_BUS n.val))).2 < 60001 ∧
    (wWith fun h => h.put (Obj.SLOT_STATE n.val) 5).now.get (Obj.SLOT_STATE n.val) = 5 ∧
    (wWith fun h => h.put (Obj.SLOT_STATE n.val) 5).now.get (Obj.SLOT_ILIM n.val) < 0xFFFFFFFF ∧
    (wWith fun h => h.put (Obj.SLOT_STATE n.val) 5).now.get (Obj.SLOT_TRIP_TIME n.val) ≤ 100000 :=
  ⟨wSound fun h => { h.put (Obj.SLOT_STATE 2) 4 with timers := [(.ramp 2, 0)] }, 2, wSound_sound _, by decide⟩

/-- A hub that has taken two strap samples and holds for the third. -/
def wStraps (hold : Hold) : State :=
  wSound fun h => { h with hold := hold, boot := { h.boot with sampling := true, samples := [1, 2] }, timers := [(.strap, 0)] }

theorem test_witness_StrapsLatchTheirMajority : (∀ hold, hold = .rstn ∨ hold = .strap → ∃ (s : State) (a b : BitVec 7), s.Sound ∧
      s.now.boot.sampling = true ∧ s.now.due .strap = true ∧ s.now.boot.samples = [a, b] ∧ s.hub.hold = hold) ∧
    (∃ latched : Hub → Prop, ∀ h, latched h ↔ h.boot.sampling = false ∧ ∀ i : Fin 7, bitOf (h.get Obj.STRAP_VALUE) i.val =
      ((1#7).getLsbD i.val && (2#7).getLsbD i.val || (1#7).getLsbD i.val && (3#7).getLsbD i.val ||
        (2#7).getLsbD i.val && (3#7).getLsbD i.val)) ∧ ∃ s : State, s.now.boot.sampling = false := by
  refine ⟨?_, ⟨_, fun _ => Iff.rfl⟩, wWith fun h => { h with boot := { h.boot with sampling := false } }, by decide⟩
  rintro _ (rfl | rfl)
  · exact ⟨wStraps .rstn, 1, 2, wSound_sound _, by decide⟩
  · exact ⟨wStraps .strap, 1, 2, wSound_sound _, by decide⟩

theorem test_witness_JtagInstructionsFollowRstn : (∃ s : State, s.hub.hold ≠ .porn ∧ s.hub.hold ≠ .vddAon ∧ s.hub.hold ≠ .rstn) ∧
    ∃ s : State, s.hub.hold = .rstn :=
  ⟨⟨wState, by decide⟩, ⟨wWith fun h => { h with hold := .rstn }, rfl⟩⟩

-- the 412 signal balls of 02_package_and_balls.md
set_option maxRecDepth 4000 in
theorem test_ball_count : allBalls.length = 412 := by decide

theorem test_witness_SessionCloseIsTheSessions :
    (∃ (s : State) (k : KeySlot) (v : W32), s.Sound ∧ s.hub.hold = .run ∧ s.now.clear (.hop k) Obj.SS_CLOSE v.toNat ∧
      s.now.flag Obj.SS_STATE = true ∧ s.now.get Obj.SS_SLOT = k.val) ∧
    (∃ (s : State) (o : Origin) (v : W32), s.Sound ∧ s.hub.hold = .run ∧ s.now.clear o Obj.SS_CLOSE v.toNat ∧
      ∀ k : KeySlot, o = .hop k → s.now.flag Obj.SS_STATE = false ∨ s.now.get Obj.SS_SLOT ≠ k.val) :=
  ⟨⟨wSound fun h => (h.put Obj.SS_STATE 1).put Obj.SS_SLOT 2, 2, 1, wSound_sound _, by unfold Hub.clear; decide⟩,
    ⟨wSound id, .sm, 1, wSound_sound _, by decide, by unfold Hub.clear; decide, fun k h => by cases h⟩⟩

/-- The hub with engine 0 running the four bytes at the start of its TCM. -/
def wEngine (bs : List Byte) : State := wSound fun h => (h.put (Obj.ENG_STATE 0) 2).memWrite (tcmAddr 0 0) bs

/-- Engine 0 of that hub as it finds itself. -/
def wFound (s : State) : Hub := (s.now.setEng 0 fun x => { x with mtip := Nat.ble x.mtimecmp.toNat s.now.now }).icLevels

theorem test_witness_EngineStoreWritesOnlyItsBytes : ∃ s : State, s.Sound ∧ s.hub.hold = .run ∧ s.now.get (Obj.ENG_STATE 0) = 2 ∧
    (s.now.engs[(0 : Engine)]).asleep = false ∧ s.now.domOn 4 = true ∧ ((wFound s).engs[(0 : Engine)]).stall = none ∧
    ((wFound s).engs[(0 : Engine)]).late = none ∧ (wFound s).rvIrq 0 = none ∧ ((wFound s).engs[(0 : Engine)]).pc = 0 ∧
    (wFound s).fetchHalf 0 0 % 4 = 3 ∧
    decode32 ((wFound s).fetchHalf 0 0 + 65536 * (wFound s).fetchHalf 0 2) = some (.store 4 1 2 8) ∧
    ((wFound s).engs[(0 : Engine)]).reg 1 = 0 :=
  ⟨wEngine [0x23, 0xA4, 0x20, 0x00], wSound_sound _, by decide⟩

theorem test_witness_EngineAluImmediateWritesItsRegister : ∃ s : State, s.Sound ∧ s.hub.hold = .run ∧
    s.now.get (Obj.ENG_STATE 0) = 2 ∧ (s.now.engs[(0 : Engine)]).asleep = false ∧ s.now.domOn 4 = true ∧
    ((wFound s).engs[(0 : Engine)]).stall = none ∧ ((wFound s).engs[(0 : Engine)]).late = none ∧ (wFound s).rvIrq 0 = none ∧
    ((wFound s).engs[(0 : Engine)]).pc = 0 ∧ (wFound s).fetchHalf 0 0 % 4 = 3 ∧
    decode32 ((wFound s).fetchHalf 0 0 + 65536 * (wFound s).fetchHalf 0 2) = some (.aluImm .add 1 2 5) :=
  ⟨wEngine [0x93, 0x00, 0x51, 0x00], wSound_sound _, by decide⟩

theorem test_witness_ReadsThatDoNotClearChangeNothing : ∃ (s : State) (o : Origin) (k : BitVec 24) (r : ObjRow), s.Sound ∧
    s.hub.hold = .run ∧ s.now.frozen o = false ∧ rowOf k.toNat = some r ∧ r.acc ≠ .rc ∧
    (k.toNat / 256 < 0x1210 ∨ 0x1213 < k.toNat / 256) ∧ (k.toNat < 0x232001 ∨ 0x232D01 < k.toNat ∨ k.toNat % 256 ≠ 1) ∧
    s.now.domOn (domainOfIdx (k.toNat / 256)) = true :=
  ⟨wSound id, .bar0, 0x110001, (rowOf 0x110001).get (by decide), wSound_sound _, by decide⟩

theorem test_witness_CounterReadClearsIt : ∃ (s : State) (o : Origin) (k : BitVec 24) (r : ObjRow), s.Sound ∧ s.hub.hold = .run ∧
    s.now.frozen o = false ∧ rowOf k.toNat = some r ∧ r.acc = .rc ∧ k.toNat / 65536 = 0x91 ∧
    s.now.domOn (domainOfIdx (k.toNat / 256)) = true :=
  ⟨wSound id, .bar0, 0x913001, (rowOf 0x913001).get (by decide), wSound_sound _, by decide⟩

theorem test_witness_SlotEventsStayInTheirSlot : ∃ s t : State, s.Sound ∧ exec (.slotGoodTimeExpiry 3) s = .next t :=
  ⟨wSound id, _, wSound_sound _, rfl⟩

theorem test_witness_SlotFeedAndInterruptCommandsLeaveMemory :
    ∃ (i : Instr) (s t : State), s.Sound ∧ leavesMemory i = true ∧ exec i s = .next t :=
  ⟨.feedBbmFailed, wSound id, _, wSound_sound _, rfl, rfl⟩

theorem test_witness_Pam4SymbolsAreGrayCoded : pam4 1 = true ∧ pam4 2 = true := by decide

theorem test_witness_LaneBitsComeBack : [true, false].length % 2 = 0 := by decide

theorem test_witness_SealedCellOpens : ∃ (body : List Byte) (n : Nat), n ≤ body.length ∧ n ≤ 112 ∧ n ≠ 0 :=
  ⟨[1, 2, 3], 3, by decide⟩

/-- A wrong tag: a tag is 16 bytes, so a body that is cut short before its tag does not open. -/
theorem test_witness_SealedCellOpens_wrong_tag : ∃ key iv aad body : List Byte, ∃ n : Nat,
    gcmTag key iv aad (body.take n) ≠ (body.drop 112).take 16 :=
  ⟨[], [], [], [], 0, fun h => by simpa using congrArg List.length h⟩

set_option maxRecDepth 100000 in
/-- R644: on a part on which no session has ever ended the signature is that of the defaults, so test 9 passes. -/
theorem test_factory_signature : State.reset.hub.signature = Config.factorySignature.toNat := by decide

/-! ### Witnesses of the completion statements: hypotheses that hold together -/

/-- Hypotheses of `ResetStrapAndJtagCommandsComplete` that hold together. -/
theorem test_witness_ResetStrapAndJtagCommandsComplete :
    (∃ s : State, (s.hub.hold = .porn ∨ s.hub.hold = .run)) ∧
    (∃ s : State, (s.hub.hold = .run ∨ s.hub.hold = .strap)) ∧
    (∃ s : State, (s.hub.hold = .rstn ∨ s.hub.hold = .run)) ∧
    (∃ s : State, s.hub.hold ≠ .porn) ∧
    (∃ s : State, s.hub.hold ≠ .porn ∧ s.hub.hold ≠ .vddAon) ∧
    (∃ s : State, s.hub.hold = .rstn) ∧
    (∃ s : State, s.hub.hold = .run) ∧
    (∃ s : State, s.hub.hold = .vddAon) ∧
    (∃ (s : State), s.hub.boot.sampling = true ∧ s.hub.due .strap = true ∧ s.hub.hold = .strap) ∧
    (∃ (s : State) (o : Origin) (v : W32), s.hub.hold = .run ∧ s.now.clear o Obj.BLOCK_RESET v.toNat) :=
  ⟨⟨wState, by decide⟩,
    ⟨wState, by decide⟩,
    ⟨wState, by decide⟩,
    ⟨wState, by decide⟩,
    ⟨wState, by decide⟩,
    ⟨(wWith fun h => { h with hold := .rstn }), by decide⟩,
    ⟨wState, by decide⟩,
    ⟨(wWith fun h => { h with hold := .vddAon }), by decide⟩,
    ⟨(wWith fun h => ({ h with hold := .strap, boot := { h.boot with sampling := true, samples := [0, 0] } } : Hub).arm .strap 0), by decide⟩,
    ⟨wState, .sm, 19, by unfold Hub.clear; decide⟩⟩

/-- Hypotheses of `SafetyCommandsComplete` that hold together. -/
theorem test_witness_SafetyCommandsComplete :
    (∃ s : State, s.hub.hold = .run) ∧
    (∃ (s : State), s.hub.hold = .run ∧ s.now.safety.smRestarting = false ∧ s.now.get Obj.SAFE_STATE = 0 ∧ s.now.safety.startupPassed = false) ∧
    (∃ (s : State) (d : Domain), s.hub.hold = .run ∧ (2 ≤ d.val ∧ d.val ≤ 15 ∧ s.now.domOn d.val)) ∧
    (∃ (s : State), s.hub.hold = .run ∧ s.now.safety.smRestarting = false) ∧
    (∃ (s : State), s.hub.hold = .run ∧ s.now.flag Obj.SAFE_IN_STATE = false) ∧
    (∃ (s : State) (ball : Bool), s.hub.hold = .run ∧ (s.now.put Obj.SAFE_OUT_STATE (b2n ball)).smRuns = true ∧ s.now.safety.readbackAfter ≤
      s.now.now) ∧
    (∃ (s : State) (c : Report) (rest : List Report), s.hub.hold = .run ∧ s.now.smRuns = true ∧ s.now.safety.reports = c :: rest) ∧
    (∃ (s : State) (fail : Option Byte), s.hub.hold = .run ∧ s.now.smRuns = true ∧ s.now.get Obj.SAFE_STATE ≠ 0 ∧ fail = none ∧
      s.now.safety.nextTest ≠ 9) ∧
    (∃ (s : State) (o : Origin) (v : W32), s.hub.hold = .run ∧ s.now.clear o Obj.SAFE_RESET v.toNat) ∧
    (∃ (s : State) (o : Origin) (v : W32), s.hub.hold = .run ∧ s.now.clear o Obj.SS_OPEN v.toNat) ∧
    (∃ (s : State) (o : Origin) (v : W32), s.hub.hold = .run ∧ s.now.clear o Obj.SS_CLOSE v.toNat) ∧
    (∃ (s : State), s.hub.hold = .run ∧ (s.now.due .sessionTimeout) = true) ∧
    (∃ (s : State) (o : Origin) (v : W32), s.hub.hold = .run ∧ s.now.clear o Obj.FREEZE_RELEASE v.toNat) ∧
    (∃ (s : State) (r : Fin 12) (uv : W32), s.hub.hold = .run ∧ s.now.railWithin r.val uv.toNat = true) ∧
    (∃ (s : State), s.hub.hold = .run ∧ s.now.due .smRestart = true ∧ s.now.safety.smRestarting = true) :=
  ⟨⟨wState, by decide⟩,
    ⟨wState, by decide⟩,
    ⟨wState, 2, by decide⟩,
    ⟨wState, by decide⟩,
    ⟨(wWith fun h => h.put Obj.SAFE_IN_STATE 0), by decide⟩,
    ⟨(wWith fun h => { h with safety := { h.safety with readbackMiss := 7, outIntent := true } }), false, by decide⟩,
    ⟨(wWith fun h => { h with safety := { h.safety with reports := [⟨1, 0, 0⟩] } }), ⟨1, 0, 0⟩, [], by decide⟩,
    ⟨(wWith fun h => h.put Obj.SAFE_STATE 1), none, by decide⟩,
    ⟨wState, .sm, 1, by unfold Hub.clear; decide⟩,
    ⟨wState, .sm, 1, by unfold Hub.clear; decide⟩,
    ⟨wState, .sm, 1, by unfold Hub.clear; decide⟩,
    ⟨(wWith fun h => h.arm .sessionTimeout 0), by decide⟩,
    ⟨wState, .sm, 0, by unfold Hub.clear; decide⟩,
    ⟨wState, 0, 800000, by decide⟩,
    ⟨(wWith fun h => ({ h with safety := { h.safety with smRestarting := true } }).arm .smRestart 0), by decide⟩⟩

/-- Hypotheses of `ObjectCommandsComplete` that hold together. -/
theorem test_witness_ObjectCommandsComplete :
    (∃ s : State, s.hub.hold = .run) ∧
    (∃ (s : State) (o : Origin) (v : W32), s.hub.hold = .run ∧ s.now.clear o Obj.STORE_CMD v.toNat) ∧
    (∃ (s : State) (o : Origin) (v : W32), s.hub.hold = .run ∧ s.now.clear o Obj.RESTORE_CMD v.toNat) ∧
    (∃ (s : State) (o : Origin) (k : BitVec 24) (v : W64), s.hub.hold = .run ∧ s.now.clear o k.toNat v.toNat) ∧
    (∃ (s : State) (o : Origin) (v : W32), s.hub.hold = .run ∧ s.now.clear o Obj.GROUP_COMMIT v.toNat) ∧
    (∃ (s : State) (o : Origin) (v : W32), s.hub.hold = .run ∧ s.now.clear o Obj.GROUP_ABORT v.toNat) ∧
    (∃ (s : State) (leader : BitVec 24), s.hub.hold = .run ∧ (s.now.staged.find? (fun g => g.leader == leader.toNat)).any s.now.stale = true) ∧
    (∃ (s : State) (o : Origin), s.hub.hold = .run ∧ s.now.frozen o = false) ∧
    (∃ (s : State) (d : Domain), s.hub.hold = .run ∧ (s.now.domState d.val = 3)) :=
  ⟨⟨wState, by decide⟩,
    ⟨wState, .sm, 0x73746F72, by unfold Hub.clear; decide⟩,
    ⟨wState, .sm, 0x6C6F6164, by unfold Hub.clear; decide⟩,
    ⟨wState, .sm, 0x600002, 0, by unfold Hub.clear; decide⟩,
    ⟨wState, .sm, 0, by unfold Hub.clear; decide⟩,
    ⟨wState, .sm, 0, by unfold Hub.clear; decide⟩,
    ⟨(wWith fun h => { h with now := ms 100, staged := [⟨0, .bar0, 0, [], []⟩] }), 0, by decide⟩,
    ⟨wState, .sm, by decide⟩,
    ⟨(wWith fun h => h.put (Obj.DOM_STATE 0) 3), 0, by decide⟩⟩

/-- Hypotheses of `SegmentCommandsComplete` that hold together. -/
theorem test_witness_SegmentCommandsComplete :
    (∃ s : State, s.hub.hold = .run) ∧
    (∃ (s : State) (ch : Fin 4), s.hub.hold = .run ∧ (s.now.due (.segExpire ch) && (s.now.seg[ch]).owner.isSome) = true) :=
  ⟨⟨wState, by decide⟩,
    ⟨(wWith fun h => ({ h with seg := h.seg.set 0 { h.seg[0] with owner := some .bar0 } } : Hub).arm (.segExpire 0) 0), 0, by decide⟩⟩

/-- Hypotheses of `HopCommandsComplete` that hold together. -/
theorem test_witness_HopCommandsComplete :
    (∃ s : State, s.hub.hold = .run) ∧
    (∃ (s : State), s.hub.hold = .run ∧ s.now.storeRun ≠ .idle) ∧
    (∃ (s : State) (slot : Option KeySlot), s.hub.hold = .run ∧ (s.now.hopStoreOp slot 0).1 = rcOk) ∧
    (∃ (s : State) (id : W32) (x : HopSub) (k : KeySlot), s.hub.hold = .run ∧ (s.now.hop.subs.find? fun x => x.id == id.toNat) = some x ∧ x.slot =
      some k ∧ s.now.slotMac k.val = true ∧ s.now.hopDue x = true) ∧
    (∃ (s : State) (frame : List Byte), s.hub.hold = .run ∧ (hopIsResponse frame) = true) ∧
    (∃ (s : State) (id : W32), s.hub.hold = .run ∧ (s.now.due (.hopFwd id.toNat)) = true) ∧
    (∃ (s : State) (r : Fin 12) (uv : W32), s.hub.hold = .run ∧ s.now.safety.railsOut.contains r.val = false ∧ s.now.railWithin r.val uv.toNat =
      false) :=
  ⟨⟨wState, by decide⟩,
    ⟨(wWith fun h => { h with storeRun := .restore }), by decide⟩,
    ⟨wState, (some 1), by decide⟩,
    ⟨(wWith fun h => ((({ h with hop := { h.hop with subs := [⟨0, some 1, Obj.EVENT_LAST, 1, [], .usb, 0, 0⟩] } } : Hub).arm (.hopNotify 0) 0).put
      (Obj.KEY_ATTR 1) 0x21).put Obj.HOP_SLOT_MASK 2), 0, ⟨0, some 1, Obj.EVENT_LAST, 1, [], .usb, 0, 0⟩, 1, by decide⟩,
    ⟨wState, [0, 0x80], by decide⟩,
    ⟨(wWith fun h => h.arm (.hopFwd 0) 0), 0, by decide⟩,
    ⟨wState, 0, 0, by decide⟩⟩

/-- Hypotheses of `BridgeCommandsComplete` that hold together. -/
theorem test_witness_BridgeCommandsComplete :
    (∃ s : State, s.hub.hold = .run) ∧
    (∃ (s : State) (w : Fin 16), s.hub.hold = .run ∧ (s.now.due (.prefetchIdle w)) = true) ∧
    (∃ (s : State) (id : W32), s.hub.hold = .run ∧ s.now.bridge.remote.any (fun x => x.id == id.toNat) = true) ∧
    (∃ (s : State) (id : W32), s.hub.hold = .run ∧ (s.now.due (.remoteAcc id.toNat)) = true) ∧
    (∃ (s : State) (id : W32), s.hub.hold = .run ∧ (s.now.bridge.withdrawn.any fun w => w.1 == id.toNat && s.now.accDone w.2)) ∧
    (∃ (s : State) (m : Fin 32), s.hub.hold = .run ∧ (s.now.headsUnit && s.now.get (Obj.MEMBER_UNIT_ID m.val) != 0) = true) ∧
    (∃ (s : State), s.hub.hold = .run ∧ s.now.headsUnit = true ∧ s.now.eff Obj.SB_POLL_PERIOD ≤ s.now.bridge.sincePoll) :=
  ⟨⟨wState, by decide⟩,
    ⟨(wWith fun h => h.arm (.prefetchIdle 0) 0), 0, by decide⟩,
    ⟨(wWith fun h => { h with bridge := { h.bridge with remote := [⟨0, 0, .bar0, ⟨0, 0, 0, 0, 0, 0⟩, false, false, 0, 0, 0, 4, none, false⟩] } }),
      0, by decide⟩,
    ⟨(wWith fun h => h.arm (.remoteAcc 0) 0), 0, by decide⟩,
    ⟨(wWith fun h => { h with bridge := { h.bridge with withdrawn := [(0, 0)] } }), 0, by decide⟩,
    ⟨(wWith fun h => (((h.put Obj.ROLE_ACTIVE 0).put Obj.COMPOSITE_ENABLE 1).put (effOffset + Obj.COMPOSITE_ENABLE) 1).put (Obj.MEMBER_UNIT_ID 0)
      1), 0, by decide⟩,
    ⟨(wWith fun h =>
      { ((h.put Obj.ROLE_ACTIVE 0).put Obj.COMPOSITE_ENABLE 1).put (effOffset + Obj.COMPOSITE_ENABLE) 1 with bridge := { h.bridge with sincePoll := 1000000 } }),
      by decide⟩⟩

/-- Hypotheses of `TrunkLinkCommandsComplete` that hold together. -/
theorem test_witness_TrunkLinkCommandsComplete :
    (∃ s : State, s.hub.hold = .run) ∧
    (∃ (s : State), s.hub.hold = .run ∧ s.now.due .pathWait = true) ∧
    (∃ (s : State) (p : Port), s.hub.hold = .run ∧ (s.now.due (.backoff p) && s.now.get (Obj.LINK_STATE p) == 12) = true) ∧
    (∃ (s : State) (o : Origin) (p : Port) (v : W32), s.hub.hold = .run ∧ s.now.clear o (Obj.RETRAIN_CMD p) v.toNat) ∧
    (∃ (s : State) (p : Port), s.hub.hold = .run ∧ s.now.leafClock p = true) ∧
    (∃ (s : State) (p : Port) (l : Lane), s.hub.hold = .run ∧ s.now.linkUp p = true ∧ s.now.laneState p l = 2 ∧ s.now.receives p l = true) ∧
    (∃ (s : State) (p : Port) (l : Lane), s.hub.hold = .run ∧ s.now.linkUp p = true ∧ s.now.laneState p l = 2 ∧ s.now.receives p l = true) ∧
    (∃ (s : State) (p : Port) (l : Lane), s.hub.hold = .run ∧ s.now.linkUp p = true ∧ s.now.laneState p l = 2 ∧ s.now.receives p l = true) ∧
    (∃ (s : State) (p : Port), s.hub.hold = .run ∧ (s.now.ctrlLost p) = true) ∧
    (∃ (s : State) (content : Option (List Byte)) (c : List Byte), s.hub.hold = .run ∧ content = some c ∧ byteAt c 0 = 5) ∧
    (∃ (s : State) (p : Port) (l : Lane), s.hub.hold = .run ∧ (s.now.linkUp p && (l.val == 1 || l.val == 2) && s.now.laneState p l == 2) = true) ∧
    (∃ (s : State) (p : Port) (l : Lane), s.hub.hold = .run ∧ (s.now.due (.turnaround p l)) = true) :=
  ⟨⟨wState, by decide⟩,
    ⟨(wWith fun h => h.arm .pathWait 0), by decide⟩,
    ⟨(wWith fun h => (h.put (Obj.LINK_STATE 0) 12).arm (.backoff 0) 0), 0, by decide⟩,
    ⟨wState, .sm, 0, 1, by unfold Hub.clear; decide⟩,
    ⟨(wWith fun h => (h.put Obj.TRUNK_END 2).put (Obj.LINK_STATE 0) 5), 0, by decide⟩,
    ⟨(wWith fun h => (h.put (Obj.LINK_STATE 0) 11).put (Obj.LANE_STATE 0 0) 2), 0, 0, by decide⟩,
    ⟨(wWith fun h => (h.put (Obj.LINK_STATE 0) 11).put (Obj.LANE_STATE 0 0) 2), 0, 0, by decide⟩,
    ⟨(wWith fun h => ((h.put (Obj.LINK_STATE 0) 11).put (Obj.LANE_STATE 0 0) 2).put (Obj.LANE_DIR 0 0) 2), 0, 0, by decide⟩,
    ⟨(wWith fun h => { h.put (Obj.LINK_STATE 0) 11 with links := h.links.set 0 { h.links[0] with ctrlGap := 3 } }), 0, by decide⟩,
    ⟨wState, (some [5]), [5], by decide⟩,
    ⟨(wWith fun h => (h.put (Obj.LINK_STATE 0) 11).put (Obj.LANE_STATE 0 1) 2), 0, 1, by decide⟩,
    ⟨(wWith fun h => h.arm (.turnaround 0 0) 0), 0, 0, by decide⟩⟩

/-- Hypotheses of `TrunkTestCommandsComplete` that hold together. -/
theorem test_witness_TrunkTestCommandsComplete :
    (∃ (s : State) (o : Origin) (p : Port), s.hub.hold = .run ∧ s.now.clear o (Obj.TK_TEST_MODE p) 0) ∧
    (∃ (s : State) (o : Origin) (p : Port), s.hub.hold = .run ∧ s.now.clear o (Obj.TK_TEST_MODE p) 1) ∧
    (∃ (s : State) (o : Origin) (p : Port), s.hub.hold = .run ∧ s.now.clear o (Obj.TK_TEST_MODE p) 2) ∧
    (∃ (s : State) (o : Origin) (p : Port), s.hub.hold = .run ∧ s.now.clear o (Obj.TK_TEST_MODE p) 3) ∧
    (∃ (s : State) (content : Option (List Byte)) (c : List Byte), s.hub.hold = .run ∧ content = some c ∧ byteAt c 0 = 3) ∧
    (∃ (s : State) (p : Port), s.hub.hold = .run ∧ (s.now.due (.farLoop p)) = true) ∧
    (∃ (s : State) (o : Origin) (p : Port) (l : Lane), s.hub.hold = .run ∧ s.now.clear o (Obj.TST_CONTROL p l) 1) ∧
    (∃ (s : State) (o : Origin) (p : Port) (l : Lane), s.hub.hold = .run ∧ s.now.clear o (Obj.TST_CONTROL p l) 2) ∧
    (∃ (s : State) (o : Origin) (p : Port) (l : Lane), s.hub.hold = .run ∧ s.now.clear o (Obj.TST_CONTROL p l) 3) ∧
    (∃ (s : State) (o : Origin) (p : Port) (l : Lane), s.hub.hold = .run ∧ s.now.clear o (Obj.EYE_CONTROL p l) 1) ∧
    (∃ (s : State) (o : Origin) (p : Port) (l : Lane), s.hub.hold = .run ∧ s.now.clear o (Obj.EYE_CONTROL p l) 2) ∧
    (∃ (s : State) (p : Port) (l : Lane), s.hub.hold = .run ∧ (s.now.due (.eyePoint p l)) = true) :=
  ⟨⟨wState, .sm, 0, by unfold Hub.clear; decide⟩,
    ⟨wState, .sm, 0, by unfold Hub.clear; decide⟩,
    ⟨wState, .sm, 0, by unfold Hub.clear; decide⟩,
    ⟨wState, .sm, 0, by unfold Hub.clear; decide⟩,
    ⟨wState, (some [3]), [3], by decide⟩,
    ⟨(wWith fun h => h.arm (.farLoop 0) 0), 0, by decide⟩,
    ⟨wState, .sm, 0, 0, by unfold Hub.clear; decide⟩,
    ⟨wState, .sm, 0, 0, by unfold Hub.clear; decide⟩,
    ⟨wState, .sm, 0, 0, by unfold Hub.clear; decide⟩,
    ⟨wState, .sm, 0, 0, by unfold Hub.clear; decide⟩,
    ⟨wState, .sm, 0, 0, by unfold Hub.clear; decide⟩,
    ⟨(wWith fun h => h.arm (.eyePoint 0 0) 0), 0, 0, by decide⟩⟩

/-- Hypotheses of `AllotmentCommandsComplete` that hold together. -/
theorem test_witness_AllotmentCommandsComplete :
    (∃ s : State, s.hub.hold = .run) ∧
    (∃ (s : State) (p : Port), s.hub.hold = .run ∧ (s.now.linkUp p && s.now.trunkEnd p == 1 && s.now.due (.rootSend p)) = true) ∧
    (∃ (s : State) (content : Option (List Byte)) (c : List Byte), s.hub.hold = .run ∧ content = some c ∧ byteAt c 0 = 1) ∧
    (∃ (s : State) (p : Port), s.hub.hold = .run ∧ (s.now.linkUp p && s.now.trunkEnd p == 1 && s.now.due (.reportBound p) &&
      !s.now.links[p].reported) = true) ∧
    (∃ (s : State) (o : Origin) (p : Port) (v : Option W32), s.hub.hold = .run ∧ s.now.clear o (Obj.PLAN_CHOICE p) ((v.map BitVec.toNat).getD
      (s.now.planned p)) ∧ s.now.isPlanner o = true) ∧
    (∃ (s : State) (p : Port), s.hub.hold = .run ∧ s.now.due (.planDeadline p) = true ∧ s.now.linkUp p = true ∧ s.now.trunkEnd p = 1 ∧
      s.now.links[p].choice = none ∧ s.now.eff (Obj.ALLOT_MODE p) ≠ 1) ∧
    (∃ (s : State) (o : Origin) (p : Port) (v : W32), s.hub.hold = .run ∧ s.now.clear o (Obj.SWAP_CMD p) v.toNat) ∧
    (∃ (s : State) (p : Port) (t : Nat), s.hub.hold = .run ∧ s.now.links[p].swapSince = some t ∧ s.now.linkUp p = true ∧ s.now.flag (Obj.SWAP_AUTO
      p) = true ∧ s.now.evalEnd p = 1 ∧ s.now.trunkEnd p = 2 ∧ s.now.links[p].swapAt = none ∧ t + ms (s.now.get (Obj.SWAP_HOLD p)) ≤ s.now.now) ∧
    (∃ (s : State) (content : Option (List Byte)) (c : List Byte), s.hub.hold = .run ∧ content = some c ∧ byteAt c 0 = 7 ∧ byteAt c 2 % 4 = 1) ∧
    (∃ (s : State) (content : Option (List Byte)) (c : List Byte), s.hub.hold = .run ∧ content = some c ∧ byteAt c 0 = 7 ∧ byteAt c 2 % 4 = 2) ∧
    (∃ (s : State) (content : Option (List Byte)) (c : List Byte), s.hub.hold = .run ∧ content = some c ∧ byteAt c 0 = 7 ∧ byteAt c 2 % 4 = 3) ∧
    (∃ (s : State) (p : Port) (a : Nat) (b : Nat) (t : Nat), s.hub.hold = .run ∧ s.now.links[p].swapReq = some (a, b, t) ∧ t + 4 ≤ s.now.get
      (Obj.LINK_EPOCH_COUNT p)) ∧
    (∃ (s : State) (o : Origin) (p : Port) (v : W32), s.hub.hold = .run ∧ s.now.clear o (Obj.PHASE_CHANGE p) v.toNat) ∧
    (∃ (s : State) (content : Option (List Byte)) (c : List Byte), s.hub.hold = .run ∧ content = some c ∧ byteAt c 0 = 4) :=
  ⟨⟨wState, by decide⟩,
    ⟨(wWith fun h => ((h.put (Obj.LINK_STATE 0) 11).put Obj.TRUNK_END 1).arm (.rootSend 0) 0), 0, by decide⟩,
    ⟨wState, (some [1]), [1], by decide⟩,
    ⟨(wWith fun h => ((h.put (Obj.LINK_STATE 0) 11).put Obj.TRUNK_END 1).arm (.reportBound 0) 0), 0, by decide⟩,
    ⟨(wWith fun h => h.put (effOffset + Obj.PLAN_ENGINE) 3), (.se 3), 0, none, by unfold Hub.clear; decide⟩,
    ⟨(wWith fun h => (((h.put (Obj.LINK_STATE 0) 11).put Obj.TRUNK_END 1).put (effOffset + Obj.ALLOT_MODE 0) 0).arm (.planDeadline 0) 0), 0,
      by decide⟩,
    ⟨wState, .sm, 0, 1, by unfold Hub.clear; decide⟩,
    ⟨(wWith fun h =>
      { (((h.put (Obj.LINK_STATE 0) 11).put Obj.TRUNK_END 2).put (Obj.SWAP_AUTO 0) 1) with now := ms 100000, links := h.links.set 0 { h.links[0] with swapSince := some 0 } }),
      0, 0, by decide⟩,
    ⟨wState, (some [7, 0, 1]), [7, 0, 1], by decide⟩,
    ⟨wState, (some [7, 0, 2]), [7, 0, 2], by decide⟩,
    ⟨wState, (some [7, 0, 3]), [7, 0, 3], by decide⟩,
    ⟨(wWith fun h => { h.put (Obj.LINK_EPOCH_COUNT 0) 4 with links := h.links.set 0 { h.links[0] with swapReq := some (1, 2, 0) } }), 0, 1, 2, 0,
      by decide⟩,
    ⟨wState, .sm, 0, 1, by unfold Hub.clear; decide⟩,
    ⟨wState, (some [4]), [4], by decide⟩⟩

/-- Hypotheses of `BlendCommandsComplete` that hold together. -/
theorem test_witness_BlendCommandsComplete :
    (∃ s : State, s.hub.hold = .run) ∧
    (∃ (s : State) (i : Nat), s.hub.hold = .run ∧ s.now.staged_ < 1024 ∧ s.now.core.spillBusy = false ∧ s.now.domOn 23 = true ∧ s.now.spillRoom =
      true ∧ firstBelow s.now.nearHead s.now.core.cells.length = some i) ∧
    (∃ (s : State) (p : Egress) (l : Lane), s.hub.hold = .run ∧ s.now.hasSlot p.val l = true) ∧
    (∃ (s : State) (o : Origin) (t : Tunnel) (v : W32), s.hub.hold = .run ∧ s.now.clear o (Obj.TUN_FLOOR t) v.toNat) :=
  ⟨⟨wState, by decide⟩,
    ⟨(wWith fun h =>
      { h with core := { h.core with cells := [{ tun := 0, cls := 0, chan := 0, pinned := false, multi := false, place := .spill, marker := false, hops := 0, gap := false, hdr := [], body := [], copies := [⟨0, false, 0, false⟩] }] } }),
      0, by decide⟩,
    ⟨wState, 2, 0, by decide⟩,
    ⟨wState, .sm, 0, 0, by unfold Hub.clear; decide⟩⟩

/-- Hypotheses of `PcieCommandsComplete` that hold together. -/
theorem test_witness_PcieCommandsComplete :
    (∃ s : State, s.hub.hold = .run) ∧
    (∃ (s : State) (t : Tunnel), s.hub.hold = .run ∧ s.now.tlpEnds t.val ≠ []) ∧
    (∃ (s : State) (port : Fin 2), s.hub.hold = .run ∧ s.now.pcie.role[port] = 1) ∧
    (∃ (s : State) (unit : W64) (port : Fin 2), s.hub.hold = .run ∧ (unit = Config.unitId ∨ s.now.pcie.rps.any (fun r => r.1 == unit.toNat &&
      r.2.1 == port.val) = true)) ∧
    (∃ (s : State) (id : Nat) (e : NpEntry), s.hub.hold = .run ∧ s.now.due (.npTimeout id) = true ∧ (s.now.pcie.np.find? fun e => e.id == id) =
      some e) ∧
    (∃ (s : State) (o : Origin) (ch : Fin 64) (v : W32), s.hub.hold = .run ∧ s.now.clear o (Obj.DMA_TAIL ch) v.toNat) ∧
    (∃ (s : State) (ch : Fin 64), s.hub.hold = .run ∧ (s.now.get (Obj.DMA_ENABLE ch) = 1)) :=
  ⟨⟨wState, by decide⟩,
    ⟨(wWith fun h => (h.put (Obj.TUN_END_A 0) 2).put (Obj.TUN_END_B 0) 0), 0, by decide⟩,
    ⟨wState, 0, by decide⟩,
    ⟨(wWith fun h => { h with pcie := { h.pcie with rps := [((Config.unitId + 1).toNat, 0, false)] } }), Config.unitId + 1, 0, by simp [wWith,
      State.now], Or.inr (by simp [wWith, State.now])⟩,
    ⟨(wWith fun h => ({ h with pcie := { h.pcie with np := [⟨0, .bridge 0, 0, none, 0⟩] } } : Hub).arm (.npTimeout 0) 0), 0, ⟨0, .bridge 0, 0,
      none, 0⟩, by decide⟩,
    ⟨wState, .sm, 0, 0, by unfold Hub.clear; decide⟩,
    ⟨(wWith fun h => h.put (Obj.DMA_ENABLE 0) 1), 0, by decide⟩⟩

/-- Hypotheses of `CameraCommandsComplete` that hold together. -/
theorem test_witness_CameraCommandsComplete :
    (∃ (s : State) (c : Fin 4) (k : CsiPkt), s.hub.hold = .run ∧ (s.now.csiHeader c k).1 = true) ∧
    (∃ (s : State) (c : Fin 4) (k : CsiPkt), s.hub.hold = .run ∧ (s.now.csiHeader c k).1 = true) ∧
    (∃ (s : State) (c : Fin 4) (k : CsiPkt), s.hub.hold = .run ∧ (s.now.csiHeader c k).1 = true) ∧
    (∃ (s : State) (st : Fin 16), s.hub.hold = .run ∧ (s.now.due (.feTimeout st)) = true) ∧
    (∃ (s : State) (t : Fin 8), s.hub.hold = .run ∧ s.now.due (.trigApply t) = true ∧ (s.now.trig[t]).pulse = false) ∧
    (∃ (s : State) (t : Fin 8), s.hub.hold = .run ∧ (s.now.trig[t]).runs = true ∧ (s.now.trig[t]).pulse = false ∧ s.now.trigAt t (s.now.trig[t]).k
      ≤ s.now.netNs ∧ s.now.domOn 20 = true) ∧
    (∃ (s : State) (t : Fin 8), s.hub.hold = .run ∧ (s.now.due (.trigEnd t)) = true) ∧
    (∃ (s : State) (c : Fin 4), s.hub.hold = .run ∧ s.now.get (Obj.CSI_STATE c) ≠ 0 ∧ s.now.domOn 20 = true) :=
  ⟨⟨(wWith fun h => h.put (Obj.CSI_STATE 0) 2), 0, ⟨0, false, false⟩, by decide⟩,
    ⟨(wWith fun h => h.put (Obj.CSI_STATE 0) 2), 0, ⟨0, false, false⟩, by decide⟩,
    ⟨(wWith fun h => h.put (Obj.CSI_STATE 0) 2), 0, ⟨0, false, false⟩, by decide⟩,
    ⟨(wWith fun h => h.arm (.feTimeout 0) 0), 0, by decide⟩,
    ⟨(wWith fun h => h.arm (.trigApply 0) 0), 0, by decide⟩,
    ⟨(wWith fun h => { h with trig := h.trig.set 0 { h.trig[0] with runs := true } }), 0, by decide⟩,
    ⟨(wWith fun h => h.arm (.trigEnd 0) 0), 0, by decide⟩,
    ⟨(wWith fun h => h.put (Obj.CSI_STATE 0) 1), 0, by decide⟩⟩

/-- Hypotheses of `DisplayCommandsComplete` that hold together. -/
theorem test_witness_DisplayCommandsComplete :
    (∃ (s : State) (p : Fin 2), s.hub.hold = .run ∧ s.now.domOn 19 = true ∧ s.now.flag (Obj.DISP_ENABLE p) = true) ∧
    (∃ (s : State) (p : Fin 2), s.hub.hold = .run ∧ (s.now.bump (Obj.HPD_IRQS p)).domOn 19 = true) ∧
    (∃ (s : State) (o : Origin) (p : Fin 2) (v : W32), s.hub.hold = .run ∧ s.now.clear o (Obj.DISP_ENABLE p) v.toNat) ∧
    (∃ (s : State), s.hub.hold = .run ∧ (s.now.due .edpHpd) = true) ∧
    (∃ (s : State), s.hub.hold = .run ∧ s.now.due .edpBacklight = true) ∧
    (∃ (s : State) (t : Tunnel), s.hub.hold = .run ∧ (s.now.tunUsed t && s.now.hasEnd t 14 && s.now.domOn 19 && !s.now.core.stalls.contains
      (t.val, 14)) = true) ∧
    (∃ (s : State) (o : Origin) (q : Fin 4) (v : W32), s.hub.hold = .run ∧ s.now.clear o (Obj.FLIP_CMD q) v.toNat) ∧
    (∃ (s : State) (p : Fin 2), s.hub.hold = .run ∧ (s.now.due (.window p) && s.now.domOn 19) = true) ∧
    (∃ (s : State) (q : Fin 4), s.hub.hold = .run ∧ (s.now.due (.carry q)) = true) ∧
    (∃ (s : State) (p : Fin 2) (line : W16) (x : W16), s.hub.hold = .run ∧ (s.now.disp[p]).runs = true ∧ s.now.domOn 19 = true ∧ line.toNat <
      s.now.get (Obj.V_ACTIVE p) ∧ x.toNat < s.now.get (Obj.H_ACTIVE p)) ∧
    (∃ (s : State) (p : Fin 2), s.hub.hold = .run ∧ (s.now.get (Obj.SR_STATE p) = 2 ∧ (s.now.disp[p]).wait < 2)) ∧
    (∃ (s : State) (p : Fin 2), s.hub.hold = .run ∧ (s.now.get (Obj.SR_STATE p) = 2 ∧ 2 ≤ (s.now.disp[p]).wait)) ∧
    (∃ (s : State) (p : Fin 2), s.hub.hold = .run ∧ (s.now.get (Obj.SR_STATE p) = 4 ∧ s.now.srSent p)) ∧
    (∃ (s : State) (p : Fin 2), s.hub.hold = .run ∧ (s.now.get (Obj.SR_STATE p) = 5 ∧ s.now.srSent p)) ∧
    (∃ (s : State) (p : Fin 2) (works : Option W16) (w : W16), s.hub.hold = .run ∧ s.now.domOn 19 = true ∧ s.now.get (Obj.DISP_LINK p) = 3 ∧ works
      = some w) :=
  ⟨⟨(wWith fun h => h.put (Obj.DISP_ENABLE 0) 1), 0, by decide⟩,
    ⟨wState, 0, by decide⟩,
    ⟨wState, .sm, 0, 0, by unfold Hub.clear; decide⟩,
    ⟨(wWith fun h => h.arm .edpHpd 0), by decide⟩,
    ⟨(wWith fun h => (h.put (Obj.DISP_ENABLE 0) 1).arm .edpBacklight 0), by decide⟩,
    ⟨(wWith fun h => h.put (Obj.TUN_END_A 0) 14), 0, by decide⟩,
    ⟨wState, .sm, 0, 1, by unfold Hub.clear; decide⟩,
    ⟨(wWith fun h => h.arm (.window 0) 0), 0, by decide⟩,
    ⟨(wWith fun h => h.arm (.carry 0) 0), 0, by decide⟩,
    ⟨(wWith fun h => { h with disp := h.disp.set 0 { h.disp[0] with runs := true } }), 0, 0, 0, by decide⟩,
    ⟨(wWith fun h => h.put (Obj.SR_STATE 0) 2), 0, by decide⟩,
    ⟨(wWith fun h => { h.put (Obj.SR_STATE 0) 2 with disp := h.disp.set 0 { h.disp[0] with wait := 2 } }), 0, by decide⟩,
    ⟨(wWith fun h => { h.put (Obj.SR_STATE 0) 4 with disp := h.disp.set 0 { h.disp[0] with sentAt := some 0 } }), 0, by decide⟩,
    ⟨(wWith fun h => { h.put (Obj.SR_STATE 0) 5 with disp := h.disp.set 0 { h.disp[0] with sentAt := some 0 } }), 0, by decide⟩,
    ⟨(wWith fun h => h.put (Obj.DISP_LINK 0) 3), 0, (some 1), 1, by decide⟩⟩

/-- Hypotheses of `NetworkTimeAndEpochCommandsComplete` that hold together. -/
theorem test_witness_NetworkTimeAndEpochCommandsComplete :
    (∃ s : State, s.hub.hold = .run) ∧
    (∃ (s : State) (p : Port), s.hub.hold = .run ∧ s.now.leafClock p = true ∧ ((s.now.get (Obj.TK_REF_SOURCE p) = 4 ∨ s.now.get (Obj.TK_REF_SOURCE
      p) = 1) ∨ s.now.get (Obj.TK_REF_SOURCE p) = 5)) ∧
    (∃ (s : State) (o : Origin) (e : Fin 2) (v : W32), s.hub.hold = .run ∧ s.now.clear o (Obj.MDIO_CMD e) ((v ||| 0x40000000).toNat)) ∧
    (∃ (s : State) (o : Origin) (e : Fin 2) (v : W32), s.hub.hold = .run ∧ s.now.clear o (Obj.MDIO_CMD e) ((v &&& 0xBFFFFFFF).toNat)) ∧
    (∃ (s : State) (o : Origin) (v : W32), s.hub.hold = .run ∧ s.now.clear o Obj.GPTP_SAMPLE v.toNat ∧ s.now.isPtp o = true) ∧
    (∃ (s : State), s.hub.hold = .run ∧ s.now.netRuns = false) ∧
    (∃ (s : State) (p : Port), s.hub.hold = .run ∧ s.now.linkUp p = true ∧ s.now.due (.exchange p) = true) ∧
    (∃ (s : State), s.hub.hold = .run ∧ s.now.due .servoSample = true ∧ (s.now.get Obj.TIME_STATE = 1 ∨ s.now.get Obj.TIME_STATE = 2)) ∧
    (∃ (s : State), s.hub.hold = .run ∧ (s.now.due .servoHold && s.now.get Obj.TIME_STATE == 3) = true) ∧
    (∃ (s : State) (e : Fin 2), s.hub.hold = .run ∧ bitOf (s.now.get (Obj.MDIO_DATA e)) 16 = true) ∧
    (∃ (s : State), s.hub.hold = .run ∧ s.now.boundaryDue = true) :=
  ⟨⟨wState, by decide⟩,
    ⟨(wWith fun h => ((h.put (Obj.LINK_STATE 0) 11).put Obj.TRUNK_END 2).put (Obj.TK_REF_SOURCE 0) 4), 0, by decide⟩,
    ⟨wState, .sm, 0, 0, by unfold Hub.clear; decide⟩,
    ⟨wState, .sm, 0, 0, by unfold Hub.clear; decide⟩,
    ⟨(wWith fun h => h.put (effOffset + Obj.PTP_ENGINE) 3), (.se 3), 0, by unfold Hub.clear; decide⟩,
    ⟨wState, by decide⟩,
    ⟨(wWith fun h => (h.put (Obj.LINK_STATE 0) 11).arm (.exchange 0) 0), 0, by decide⟩,
    ⟨(wWith fun h => (h.put Obj.TIME_STATE 1).arm .servoSample 0), by decide⟩,
    ⟨(wWith fun h => (h.put Obj.TIME_STATE 3).arm .servoHold 0), by decide⟩,
    ⟨(wWith fun h => h.put (Obj.MDIO_DATA 0) 0x10000), 0, by decide⟩,
    ⟨(wWith fun h => { h with netRuns := true, netTime := 4000000000000000 }), by decide⟩⟩

/-- Hypotheses of `MotionCommandsComplete` that hold together. -/
theorem test_witness_MotionCommandsComplete :
    (∃ s : State, s.hub.hold = .run) ∧
    (∃ (s : State), s.hub.hold = .run ∧ s.now.domOn 24 = true) ∧
    (∃ (s : State), s.hub.hold = .run ∧ s.now.mot.request = true) :=
  ⟨⟨wState, by decide⟩,
    ⟨wState, by decide⟩,
    ⟨(wWith fun h => { h with mot := { h.mot with request := true } }), by decide⟩⟩

/-- Hypotheses of `GpioAndMasterCommandsComplete` that hold together. -/
theorem test_witness_GpioAndMasterCommandsComplete :
    (∃ s : State, s.hub.hold = .run) ∧
    (∃ (s : State) (o : Origin), s.hub.hold = .run ∧ s.now.frozen o = false ∧ s.now.domOn 2 = true) ∧
    (∃ (s : State) (o : Origin), s.hub.hold = .run ∧ s.now.frozen o = false ∧ s.now.domOn 2 = true) ∧
    (∃ (s : State) (o : Origin), s.hub.hold = .run ∧ s.now.frozen o = false ∧ s.now.domOn 2 = true) ∧
    (∃ (s : State), s.hub.hold = .run ∧ (s.now.domOn 2 && s.now.gpio.changed != 0 && s.now.gpioMay) = true) ∧
    (∃ (s : State), s.hub.hold = .run ∧ s.now.domOn 2 = true ∧ s.now.get Obj.GPIO_REPORT_PERIOD ≠ 0 ∧ s.now.due .gpioReport = true) ∧
    (∃ (s : State), s.hub.hold = .run ∧ s.now.domOn 2 = true) ∧
    (∃ (s : State), s.hub.hold = .run ∧ s.now.domOn 2 = true) ∧
    (∃ (s : State), s.hub.hold = .run ∧ (s.now.domOn 2) = true) ∧
    (∃ (s : State) (o : Origin), s.hub.hold = .run ∧ s.now.frozen o = false ∧ s.now.domOn 2 = true) ∧
    (∃ (s : State), s.hub.hold = .run ∧ s.now.domOn 2 = true) ∧
    (∃ (s : State) (e : Fin 24), s.hub.hold = .run ∧ s.now.due (.poll e) = true ∧ s.now.domOn 2 = true) :=
  ⟨⟨wState, by decide⟩,
    ⟨wState, .sm, by decide⟩,
    ⟨wState, .sm, by decide⟩,
    ⟨wState, .sm, by decide⟩,
    ⟨(wWith fun h => { h with gpio := { h.gpio with changed := 1 } }), by decide⟩,
    ⟨(wWith fun h => (h.put Obj.GPIO_REPORT_PERIOD 5).arm .gpioReport 0), by decide⟩,
    ⟨wState, by decide⟩,
    ⟨wState, by decide⟩,
    ⟨wState, by decide⟩,
    ⟨wState, .sm, by decide⟩,
    ⟨wState, by decide⟩,
    ⟨(wWith fun h => h.arm (.poll 0) 0), 0, by decide⟩⟩

/-- Hypotheses of `UartCommandsComplete` that hold together. -/
theorem test_witness_UartCommandsComplete :
    (∃ s : State, s.hub.hold = .run) ∧
    (∃ (s : State) (o : Origin), s.hub.hold = .run ∧ s.now.frozen o = false ∧ s.now.domOn 2 = true) ∧
    (∃ (s : State) (o : Origin), s.hub.hold = .run ∧ s.now.frozen o = false ∧ s.now.domOn 2 = true) ∧
    (∃ (s : State), s.hub.hold = .run ∧ (s.now.domOn 2) = true) ∧
    (∃ (s : State) (n : Fin 4), s.hub.hold = .run ∧ (s.now.domOn 2 && s.now.due (.uartIdle n)) = true) ∧
    (∃ (s : State), s.hub.hold = .run ∧ s.now.domOn 2 = true) ∧
    (∃ (s : State), s.hub.hold = .run ∧ s.now.domOn 2 = true) ∧
    (∃ (s : State) (n : Fin 4) (rxIdle : Bool), s.hub.hold = .run ∧ rxIdle = true ∧ (s.now.uarts[n]).shift = false) :=
  ⟨⟨wState, by decide⟩,
    ⟨wState, .sm, by decide⟩,
    ⟨wState, .sm, by decide⟩,
    ⟨wState, by decide⟩,
    ⟨(wWith fun h => h.arm (.uartIdle 0) 0), 0, by decide⟩,
    ⟨(wWith fun h => h.put (Obj.UART_BIND 0) 1), by decide⟩,
    ⟨(wWith fun h => h.put (Obj.UART_BIND 0) 1), by decide⟩,
    ⟨wState, 0, true, by decide⟩⟩

/-- Hypotheses of `UsbCommandsComplete` that hold together. -/
theorem test_witness_UsbCommandsComplete :
    (∃ s : State, s.hub.hold = .run) ∧
    (∃ (s : State), s.hub.hold = .run ∧ s.now.usbOn = true) ∧
    (∃ (s : State), s.hub.hold = .run ∧ s.now.usbOn = true ∧ s.now.get Obj.USB_STATE ≠ 5) ∧
    (∃ (s : State) (o : Origin) (v : W32), s.hub.hold = .run ∧ s.now.clear o Obj.DEV_WAKE v.toNat) ∧
    (∃ (s : State), s.hub.hold = .run ∧ (s.now.due .wakeStart && s.now.get Obj.DEV_WAKE_STATUS == 1) = true) ∧
    (∃ (s : State), s.hub.hold = .run ∧ (s.now.due .wakeEnd && s.now.get Obj.DEV_WAKE_STATUS == 2) = true) ∧
    (∃ (s : State) (port : Fin 3), s.hub.hold = .run ∧ port ≠ 2) :=
  ⟨⟨wState, by decide⟩,
    ⟨(wWith fun h => h.put Obj.USB_STATE 2), by decide⟩,
    ⟨(wWith fun h => h.put Obj.USB_STATE 4), by decide⟩,
    ⟨wState, .sm, 1, by unfold Hub.clear; decide⟩,
    ⟨(wWith fun h => (h.put Obj.DEV_WAKE_STATUS 1).arm .wakeStart 0), by decide⟩,
    ⟨(wWith fun h => (h.put Obj.DEV_WAKE_STATUS 2).arm .wakeEnd 0), by decide⟩,
    ⟨wState, 0, by decide⟩⟩

/-- Hypotheses of `EngineAndInterruptCommandsComplete` that hold together. -/
theorem test_witness_EngineAndInterruptCommandsComplete :
    (∃ s : State, s.hub.hold = .run) ∧
    (∃ (s : State) (e : Engine) (ecc : Fin 4), s.hub.hold = .run ∧ (s.now.get (Obj.ENG_STATE e.val) = 2 ∨ s.now.get (Obj.ENG_STATE e.val) = 6) ∧
      (s.now.engs[e]).asleep = false ∧ s.now.domOn (4 + e.val) = true ∧ ecc = 0) ∧
    (∃ (s : State) (e : Engine), s.hub.hold = .run ∧ (s.now.get (Obj.ENG_STATE e.val) = 2 ∨ s.now.get (Obj.ENG_STATE e.val) = 6) ∧
      (s.now.engs[e]).asleep = false ∧ (s.now.engs[e]).stall = none) ∧
    (∃ (s : State) (e : Engine), s.hub.hold = .run ∧ ((s.now.engs[e]).mtimecmp.toNat ≤ s.now.now)) ∧
    (∃ (s : State) (o : Origin) (t : Fin 14) (v : W32), s.hub.hold = .run ∧ s.now.clear o (Obj.TGT_COMPLETE t.val) v.toNat) ∧
    (∃ (s : State) (o : Origin) (v : W32), s.hub.hold = .run ∧ s.now.clear o Obj.IC_RAISE v.toNat) ∧
    (∃ (s : State) (o : Origin) (w : Fin 6) (v : W32), s.hub.hold = .run ∧ s.now.clear o (Obj.IC_PENDING w.val) v.toNat) :=
  ⟨⟨wState, by decide⟩,
    ⟨(wWith fun h => h.put (Obj.ENG_STATE 0) 2), 0, 0, by decide⟩,
    ⟨(wWith fun h => h.put (Obj.ENG_STATE 0) 2), 0, by decide⟩,
    ⟨(wWith fun h => { h with engs := h.engs.set 0 { h.engs[0] with mtimecmp := 0 } }), 0, by decide⟩,
    ⟨wState, .sm, 0, 0, by unfold Hub.clear; decide⟩,
    ⟨wState, .sm, 128, by unfold Hub.clear; decide⟩,
    ⟨wState, .sm, 0, 0, by unfold Hub.clear; decide⟩⟩

/-- Hypotheses of `FirmwareCommandsComplete` that hold together. -/
theorem test_witness_FirmwareCommandsComplete :
    (∃ s : State, s.hub.hold = .run) ∧
    (∃ (s : State) (e : Engine), s.hub.hold = .run ∧ (s.now.due (.wdog e) && s.now.engLive e.val) = true) ∧
    (∃ (s : State) (o : Origin) (e : Engine) (v : W32), s.hub.hold = .run ∧ s.now.clear o (Obj.ENG_RUN e.val) v.toNat) ∧
    (∃ (s : State) (o : Origin) (e : Engine) (v : W32), s.hub.hold = .run ∧ s.now.clear o (Obj.ENG_KICK e.val) v.toNat) ∧
    (∃ (s : State) (o : Origin) (e : Engine) (v : W32), s.hub.hold = .run ∧ s.now.clear o (Obj.ENG_RESET e.val) v.toNat) ∧
    (∃ (s : State) (o : Origin) (e : Engine) (q : Fin 8) (v : W32), s.hub.hold = .run ∧ s.now.clear o (Obj.Q_SW e.val q.val) v.toNat) ∧
    (∃ (s : State) (port : Fin 2) (write : Bool) (addr : W64), s.hub.hold = .run ∧ s.now.engineOwned port = true ∧ write = true ∧ addr.toNat % 4 =
      0 ∧ 0xFEE00000 + 4 * 128 ≤ addr.toNat ∧ addr.toNat ≤ 0xFEE00000 + 4 * 191) ∧
    (∃ (s : State) (o : Origin), s.hub.hold = .run ∧ s.now.clear o Obj.FW_LOAD_CMD 0x66776C64) ∧
    (∃ (s : State) (o : Origin), s.hub.hold = .run ∧ s.now.clear o Obj.FW_LOAD_CMD 0x7362786C) ∧
    (∃ (s : State) (sandbox : Bool) (done : Bool), s.hub.hold = .run ∧ sandbox = false ∧ s.now.fw.loading ≠ 0 ∧ done = true) :=
  ⟨⟨wState, by decide⟩,
    ⟨(wWith fun h => (h.put (Obj.ENG_STATE 0) 2).arm (.wdog 0) 0), 0, by decide⟩,
    ⟨wState, .sm, 0, 0, by unfold Hub.clear; decide⟩,
    ⟨wState, .sm, 0, 1, by unfold Hub.clear; decide⟩,
    ⟨wState, .sm, 0, 1, by unfold Hub.clear; decide⟩,
    ⟨wState, .sm, 0, 0, 0, by unfold Hub.clear; decide⟩,
    ⟨(wWith fun h => { h with pcie := { h.pcie with owner := h.pcie.owner.set 1 0, role := h.pcie.role.set 0 0 } }), 1, true, 0xFEE00200,
      by decide⟩,
    ⟨wState, .sm, by unfold Hub.clear; decide⟩,
    ⟨wState, .sm, by unfold Hub.clear; decide⟩,
    ⟨(wWith fun h => { h with fw := { h.fw with loading := 1 } }), false, true, by decide⟩⟩

/-- Hypotheses of `ClockCommandsComplete` that hold together. -/
theorem test_witness_ClockCommandsComplete :
    (∃ (s : State) (clk : Fin 11) (cause : Fin 4), s.hub.hold = .run ∧ s.now.monitored clk.val = true ∧ cause.val ≠ 3 ∧ (cause.val ≠ 2 ∨ 3 ≤
      clk.val)) ∧
    (∃ (s : State) (clk : Fin 11), s.hub.hold = .run ∧ bitOf (s.now.get Obj.CLK_MON_STATUS) clk.val = false ∧ s.now.pllReference clk.val = true ∧
      s.now.unqualified clk.val = true) ∧
    (∃ (s : State), s.hub.hold = .run ∧ s.now.due .rcQual = true) ∧
    (∃ (s : State) (clk : Fin 11), s.hub.hold = .run ∧ bitOf (s.now.get Obj.CLK_MON_STATUS) clk.val = true ∧ s.now.pllReference clk.val = true) ∧
    (∃ (s : State) (o : Origin) (d : Fin 3) (v : W32), s.hub.hold = .run ∧ s.now.clear o (Obj.CD_DIV_SET (d.val + 1)) v.toNat) ∧
    (∃ (s : State) (d : Fin 3), s.hub.hold = .run ∧ s.now.due (.divRamp ⟨d.val + 1, by omega⟩) = true) ∧
    (∃ (s : State) (up : Bool), s.hub.hold = .run ∧ s.now.due .rcTrim = true ∧ s.now.trimSource ≠ 0 ∧ up = true ∧ ((s.now.put Obj.RC_TRIM_SOURCE
      s.now.trimSource).arm .rcTrim (ms 1)).get Obj.RC_TRIM < 1023 ∧ s.now.get Obj.RC_TRIM < 1023) ∧
    (∃ (s : State), s.hub.hold = .run ∧ s.now.due .refSteer = true) :=
  ⟨⟨(wWith fun h => h.put Obj.XTAL_STATE 2), 0, 0, by decide⟩,
    ⟨wState, 0, by decide⟩,
    ⟨(wWith fun h => (h.put Obj.RC_STATE 5).arm .rcQual 0), by decide⟩,
    ⟨(wWith fun h => h.put Obj.CLK_MON_STATUS 1), 0, by decide⟩,
    ⟨wState, .sm, 0, 8, by unfold Hub.clear; decide⟩,
    ⟨(wWith fun h => h.arm (.divRamp 1) 0), 0, by decide⟩,
    ⟨(wWith fun h => ((h.put Obj.XTAL_STATE 2).put Obj.RC_TRIM 512).arm .rcTrim 0), true, by decide⟩,
    ⟨(wWith fun h => h.arm .refSteer 0), by decide⟩⟩

/-- Hypotheses of `PowerCommandsComplete` that hold together. -/
theorem test_witness_PowerCommandsComplete :
    (∃ s : State, s.hub.hold = .run) ∧
    (∃ (s : State) (d : Domain), s.hub.hold = .run ∧ s.now.due (.wakeBound d) = true ∧ s.now.domState d.val = 3 ∧ (s.now.doms[d]).late = true) ∧
    (∃ (s : State) (d : Domain), s.hub.hold = .run ∧ s.now.due (.idle d) = true ∧ s.now.needed d = false ∧ s.now.restState d ≠ 0) ∧
    (∃ (s : State) (d : Domain), s.hub.hold = .run ∧ s.now.due (.sched d) = true ∧ ¬(4 ≤ d.val ∧ d.val ≤ 15)) ∧
    (∃ (s : State), s.hub.hold = .run ∧ (s.now.put Obj.PL_FLOOR s.now.plFloor).plTarget ≠ (s.now.put Obj.PL_FLOOR s.now.plFloor).get
      Obj.PL_CURRENT ∧ s.now.sim.level ≠ some (s.now.put Obj.PL_FLOOR s.now.plFloor).plTarget ∧ (s.now.put Obj.PL_FLOOR s.now.plFloor).get
      Obj.SIM_MODE = 1) ∧
    (∃ (s : State) (t : Nat), s.hub.hold = .run ∧ s.now.sim.level = some t ∧ t ≤ s.now.get Obj.PL_CURRENT) ∧
    (∃ (s : State), s.hub.hold = .run ∧ s.now.get Obj.SIM_MODE = 1) ∧
    (∃ (s : State) (crcOk : Bool) (q : AvsReq), s.hub.hold = .run ∧ s.now.sim.req = some q ∧ crcOk = true) ∧
    (∃ (s : State) (q : AvsReq), s.hub.hold = .run ∧ s.now.due .avsAck = true ∧ s.now.sim.req = some q ∧ s.now.sim.misses = 2 ∧ ((s.now.setSim fun
      x => { x with misses := 3 }).bump Obj.AVS_NO_ACK).get Obj.SIM_MODE ≠ 2) ∧
    (∃ (s : State) (measured : W16), s.hub.hold = .run ∧ s.now.due .vcoreSettle = true ∧ near15 measured.toNat (((s.now.disarm .vcoreSettle).put
      Obj.VCORE_MEASURED measured.toNat).get Obj.VCORE_ACK) = true) ∧
    (∃ (s : State) (o : Origin) (v : W32), s.hub.hold = .run ∧ s.now.clear o Obj.AVS_RESTORE v.toNat) ∧
    (∃ (s : State) (o : Origin), s.hub.hold = .run ∧ s.now.clear o Obj.EN_CONTROL 1) ∧
    (∃ (s : State) (o : Origin), s.hub.hold = .run ∧ s.now.clear o Obj.EN_CONTROL 2) ∧
    (∃ (s : State), s.hub.hold = .run ∧ s.now.due .enWindow = true ∧ s.now.get Obj.EN_STATUS = 1) ∧
    (∃ (s : State) (d : Domain), s.hub.hold = .run ∧ s.now.domState d.val = 4) :=
  ⟨⟨wState, by decide⟩,
    ⟨(wWith fun h => ({ h.put (Obj.DOM_STATE 0) 3 with doms := h.doms.set 0 { h.doms[0] with late := true } } : Hub).arm (.wakeBound 0) 0), 0,
      by decide⟩,
    ⟨(wWith fun h => (h.put (Obj.PD_REQ 22) 2).arm (.idle 22) 0), 22, by decide⟩,
    ⟨(wWith fun h => h.arm (.sched 24) 0), 24, by decide⟩,
    ⟨wState, by decide⟩,
    ⟨(wWith fun h => { h with sim := { h.sim with level := some 0 } }), 0, by decide⟩,
    ⟨wState, by decide⟩,
    ⟨(wWith fun h => { h.put Obj.SIM_MODE 1 with sim := { h.sim with req := some ⟨.write 700, false, 0⟩ } }), true, ⟨.write 700, false, 0⟩,
      by decide⟩,
    ⟨(wWith fun h => ({ h.put Obj.SIM_MODE 1 with sim := { h.sim with req := some ⟨.write 700, false, 0⟩, misses := 2 } } : Hub).arm .avsAck 0),
      ⟨.write 700, false, 0⟩, by decide⟩,
    ⟨(wWith fun h => h.arm .vcoreSettle 0), 800, by decide⟩,
    ⟨wState, .sm, 1, by unfold Hub.clear; decide⟩,
    ⟨wState, .sm, by unfold Hub.clear; decide⟩,
    ⟨wState, .sm, by unfold Hub.clear; decide⟩,
    ⟨(wWith fun h => (h.put Obj.EN_STATUS 1).arm .enWindow 0), by decide⟩,
    ⟨(wWith fun h => h.put (Obj.DOM_STATE 0) 4), 0, by decide⟩⟩

/-- Hypotheses of `PdContractCommandsComplete` that hold together. -/
theorem test_witness_PdContractCommandsComplete :
    (∃ (s : State) (p : Fin 2) (farRp : Bool), s.now.kettleOff p = false ∧ ((s.now.setFed p false).pdWake p).pdState p = 1 ∧ ((s.now.setFed p
      false).pdWake p).presentsRp p ≠ farRp) ∧
    (∃ (s : State) (p : Fin 2), s.now.kettleOff p = false) ∧
    (∃ (s : State) (p : Fin 2), (s.hub.hold = .run ∨ s.hub.hold = .rstn) ∧ s.now.pdState p = 1 ∧ s.now.kettleOff p = false ∧ s.now.powerCap p = 2
      ∧ (s.now.due (.drp p) = true ∨ s.now.armed (.drp p) = false)) ∧
    (∃ (s : State) (p : Fin 2) (good : Bool), (s.hub.hold = .run ∨ s.hub.hold = .rstn) ∧ (s.now.pdBack p).isSource p = true ∧ (s.now.pdBack
      p).pdState p = 2 ∧ ((s.now.pdBack p).pd[p]).capsOk = false ∧ ((s.now.pdBack p).pd[p]).tries = 0 ∧ good = true) ∧
    (∃ (s : State) (p : Fin 2) (epr : Bool), (s.hub.hold = .run ∨ s.hub.hold = .rstn) ∧ s.now.isSink p = true ∧ (s.now.pdState p = 2 ∨
      s.now.pdState p = 3) ∧ epr = false) ∧
    (∃ (s : State) (p : Fin 2) (pos : Fin 16) (ma : W16) (x : PdPower), (s.hub.hold = .run ∨ s.hub.hold = .rstn) ∧ s.now.isSource p = true ∧
      (s.now.pdState p = 2 ∨ s.now.pdState p = 3) ∧ (s.now.pd[p]).offered.find? (fun x => x.pos == pos.val && Nat.ble ma.toNat x.ma) = some x) ∧
    (∃ (s : State) (p : Fin 2) (k : PdAsk), (s.hub.hold = .run ∨ s.hub.hold = .rstn) ∧ (s.now.pd[p]).ask = some k) ∧
    (∃ (s : State) (p : Fin 2), (s.hub.hold = .run ∨ s.hub.hold = .rstn) ∧ (s.now.pd[p]).ask = some .request) ∧
    (∃ (s : State) (p : Fin 2), (s.hub.hold = .run ∨ s.hub.hold = .rstn) ∧ (s.now.pd[p]).ask = some .request ∧ s.now.get (Obj.PD_WAIT_MAX p.val) =
      0) ∧
    (∃ (s : State) (p : Fin 2), (s.hub.hold = .run ∨ s.hub.hold = .rstn) ∧ ((s.now.due (.pdWait p) ∧ s.now.isSink p ∧ !(s.now.pd[p]).stopped ∧
      (s.now.pd[p]).ask = none ∧ (s.now.pdState p = 2 ∨ s.now.pdState p = 3)))) ∧
    (∃ (s : State) (p : Fin 2) (x : PdPower), (s.hub.hold = .run ∨ s.hub.hold = .rstn) ∧ s.now.due (.pdCode p) = true ∧ (s.now.pd[p]).next = some
      x) ∧
    (∃ (s : State) (p : Fin 2) (mv : W16) (n : PdPower), (s.hub.hold = .run ∨ s.hub.hold = .rstn) ∧ s.now.pdState p = 4 ∧ (s.now.pd[p]).next =
      some n ∧ s.now.isSource p = true ∧ s.now.armed (.vbusSettle p) = true ∧ withinFive mv.toNat n.mv = true) ∧
    (∃ (s : State) (p : Fin 2) (n : PdPower), (s.hub.hold = .run ∨ s.hub.hold = .rstn) ∧ s.now.pdState p = 4 ∧ (s.now.pd[p]).next = some n ∧
      s.now.isSink p = true) ∧
    (∃ (s : State) (p : Fin 2), (s.hub.hold = .run ∨ s.hub.hold = .rstn) ∧ (s.now.due (.pdRdy p)) = true) ∧
    (∃ (s : State) (p : Fin 2), (s.hub.hold = .run ∨ s.hub.hold = .rstn) ∧ (s.now.due (.vbusSettle p) ∧ (s.now.pd[p]).next.isSome)) ∧
    (∃ (s : State) (o : Origin) (p : Fin 2), s.hub.hold = .run ∧ s.now.clear o (Obj.PD_CMD p.val) 4) ∧
    (∃ (s : State) (p : Fin 2), (s.hub.hold = .run ∨ s.hub.hold = .rstn) ∧ (s.now.due (.pdStable p) ∧ s.now.pdState p = 3)) :=
  ⟨⟨(wWith fun h => { (h.put (Obj.PD_STATE 0) 1).put (Obj.PD_POWER_CAP 0) 0 with pd := h.pd.set 0 { h.pd[0] with on := true } }), 0, true,
      by decide⟩,
    ⟨(wWith fun h => { h.put (Obj.PD_STATE 0) 2 with pd := h.pd.set 0 { h.pd[0] with on := true } }), 0, by decide⟩,
    ⟨(wWith fun h => ({ (h.put (Obj.PD_STATE 0) 1).put (Obj.PD_POWER_CAP 0) 2 with pd := h.pd.set 0 { h.pd[0] with on := true } } : Hub).arm (.drp
      0) 0), 0, by decide⟩,
    ⟨(wWith fun h => (h.put (Obj.PD_STATE 0) 2).put (Obj.PD_POWER_ROLE 0) 2), 0, true, by decide⟩,
    ⟨(wWith fun h => (h.put (Obj.PD_STATE 0) 2).put (Obj.PD_POWER_ROLE 0) 1), 0, false, by decide⟩,
    ⟨(wWith fun h =>
      { (h.put (Obj.PD_STATE 0) 2).put (Obj.PD_POWER_ROLE 0) 2 with pd := h.pd.set 0 { h.pd[0] with offered := [⟨1, 5000, 3000⟩] } }), 0, 1, 0,
      ⟨1, 5000, 3000⟩, by decide⟩,
    ⟨(wWith fun h => { (h.put (Obj.PD_STATE 0) 2).put (Obj.PD_POWER_ROLE 0) 2 with pd := h.pd.set 0 { h.pd[0] with ask := some .drSwap } }), 0,
      .drSwap, by decide⟩,
    ⟨(wWith fun h => { (h.put (Obj.PD_STATE 0) 2).put (Obj.PD_POWER_ROLE 0) 2 with pd := h.pd.set 0 { h.pd[0] with ask := some .request } }), 0,
      by decide⟩,
    ⟨(wWith fun h =>
      { ((h.put (Obj.PD_STATE 0) 2).put (Obj.PD_POWER_ROLE 0) 2).put (Obj.PD_WAIT_MAX 0) 0 with pd := h.pd.set 0 { h.pd[0] with ask := some .request } }),
      0, by decide⟩,
    ⟨(wWith fun h => ((h.put (Obj.PD_STATE 0) 2).put (Obj.PD_POWER_ROLE 0) 1).arm (.pdWait 0) 0), 0, by decide⟩,
    ⟨(wWith fun h => ({ (h.put (Obj.PD_STATE 0) 4).put (Obj.PD_POWER_ROLE 0) 2 with pd := h.pd.set 0 { h.pd[0] with next := some {} } } : Hub).arm
      (.pdCode 0) 0), 0, {}, by decide⟩,
    ⟨(wWith fun h => ({ (h.put (Obj.PD_STATE 0) 4).put (Obj.PD_POWER_ROLE 0) 2 with pd := h.pd.set 0 { h.pd[0] with next := some {} } } : Hub).arm
      (.vbusSettle 0) 0), 0, 0, {}, by decide⟩,
    ⟨(wWith fun h => { (h.put (Obj.PD_STATE 0) 4).put (Obj.PD_POWER_ROLE 0) 1 with pd := h.pd.set 0 { h.pd[0] with next := some {} } }), 0, {},
      by decide⟩,
    ⟨(wWith fun h => h.arm (.pdRdy 0) 0), 0, by decide⟩,
    ⟨(wWith fun h => ({ (h.put (Obj.PD_STATE 0) 4).put (Obj.PD_POWER_ROLE 0) 2 with pd := h.pd.set 0 { h.pd[0] with next := some {} } } : Hub).arm
      (.vbusSettle 0) 0), 0, by decide⟩,
    ⟨wState, .sm, 0, by unfold Hub.clear; decide⟩,
    ⟨(wWith fun h => (h.put (Obj.PD_STATE 0) 3).arm (.pdStable 0) 0), 0, by decide⟩⟩

/-- Hypotheses of `PdModeCommandsComplete` that hold together. -/
theorem test_witness_PdModeCommandsComplete :
    (∃ s : State, (s.hub.hold = .run ∨ s.hub.hold = .rstn)) ∧
    (∃ (s : State) (p : Fin 2), (s.hub.hold = .run ∨ s.hub.hold = .rstn) ∧ s.now.isSource p = true ∧ s.now.pdState p = 3) ∧
    (∃ (s : State) (p : Fin 2), (s.hub.hold = .run ∨ s.hub.hold = .rstn) ∧ (s.now.isSink p ∧ s.now.flag (Obj.PD_EPR_ACTIVE p.val) ∧ s.now.due
      (.keepAlive p))) ∧
    (∃ (s : State) (p : Fin 2), (s.hub.hold = .run ∨ s.hub.hold = .rstn) ∧ (s.now.isSource p ∧ s.now.flag (Obj.PD_EPR_ACTIVE p.val))) ∧
    (∃ (s : State) (p : Fin 2) (answer : Fin 3), (s.hub.hold = .run ∨ s.hub.hold = .rstn) ∧ (s.now.pd[p]).vdm ≠ 0 ∧ s.now.get (Obj.PD_DATA_ROLE
      p.val) = 2 ∧ answer = 0) ∧
    (∃ (s : State) (o : Origin) (p : Fin 2) (v : W32), s.hub.hold = .run ∧ s.now.clear o (Obj.PD_CABLE_MAX_MA p.val) v.toNat) :=
  ⟨⟨wState, by decide⟩,
    ⟨(wWith fun h => (((h.put (Obj.PD_STATE 0) 3).put (Obj.PD_POWER_ROLE 0) 2).put (Obj.PD_CABLE_MAX_MA 0) 5000).put (Obj.PD_EPR_ENABLE 0) 1), 0,
      by decide⟩,
    ⟨(wWith fun h => (((h.put (Obj.PD_STATE 0) 3).put (Obj.PD_POWER_ROLE 0) 1).put (Obj.PD_EPR_ACTIVE 0) 1).arm (.keepAlive 0) 0), 0, by decide⟩,
    ⟨(wWith fun h => ((h.put (Obj.PD_STATE 0) 3).put (Obj.PD_POWER_ROLE 0) 2).put (Obj.PD_EPR_ACTIVE 0) 1), 0, by decide⟩,
    ⟨(wWith fun h => { (h.put (Obj.PD_STATE 0) 3).put (Obj.PD_DATA_ROLE 0) 2 with pd := h.pd.set 0 { h.pd[0] with vdm := 1 } }), 0, 0, by decide⟩,
    ⟨wState, .sm, 0, 3000, by unfold Hub.clear; decide⟩⟩

/-- Hypotheses of `PdSwapAndResetCommandsComplete` that hold together. -/
theorem test_witness_PdSwapAndResetCommandsComplete :
    (∃ (s : State) (o : Origin) (p : Fin 2), s.hub.hold = .run ∧ s.now.clear o (Obj.PD_CMD p.val) 1) ∧
    (∃ (s : State) (o : Origin) (p : Fin 2), s.hub.hold = .run ∧ s.now.clear o (Obj.PD_CMD p.val) 2) ∧
    (∃ (s : State) (o : Origin) (p : Fin 2), s.hub.hold = .run ∧ s.now.clear o (Obj.PD_CMD p.val) 3) ∧
    (∃ (s : State) (p : Fin 2), (s.hub.hold = .run ∨ s.hub.hold = .rstn) ∧ s.now.pdState p = 3 ∧ (s.now.pd[p]).swap ≠ .frsOldSource ∧ s.now.flag
      (Obj.PD_PR_SWAP_ACCEPT p.val) = true ∧ s.now.eff (Obj.PD_POWER_CAP p.val) = 2 ∧ s.now.hasCode p = true) ∧
    (∃ (s : State) (p : Fin 2), (s.hub.hold = .run ∨ s.hub.hold = .rstn) ∧ s.now.pdState p = 3 ∧ (s.now.get (Obj.PD_MODE p.val) = 0 ∨ s.now.get
      (Obj.PD_MODE p.val) = 3)) ∧
    (∃ (s : State) (p : Fin 2), (s.hub.hold = .run ∨ s.hub.hold = .rstn) ∧ (s.now.pdState p = 3 ∧ s.now.isSink p ∧ s.now.eff (Obj.PD_FRS_ENABLE
      p.val) = 1 ∧ s.now.eff (Obj.PD_POWER_CAP p.val) = 2 ∧ s.now.hasCode p)) ∧
    (∃ (s : State) (p : Fin 2), (s.hub.hold = .run ∨ s.hub.hold = .rstn) ∧ 2 ≤ s.now.pdState p ∧ s.now.pdState p ≤ 5) ∧
    (∃ (s : State) (p : Fin 2), (s.hub.hold = .run ∨ s.hub.hold = .rstn) ∧ (s.now.due (.reclose p) ∧ s.now.pdState p = 6 ∧ s.now.isSource p)) ∧
    (∃ (s : State) (voutMv : W16), (s.hub.hold = .run ∨ s.hub.hold = .rstn) ∧ s.now.get Obj.FEED_IN_USE = 1 ∧ s.now.feedValid 0 = false ∧
      voutMv.toNat < s.now.get (feedKey 0 Obj.FA_UV) ∧ s.now.feeds.loss = false) ∧
    (∃ (s : State) (p : Fin 2) (a : _) (rest : _), (s.hub.hold = .run ∨ s.hub.hold = .rstn) ∧ (s.now.pd[p]).cmds = a :: rest ∧ s.now.pdRuns p =
      false) ∧
    (∃ (s : State) (p : Fin 2) (m : PdMsg), (s.hub.hold = .run ∨ s.hub.hold = .rstn) ∧ (s.now.pd[p]).last = some m ∧ (s.now.pd[p]).retries < 2) ∧
    (∃ (s : State) (p : Fin 2), (s.hub.hold = .run ∨ s.hub.hold = .rstn) ∧ (s.now.pd[p]).frsArmed = true ∧ s.now.pdState p = 3) ∧
    (∃ (s : State) (p : Fin 2), (s.hub.hold = .run ∨ s.hub.hold = .rstn) ∧ (s.now.pdState p = 6 ∧ s.now.isSink p)) :=
  ⟨⟨wState, .sm, 0, by unfold Hub.clear; decide⟩,
    ⟨wState, .sm, 0, by unfold Hub.clear; decide⟩,
    ⟨wState, .sm, 0, by unfold Hub.clear; decide⟩,
    ⟨(wWith fun h => (((h.put (Obj.PD_STATE 0) 3).put (Obj.PD_PR_SWAP_ACCEPT 0) 1).put (effOffset + Obj.PD_POWER_CAP 0) 2).put (effOffset +
      Obj.PD_VSEL_GPIO 0) 0), 0, by decide⟩,
    ⟨(wWith fun h => (h.put (Obj.PD_STATE 0) 3).put (Obj.PD_MODE 0) 3), 0, by decide⟩,
    ⟨(wWith fun h => ((((h.put (Obj.PD_STATE 0) 3).put (Obj.PD_POWER_ROLE 0) 1).put (effOffset + Obj.PD_FRS_ENABLE 0) 1).put (effOffset +
      Obj.PD_POWER_CAP 0) 2).put (effOffset + Obj.PD_VSEL_GPIO 0) 0), 0, by decide⟩,
    ⟨(wWith fun h => h.put (Obj.PD_STATE 0) 3), 0, by decide⟩,
    ⟨(wWith fun h => ((h.put (Obj.PD_STATE 0) 6).put (Obj.PD_POWER_ROLE 0) 2).arm (.reclose 0) 0), 0, by decide⟩,
    ⟨(wWith fun h => h.put Obj.FEED_IN_USE 1), 0, by decide⟩,
    ⟨(wWith fun h => { h.put (Obj.PD_STATE 0) 3 with pd := h.pd.set 0 { h.pd[0] with cmds := [.drSwap] } }), 0, .drSwap, [], by decide⟩,
    ⟨(wWith fun h => { h.put (Obj.PD_STATE 0) 3 with pd := h.pd.set 0 { h.pd[0] with last := some .softReset } }), 0, .softReset, by decide⟩,
    ⟨(wWith fun h => { h.put (Obj.PD_STATE 0) 3 with pd := h.pd.set 0 { h.pd[0] with frsArmed := true } }), 0, by decide⟩,
    ⟨(wWith fun h => (h.put (Obj.PD_STATE 0) 6).put (Obj.PD_POWER_ROLE 0) 1), 0, by decide⟩⟩

/-- Hypotheses of `SlotCommandsComplete` that hold together. -/
theorem test_witness_SlotCommandsComplete :
    (∃ (s : State) (o : Origin) (n : Fin 8) (v : W32), s.hub.hold = .run ∧ s.now.clear o (Obj.SLOT_ENABLE n.val) v.toNat) ∧
    (∃ (s : State) (n : Fin 8) (seated : Bool), (s.hub.hold = .run ∨ s.hub.hold = .rstn) ∧ (s.now.slots[n]).seated ≠ seated ∧ s.now.get
      (Obj.SLOT_STATE n.val) = 5 ∧ seated = false) ∧
    (∃ (s : State) (n : Fin 8), (s.hub.hold = .run ∨ s.hub.hold = .rstn) ∧ (s.now.get (Obj.SLOT_STATE n.val) = 2 ∧ s.now.due (.seat n) ∧
      (s.now.slots[n]).seated)) ∧
    (∃ (s : State) (n : Fin 8) (busMv : W16), (s.hub.hold = .run ∨ s.hub.hold = .rstn) ∧ s.now.get (Obj.SLOT_STATE n.val) = 3 ∧ (busWindow
      (s.now.slotNext (Obj.SLOT_BUS n.val))).1 ≤ busMv.toNat ∧ busMv.toNat ≤ (busWindow (s.now.slotNext (Obj.SLOT_BUS n.val))).2 ∧ s.now.coupledOk
      (s.now.get (Obj.SLOT_PD_PORT n.val)) = true) ∧
    (∃ (s : State) (n : Fin 8), (s.hub.hold = .run ∨ s.hub.hold = .rstn) ∧ s.now.get (Obj.SLOT_STATE n.val) = 4) ∧
    (∃ (s : State) (n : Fin 8), (s.hub.hold = .run ∨ s.hub.hold = .rstn) ∧ (s.now.get (Obj.SLOT_STATE n.val) = 4 ∧ s.now.due (.ramp n))) ∧
    (∃ (s : State) (n : Fin 8) (ma : W32) (busMv : W16) (voutMv : W16), (s.hub.hold = .run ∨ s.hub.hold = .rstn) ∧ (s.now.slotConducts n ∧
      s.now.tripsFast n ma.toNat busMv.toNat voutMv.toNat)) ∧
    (∃ (s : State) (n : Fin 8) (ma : W32) (us : W32), (s.hub.hold = .run ∨ s.hub.hold = .rstn) ∧ (s.now.get (Obj.SLOT_STATE n.val) = 5 ∧ s.now.get
      (Obj.SLOT_ILIM n.val) < ma.toNat ∧ s.now.get (Obj.SLOT_TRIP_TIME n.val) ≤ us.toNat)) ∧
    (∃ (s : State) (n : Fin 8) (mv : W32), (s.hub.hold = .run ∨ s.hub.hold = .rstn) ∧ (s.now.slotConducts n ∧ (busWindow (s.now.get (Obj.SLOT_BUS
      n.val))).2 < mv.toNat)) ∧
    (∃ (s : State) (n : Fin 8) (mv : W32), (s.hub.hold = .run ∨ s.hub.hold = .rstn) ∧ (s.now.slotConducts n ∧ mv.toNat < (busWindow (s.now.get
      (Obj.SLOT_BUS n.val))).1)) ∧
    (∃ (s : State) (n : Fin 8), (s.hub.hold = .run ∨ s.hub.hold = .rstn) ∧ s.now.due (.slotRetry n) = true ∧ s.now.get (Obj.SLOT_STATE n.val) = 6)
      ∧
    (∃ (s : State) (n : Fin 8), (s.hub.hold = .run ∨ s.hub.hold = .rstn) ∧ (s.now.get (Obj.SLOT_STATE n.val) = 5 ∧ s.now.due (.goodTime n))) ∧
    (∃ (s : State) (o : Origin) (n : Fin 8) (v : W32), s.hub.hold = .run ∧ s.now.clear o (Obj.SLOT_CLEAR n.val) v.toNat) :=
  ⟨⟨wState, .sm, 0, 0, by unfold Hub.clear; decide⟩,
    ⟨(wWith fun h => { h.put (Obj.SLOT_STATE 0) 5 with slots := h.slots.set 0 { seated := true } }), 0, false, by decide⟩,
    ⟨(wWith fun h => ({ h.put (Obj.SLOT_STATE 0) 2 with slots := h.slots.set 0 { seated := true } } : Hub).arm (.seat 0) 0), 0, by decide⟩,
    ⟨(wWith fun h => h.put (Obj.SLOT_STATE 0) 3), 0, 48000, by decide⟩,
    ⟨(wWith fun h => h.put (Obj.SLOT_STATE 0) 4), 0, by decide⟩,
    ⟨(wWith fun h => (h.put (Obj.SLOT_STATE 0) 4).arm (.ramp 0) 0), 0, by decide⟩,
    ⟨(wWith fun h => h.put (Obj.SLOT_STATE 0) 5), 0, 0x7FFFFFFF, 0, 0, by decide⟩,
    ⟨(wWith fun h => h.put (Obj.SLOT_STATE 0) 5), 0, 0x7FFFFFFF, 100000, by decide⟩,
    ⟨(wWith fun h => h.put (Obj.SLOT_STATE 0) 5), 0, 0x7FFFFFFF, by decide⟩,
    ⟨(wWith fun h => h.put (Obj.SLOT_STATE 0) 5), 0, 0, by decide⟩,
    ⟨(wWith fun h => (h.put (Obj.SLOT_STATE 0) 6).arm (.slotRetry 0) 0), 0, by decide⟩,
    ⟨(wWith fun h => (h.put (Obj.SLOT_STATE 0) 5).arm (.goodTime 0) 0), 0, by decide⟩,
    ⟨wState, .sm, 0, 1, by unfold Hub.clear; decide⟩⟩

/-- Hypotheses of `FeedCommandsComplete` that hold together. -/
theorem test_witness_FeedCommandsComplete :
    (∃ (s : State) (f : Fin 2) (mv : W16), (s.hub.hold = .run ∨ s.hub.hold = .rstn) ∧ s.now.feedWithin f mv.toNat = false) ∧
    (∃ (s : State) (f : Fin 2) (mv : W16), (s.hub.hold = .run ∨ s.hub.hold = .rstn) ∧ s.now.feedWithin f mv.toNat = true) ∧
    (∃ (s : State), (s.hub.hold = .run ∨ s.hub.hold = .rstn) ∧ s.now.due .feedReturn = true ∧ s.now.get Obj.FEED_MODE = 0 ∧ s.now.feedStuck =
      false ∧ s.now.feeds.switch = none ∧ s.now.feedValid s.now.feedFirst = true ∧ s.now.get Obj.FEED_IN_USE ≠ 0 ∧ s.now.get Obj.FEED_IN_USE ≠
      s.now.feedFirst.val + 1) ∧
    (∃ (s : State) (t : Nat), (s.hub.hold = .run ∨ s.hub.hold = .rstn) ∧ s.now.feeds.switch = some (0, t)) ∧
    (∃ (s : State) (o : Origin) (v : W32), s.hub.hold = .run ∧ s.now.clear o Obj.FEED_MODE v.toNat) ∧
    (∃ (s : State) (o : Origin) (v : W32), s.hub.hold = .run ∧ s.now.clear o Obj.FEED_CLEAR v.toNat) :=
  ⟨⟨wState, 0, 0, by decide⟩,
    ⟨(wWith fun h => h.arm (.feedHold 0) 0), 0, 48000, by decide⟩,
    ⟨(wWith fun h => ({ h.put Obj.FEED_IN_USE 2 with feeds := { h.feeds with ok := h.feeds.ok.set 0 true } } : Hub).arm .feedReturn 0),
      by decide⟩,
    ⟨(wWith fun h => { h with feeds := { h.feeds with switch := some (0, 7) } }), 7, by decide⟩,
    ⟨wState, .sm, 0, by unfold Hub.clear; decide⟩,
    ⟨wState, .sm, 1, by unfold Hub.clear; decide⟩⟩

/-- Hypotheses of `CaddyCommandsComplete` that hold together. -/
theorem test_witness_CaddyCommandsComplete :
    (∃ (s : State) (o : Origin) (material : List Byte), s.hub.hold = .run ∧ s.now.frozen o = false ∧ (s.now.origin o).held = none ∧
      s.now.caddyRights o = true ∧ material.length ≤ 40) ∧
    (∃ (s : State) (o : Origin) (material : List Byte), s.hub.hold = .run ∧ s.now.frozen o = false ∧ (s.now.origin o).held = none ∧
      s.now.caddyRights o = true ∧ material.length ≤ 40) ∧
    (∃ (s : State) (o : Origin) (labelContext : List Byte), s.hub.hold = .run ∧ s.now.frozen o = false ∧ (s.now.origin o).held = none ∧
      s.now.caddyRights o = true ∧ labelContext.length ≤ 68) ∧
    (∃ (s : State) (o : Origin) (k : KeySlot), s.hub.hold = .run ∧ s.now.clear o (Obj.KEY_CONTROL k.val) 1) ∧
    (∃ (s : State) (o : Origin) (k : KeySlot), s.hub.hold = .run ∧ s.now.clear o (Obj.KEY_CONTROL k.val) 2) ∧
    (∃ (s : State) (o : Origin) (k : KeySlot), s.hub.hold = .run ∧ s.now.clear o (Obj.KEY_CONTROL k.val) 3) ∧
    (∃ (s : State) (o : Origin) (k : KeySlot) (expected : W64), s.hub.hold = .run ∧ s.now.clear o (Obj.KEY_COMMIT k.val) expected.toNat) ∧
    (∃ (s : State) (k : KeySlot), s.hub.hold = .run ∧ s.now.due (.keyStage k) = true) ∧
    (∃ (s : State) (k : KeySlot), s.hub.hold = .run ∧ (s.now.caddy.slots[k]).writing = true ∧ (s.now.caddy.slots[k]).voiding = false) ∧
    (∃ (s : State), s.hub.hold = .run ∧ s.now.due .keyCheck = true) ∧
    (∃ (s : State) (k : KeySlot), s.hub.hold = .run ∧ s.now.caddyPhase ≠ 1 ∧ ((s.now.caddy.slots[k]).maskedAt.all fun t => Nat.ble (t + ms 1)
      s.now.now) = true) ∧
    (∃ (s : State), s.hub.hold = .run ∧ (s.now.armed .reseed = false ∨ s.now.due .reseed = true)) ∧
    (∃ (s : State) (k : KeySlot), s.hub.hold = .run ∧ (s.now.caddy.slots[k]).voiding = true) :=
  ⟨⟨wState, .sm, [], by decide⟩,
    ⟨wState, .sm, [], by decide⟩,
    ⟨wState, .sm, [], by decide⟩,
    ⟨wState, .sm, 1, by unfold Hub.clear; decide⟩,
    ⟨wState, .sm, 1, by unfold Hub.clear; decide⟩,
    ⟨wState, .sm, 1, by unfold Hub.clear; decide⟩,
    ⟨wState, .sm, 0, 0, by unfold Hub.clear; decide⟩,
    ⟨(wWith fun h => h.arm (.keyStage 0) 0), 0, by decide⟩,
    ⟨(wWith fun h => { h with caddy := { h.caddy with slots := h.caddy.slots.set 0 { writing := true } } }), 0, by decide⟩,
    ⟨(wWith fun h => h.arm .keyCheck 0), by decide⟩,
    ⟨wState, 0, by decide⟩,
    ⟨wState, by decide⟩,
    ⟨(wWith fun h => { h with caddy := { h.caddy with slots := h.caddy.slots.set 0 { voiding := true } } }), 0, by decide⟩⟩

end Sys2Proof.Machine
end

/-! PROOFS. The object dictionary (chapter 03): who may write the safety objects (R66), and a store or restore that meets one under way
(R64). -/

namespace Sys2Proof.Machine

/-! ### Commands of the hub proper -/

/-- Out of reset a command of the hub proper is its operation on the hub as the command finds it. -/
theorem run_after (s : State) (f : Hub → Hub) (hr : s.hub.hold = .run) : s.run f = .next (s.after (f s.now)) := run_eq s f hr

@[simp] theorem after_out (s : State) (h : Hub) : (s.after h).hub.out = h.out := rfl

/-! ### Writes of safety objects (R66) -/

/-- The checks of a write answer NOT_IN_SESSION for one reason: the object takes writes and has attribute S, and the origin, not frozen, is
neither the open safety session nor SM. -/
theorem checkWrite_eq_notInSession_iff (h : Hub) (o : Origin) (k v : Nat) :
    h.checkWrite o k v = rcNotInSession ↔ h.frozen o = false ∧
      ∃ r, rowOf k = some r ∧ r.acc ≠ .ro ∧ r.acc ≠ .rc ∧ r.safety = true ∧ h.safetyOrigin o = false := by
  unfold Hub.checkWrite
  cases hf : h.frozen o with
  | true => simp [rcFrozen, rcNotInSession]
  | false =>
    cases hk : rowOf k with
    | none =>
      simp only [Bool.false_eq_true, if_false]
      split <;> simp [rcReadOnly, rcNoObject, rcNotInSession]
    | some r =>
      simp only [Bool.false_eq_true, if_false, Option.some.injEq, exists_eq_left', true_and]
      by_cases hacc : r.acc = .ro ∨ r.acc = .rc
      · rcases hacc with hro | hrc
        · simp [hro, rcReadOnly, rcNotInSession]
        · simp [hrc, rcReadOnly, rcNotInSession]
      · obtain ⟨hro, hrc⟩ := not_or.1 hacc
        by_cases hs : r.safety = true ∧ h.safetyOrigin o = false
        · simp [hro, hrc, hs]
        · have hpass : (r.safety && !h.safetyOrigin o) = false := by simpa using hs
          simp only [hro, hrc, hs, hpass, and_false, iff_false, beq_iff_eq, Bool.or_eq_true, or_self, Bool.false_eq_true, if_false]
          repeat' split
          all_goals decide

/-- A HOP session may write safety objects while it is the slot of the open safety session. -/
theorem safetyOrigin_hop_iff (h : Hub) (k : KeySlot) :
    h.safetyOrigin (.hop k) = true ↔ h.flag Obj.SS_STATE = true ∧ h.get Obj.SS_SLOT = k.val := by
  simp [Hub.safetyOrigin]

/-- The results a read of a whole object can have (R57, R60, R74, R82). -/
theorem readRaw_result_mem (h : Hub) (o : Origin) (k : Nat) :
    (h.readRaw o k).1 ∈ [rcFrozen, rcOk, rcNoObject, rcBusy, rcWriteOnly, rcTypeMismatch, rcDomainOff] := by
  unfold Hub.readRaw
  cases h.frozen o with
  | true => simp
  | false =>
    cases rowOf k with
    | none => simp only [Bool.false_eq_true, if_false]; split <;> simp
    | some r =>
      simp only [Bool.false_eq_true, if_false]
      repeat' split
      all_goals simp

/-- No read asks for a safety session: none of its results is NOT_IN_SESSION. -/
theorem readRaw_ne_notInSession (h : Hub) (o : Origin) (k : Nat) : (h.readRaw o k).1 ≠ rcNotInSession := by
  intro hc
  have hm := readRaw_result_mem h o k
  rw [hc] at hm
  exact absurd hm (by decide)

theorem readObj_result (h : Hub) (o : Origin) (k : Nat) : (h.readObj o k).1 = (h.readRaw o k).1 := rfl

/-- Settles O10: the checks answer NOT_IN_SESSION to exactly the writes R66 names, a refused write reports their result and changes nothing,
and no branch of a read gives it. -/
theorem safetyObjectsTakeWritesFromTheSessionOnly : Obligations.SafetyObjectsTakeWritesFromTheSessionOnly := by
  refine ⟨?_, ?_, fun _ => rfl, safetyOrigin_hop_iff, ?_⟩
  · intro s o k v r hs hr hf hh hk hrow hro hrc hsafe hso
    have hc : s.now.checkWrite o k.toNat v.toNat = rcNotInSession :=
      (checkWrite_eq_notInSession_iff _ _ _ _).2 ⟨hf, r, hrow, hro, hrc, hsafe, hso⟩
    have hg := guarded_refused s.now o k.toNat v.toNat (fun h => h.writeAct o k.toNat v.toNat) (by rw [hc]; decide) hh hk
    refine ⟨s.after (s.now.ret o rcNotInSession), ?_, rfl, after_get_same s hs _ rfl⟩
    rw [← hc, ← hg]
    exact run_after s _ hr
  · intro h o k v ho hc
    obtain ⟨-, r, -, -, -, -, hso⟩ := (checkWrite_eq_notInSession_iff h o k v).1 hc
    rw [ho] at hso
    cases hso
  · intro s o k hr
    refine ⟨(s.now.readObj o k.toNat).2.2, (s.now.readObj o k.toNat).1, (s.now.readObj o k.toNat).2.1, run_after s _ hr, ?_⟩
    rw [readObj_result]
    exact readRaw_ne_notInSession _ _ _

/-! ### A store or restore while one runs (R64) -/

theorem storeStart_busy (h : Hub) (hop : Option KeySlot) (hb : h.storeRun ≠ .idle) : h.storeStart hop = (rcBusy, h) := by
  simp [Hub.storeStart, hb]

theorem restoreStart_busy (h : Hub) (hb : h.storeRun ≠ .idle) : h.restoreStart = (rcBusy, h) := by
  simp [Hub.restoreStart, hb]

/-- A guarded write whose object answers BUSY as long as a store or restore runs: the prefetched words that the accepted write discards
leave the run as it was. -/
theorem guarded_busy (h : Hub) (o : Origin) (k v : Nat) (act : Hub → Nat × Hub) (hb : h.storeRun ≠ .idle) (hc : h.clear o k v)
    (hact : ∀ g : Hub, g.storeRun ≠ .idle → act g = (rcBusy, g)) : h.guarded o k v act = (h.written k).ret o rcBusy := by
  have hrun : (h.written k).storeRun ≠ .idle := by rw [(keeps_written h k).run]; exact hb
  rw [guarded_clear h o k v act hc, hact _ hrun]

/-- Settles O14: either command's write passes the guard and finds the store or restore still under way, and so does the operation of a
HOP frame. -/
theorem storeWhileOneRunsIsBusy : Obligations.StoreWhileOneRunsIsBusy := by
  intro s hr hb
  refine ⟨fun o v hc => ?_, fun o v hc => ?_, fun k hf => ?_⟩
  · rw [← guarded_busy s.now o _ _ _ hb hc fun g hg => storeStart_busy g none hg]
    exact run_after s _ hr
  · rw [← guarded_busy s.now o _ _ _ hb hc restoreStart_busy]
    exact run_after s _ hr
  · have ho : s.now.frozen (hopOrigin (some k)) = false := hf
    simp [Hub.hopStoreOp, ho, storeStart_busy s.now (some k) hb]

end Sys2Proof.Machine

/-! PROOFS. What a lane carries (chapter 05): the line symbols of a PAM4 rate (R135). -/

namespace Sys2Proof.Machine

/-! ### Line symbols -/

/-- At a PAM4 rate the line carries the Gray coded levels of the bits in pairs. -/
theorem toLine_of_pam4 {rate : Nat} (hp : pam4 rate = true) (bits : List Bool) : toLine rate bits = grayLevels bits := by
  rw [toLine, if_pos hp]

/-- At a PAM4 rate the first two bits of the stream are the first symbol, and the rest of the stream gives the rest. -/
theorem toLine_cons_cons_of_pam4 {rate : Nat} (hp : pam4 rate = true) (a b : Bool) (t : List Bool) :
    toLine rate (a :: b :: t) = grayLevel a b :: toLine rate t := by
  rw [toLine_of_pam4 hp, toLine_of_pam4 hp, grayLevels]

/-- Settles O29: the stream is coded pair by pair, and the four pairs have the levels 0, 1, 2 and 3. -/
theorem pam4SymbolsAreGrayCoded : Obligations.Pam4SymbolsAreGrayCoded := by
  intro rate t hp
  have pair := fun a b => toLine_cons_cons_of_pam4 hp a b t
  exact ⟨pair false false, pair false true, pair true true, pair true false⟩

end Sys2Proof.Machine

/-! PROOFS. Interrupts (chapter 16): the claim of a target's best source, and its completion (R490). -/

namespace Sys2Proof.Machine

/-! ### Bits of a word -/

theorem bitOf_eq_testBit (v n : Nat) : bitOf v n = v.testBit n := by
  rw [bitOf, Nat.testBit_eq_decide_div_mod_eq]; rfl

@[simp] theorem bitOf_setBit (v n m : Nat) : bitOf (setBit v n) m = (decide (m = n) || bitOf v m) := by
  simp only [bitOf_eq_testBit, setBit, Nat.testBit_or, Nat.testBit_two_pow, eq_comm (a := n)]
  exact Bool.or_comm _ _

/-- The value splits at its bit `n`, which is 1: an odd multiple of `2 ^ n` and what lies below, and clearing the bit makes the odd
factor even. -/
theorem testBit_sub_two_pow {v n : Nat} (h : v.testBit n = true) (m : Nat) : (v - 2 ^ n).testBit m = (decide (m ≠ n) && v.testBit m) := by
  obtain ⟨q, hq⟩ : ∃ q, v / 2 ^ n = 2 * q + 1 := by
    rw [Nat.testBit_eq_decide_div_mod_eq, decide_eq_true_iff] at h
    exact ⟨v / 2 ^ n / 2, by omega⟩
  have hlow : v % 2 ^ n < 2 ^ n := Nat.mod_lt _ (Nat.two_pow_pos n)
  have hv : v = 2 ^ n * (2 * q + 1) + v % 2 ^ n := by rw [← hq]; exact (Nat.div_add_mod v _).symm
  have hsub : v - 2 ^ n = 2 ^ n * (2 * q) + v % 2 ^ n := by rw [Nat.mul_add] at hv; omega
  have hbit : v.testBit m = (2 ^ n * (2 * q + 1) + v % 2 ^ n).testBit m := congrArg (·.testBit m) hv
  rw [hsub, hbit, Nat.testBit_two_pow_mul_add _ hlow, Nat.testBit_two_pow_mul_add _ hlow]
  rcases Nat.lt_trichotomy m n with hlt | rfl | hgt
  · simp [hlt, Nat.ne_of_lt hlt]
  · simp
  · obtain ⟨k, rfl⟩ : ∃ k, m = n + (k + 1) := ⟨m - n - 1, by omega⟩
    have hodd : (2 * q + 1) / 2 = q := by omega
    simp [Nat.testBit_succ, hodd]

@[simp] theorem bitOf_clrBit (v n m : Nat) : bitOf (clrBit v n) m = (decide (m ≠ n) && bitOf v m) := by
  unfold clrBit
  split
  · rename_i h
    simp only [bitOf_eq_testBit] at h ⊢
    exact testBit_sub_two_pow h m
  · rename_i h
    by_cases e : m = n
    · subst e; simp [h]
    · simp [e]

/-! ### The pending and active words (R496) -/

theorem width_icPending {w : Nat} (hw : w < 6) : ∃ r, rowOf (Obj.IC_PENDING w) = some r ∧ r.ty.width = 32 := by
  match w, hw with
  | 0, _ | 1, _ | 2, _ | 3, _ | 4, _ | 5, _ => exact ⟨_, rfl, rfl⟩

theorem width_icActive {w : Nat} (hw : w < 6) : ∃ r, rowOf (Obj.IC_ACTIVE w) = some r ∧ r.ty.width = 32 := by
  match w, hw with
  | 0, _ | 1, _ | 2, _ | 3, _ | 4, _ | 5, _ => exact ⟨_, rfl, rfl⟩

/-- An object of 32 bits keeps the 32 low bits of what is put in it. -/
theorem bitOf_get_put_same (h : Hub) {k : Nat} (hk : ∃ r, rowOf k = some r ∧ r.ty.width = 32) (v : Nat) {i : Nat} (hi : i < 32) :
    bitOf ((h.put k v).get k) i = bitOf v i := by
  obtain ⟨r, hr, hw⟩ := hk
  simp only [get_put_same, fitObj, hr, hw, bitOf_eq_testBit, Nat.testBit_mod_two_pow, hi, decide_true, Bool.true_and]

theorem div32_lt {n : Nat} (hn : n < 192) : n / 32 < 6 := by omega

/-- The number of a source tells its word and its bit in it. -/
theorem mod32_eq_iff_of_div32_eq {m n : Nat} (hd : m / 32 = n / 32) : m % 32 = n % 32 ↔ m = n := by omega

theorem icPend_put_clrBit (h : Hub) {n : Nat} (hn : n < 192) (m : Nat) :
    (h.put (Obj.IC_PENDING (n / 32)) (clrBit (h.get (Obj.IC_PENDING (n / 32))) (n % 32))).icPend m = (decide (m ≠ n) && h.icPend m) := by
  unfold Hub.icPend
  by_cases hd : m / 32 = n / 32
  · rw [hd, bitOf_get_put_same h (width_icPending (div32_lt hn)) _ (Nat.mod_lt _ (by decide)), bitOf_clrBit]
    simp [mod32_eq_iff_of_div32_eq hd]
  · have hmn : m ≠ n := by rintro rfl; exact hd rfl
    rw [get_put_other h _ (by simpa using hd)]
    simp [hmn]

/-- The active word of source `n` replaced: the other words' sources are as they were. -/
theorem icActive_put_icActive (h : Hub) {n : Nat} (hn : n < 192) (v m : Nat) :
    (h.put (Obj.IC_ACTIVE (n / 32)) v).icActive m = if m / 32 = n / 32 then bitOf v (m % 32) else h.icActive m := by
  unfold Hub.icActive
  split
  · rename_i hd
    rw [hd, bitOf_get_put_same h (width_icActive (div32_lt hn)) _ (Nat.mod_lt _ (by decide))]
  · rename_i hd
    rw [get_put_other h _ (by simpa using hd)]

theorem icActive_put_setBit (h : Hub) {n : Nat} (hn : n < 192) (m : Nat) :
    (h.put (Obj.IC_ACTIVE (n / 32)) (setBit (h.get (Obj.IC_ACTIVE (n / 32))) (n % 32))).icActive m = (decide (m = n) || h.icActive m) := by
  rw [icActive_put_icActive h hn]
  split
  · rename_i hd
    simp [mod32_eq_iff_of_div32_eq hd, Hub.icActive, hd]
  · rename_i hd
    have hmn : m ≠ n := by rintro rfl; exact hd rfl
    simp [hmn]

theorem icActive_put_clrBit_same (h : Hub) {n : Nat} (hn : n < 192) :
    (h.put (Obj.IC_ACTIVE (n / 32)) (clrBit (h.get (Obj.IC_ACTIVE (n / 32))) (n % 32))).icActive n = false := by
  simp [icActive_put_icActive h hn]

theorem icActive_put_icPending (h : Hub) {w : Nat} (hw : w < 6) (v m : Nat) : (h.put (Obj.IC_PENDING w) v).icActive m = h.icActive m := by
  unfold Hub.icActive
  rw [get_put_other h _ (by simp only [Obj.IC_PENDING, Obj.IC_ACTIVE]; omega)]

theorem icPend_put_icActive (h : Hub) (w v : Nat) {m : Nat} (hm : m < 192) : (h.put (Obj.IC_ACTIVE w) v).icPend m = h.icPend m := by
  unfold Hub.icPend
  rw [get_put_other h _ (by simp only [Obj.IC_PENDING, Obj.IC_ACTIVE]; omega)]

/-! ### Commands that only put values in objects -/

/-- `g` has the objects of `h` with values of their widths put in some of them, and the outputs of `h`. -/
structure PutsFrom (h g : Hub) : Prop where
  base : g.objs.base = h.objs.base
  out : g.out = h.out
  fits : Fits h → Fits g

theorem PutsFrom.refl (h : Hub) : PutsFrom h h := ⟨rfl, rfl, id⟩

theorem PutsFrom.trans {a b c : Hub} (hab : PutsFrom a b) (hbc : PutsFrom b c) : PutsFrom a c :=
  ⟨hbc.base.trans hab.base, hbc.out.trans hab.out, fun h => hbc.fits (hab.fits h)⟩

/-- The fields other than the objects and the outputs do not matter. -/
theorem PutsFrom.of_eq {h g : Hub} (ho : g.objs = h.objs) (hx : g.out = h.out) : PutsFrom h g :=
  ⟨by rw [ho], hx, fun hf k v hc => hf k v (by rwa [ho] at hc)⟩

theorem Keeps.putsFrom {h g : Hub} (K : Keeps h g) : PutsFrom h g := ⟨K.base, K.out, K.fits⟩

theorem putsFrom_put (h : Hub) (k v : Nat) : PutsFrom h (h.put k v) := ⟨rfl, rfl, fun hf => fits_put h hf k v⟩

theorem putsFrom_bump (h : Hub) (k : Nat) : PutsFrom h (h.bump k) := by
  unfold Hub.bump
  split
  · split
    · exact putsFrom_put h _ _
    · exact (putsFrom_put h _ _).trans (keeps_used _).putsFrom
  · exact .refl h

theorem putsFrom_foldl {α : Type} (f : Hub → α → Hub) (hf : ∀ h a, PutsFrom h (f h a)) (l : List α) (h : Hub) : PutsFrom h (l.foldl f h) := by
  induction l generalizing h with
  | nil => exact .refl h
  | cons a l ih => exact (hf h a).trans (ih _)

theorem putsFrom_icSet (h : Hub) (n : Nat) : PutsFrom h (h.icSet n) := by
  unfold Hub.icSet
  split
  · exact .refl h
  · dsimp only
    split
    · exact (putsFrom_put h _ _).trans (putsFrom_bump _ _)
    · exact putsFrom_put h _ _

theorem putsFrom_icLevels (h : Hub) : PutsFrom h h.icLevels := by
  refine (putsFrom_foldl _ (fun g n => ?_) h.levelsNow h).trans (.of_eq rfl rfl)
  split
  · exact .refl g
  · exact putsFrom_icSet g n

theorem putsFrom_sawObject (h : Hub) (o : Origin) (x : Option (Nat × W32)) : PutsFrom h (h.sawObject o x) := by
  unfold Hub.sawObject
  split
  · exact .refl h
  · exact .of_eq rfl rfl

/-- What such a command leaves in the objects reads so after it. -/
theorem PutsFrom.get_after_emit {s : State} {g : Hub} (P : PutsFrom s.now g) (hs : s.Sound) (x : Out) (k : Nat) :
    (s.after (g.emit x)).hub.get k = g.get k :=
  after_get s hs (g.emit x) P.base (P.fits (fits_now s hs)) k

/-! ### The best of a list of sources (R490) -/

/-- Source `n` goes before source `m`: its priority is higher, or the same and its number is not higher. -/
def Hub.goesBefore (h : Hub) (n m : Nat) : Prop :=
  field (h.srcCfg m) 7 5 < field (h.srcCfg n) 7 5 ∨ (field (h.srcCfg m) 7 5 = field (h.srcCfg n) 7 5 ∧ n ≤ m)

/-- One step of `Hub.firstSource`: the best source so far and the next of the list. -/
def Hub.better (h : Hub) (best : Option Nat) (n : Nat) : Option Nat :=
  match best with
  | none => some n
  | some b => if field (h.srcCfg b) 7 5 < field (h.srcCfg n) 7 5 then some n else best

theorem firstSource_eq_foldl (h : Hub) (l : List Nat) : h.firstSource l = l.foldl h.better none := rfl

/-- The best so far is the first one or a source of the list. -/
theorem foldl_better_mem (h : Hub) (l : List Nat) (best : Option Nat) {b : Nat} (hb : l.foldl h.better best = some b) :
    best = some b ∨ b ∈ l := by
  induction l generalizing best with
  | nil => exact .inl hb
  | cons a l ih =>
    rcases ih _ hb with hstep | hmem
    · unfold Hub.better at hstep
      split at hstep
      · cases hstep; exact .inr List.mem_cons_self
      · split at hstep
        · cases hstep; exact .inr List.mem_cons_self
        · exact .inl hstep
    · exact .inr (List.mem_cons_of_mem _ hmem)

/-- A source stays the best while none of a higher priority comes. -/
theorem foldl_better_of_le (h : Hub) (l : List Nat) (n : Nat) (hl : ∀ m ∈ l, field (h.srcCfg m) 7 5 ≤ field (h.srcCfg n) 7 5) :
    l.foldl h.better (some n) = some n := by
  induction l with
  | nil => rfl
  | cons a l ih =>
    have hstep : h.better (some n) a = some n := if_neg (Nat.not_lt.2 (hl a List.mem_cons_self))
    rw [List.foldl_cons, hstep]
    exact ih fun m hm => hl m (List.mem_cons_of_mem _ hm)

/-- Of a list in the order of the numbers the best source is the one that goes before all: those that stand before it have a lower
priority, and those after it no higher one. -/
theorem firstSource_eq_some (h : Hub) {l : List Nat} (hl : l.Pairwise (· < ·)) {n : Nat} (hn : n ∈ l) (hbest : ∀ m ∈ l, h.goesBefore n m) :
    h.firstSource l = some n := by
  obtain ⟨before, rest, rfl⟩ := List.append_of_mem hn
  have hlow : ∀ m ∈ before, field (h.srcCfg m) 7 5 < field (h.srcCfg n) 7 5 := fun m hm => by
    have hmn : m < n := (List.pairwise_append.1 hl).2.2 m hm n List.mem_cons_self
    exact (hbest m (by simp [hm])).resolve_right fun ⟨_, hle⟩ => Nat.not_lt.2 hle hmn
  have hrest : ∀ m ∈ rest, field (h.srcCfg m) 7 5 ≤ field (h.srcCfg n) 7 5 := fun m hm =>
    (hbest m (by simp [hm])).elim Nat.le_of_lt fun he => Nat.le_of_eq he.1
  have htake : h.better (before.foldl h.better none) n = some n := by
    cases hb : before.foldl h.better none with
    | none => rfl
    | some b =>
      have hmem : b ∈ before := (foldl_better_mem h before none hb).resolve_left (by simp)
      exact if_pos (hlow b hmem)
  rw [firstSource_eq_foldl, List.foldl_append, List.foldl_cons, htake]
  exact foldl_better_of_le h rest n hrest

/-! ### Claims -/

/-- Source `n` claimed by target `t`: no longer pending, and active there. -/
def Hub.take (h : Hub) (t n : Nat) : Hub :=
  let h := h.put (Obj.IC_PENDING (n / 32)) (clrBit (h.get (Obj.IC_PENDING (n / 32))) (n % 32))
  let h := h.put (Obj.IC_ACTIVE (n / 32)) (setBit (h.get (Obj.IC_ACTIVE (n / 32))) (n % 32))
  { h with fw := { h.fw with activeAt := (n, t) :: h.fw.activeAt.filter (·.1 != n) } }

theorem claim_of_firstSource (h : Hub) {t n : Nat}
    (hn : h.icLevels.firstSource ((List.range 192).filter (h.icLevels.claimable t)) = some n) : h.claim t = (n + 1, h.icLevels.take t n) := by
  simp only [Hub.claim, hn]; rfl

theorem claim_best (h : Hub) {t n : Nat} (hn : n < 192) (hc : h.icLevels.claimable t n = true)
    (hbest : ∀ m, m < 192 → h.icLevels.claimable t m = true → h.icLevels.goesBefore n m) : h.claim t = (n + 1, h.icLevels.take t n) := by
  refine claim_of_firstSource h (firstSource_eq_some _ (List.pairwise_lt_range.filter _) (by simp [hn, hc]) fun m hm => ?_)
  obtain ⟨hlt, hm⟩ := by simpa using hm
  exact hbest m hlt hm

theorem claim_none (h : Hub) {t : Nat} (hc : ∀ m, m < 192 → h.icLevels.claimable t m = false) :
    h.claim t = (0, h.icLevels.bump Obj.IC_SPURIOUS) := by
  have hnil : (List.range 192).filter (h.icLevels.claimable t) = [] := by simpa [List.filter_eq_nil_iff] using hc
  simp only [Hub.claim, hnil]; rfl

theorem icPend_take (h : Hub) (t : Nat) {n m : Nat} (hn : n < 192) (hm : m < 192) :
    (h.take t n).icPend m = (decide (m ≠ n) && h.icPend m) := by
  rw [← icPend_put_clrBit h hn m]
  exact icPend_put_icActive _ _ _ hm

theorem icActive_take (h : Hub) (t : Nat) {n : Nat} (hn : n < 192) (m : Nat) :
    (h.take t n).icActive m = (decide (m = n) || h.icActive m) := by
  rw [← icActive_put_icPending h (div32_lt hn) (clrBit (h.get (Obj.IC_PENDING (n / 32))) (n % 32)) m]
  exact icActive_put_setBit _ hn m

@[simp] theorem take_activeAt (h : Hub) (t n : Nat) :
    (h.take t n).fw.activeAt = (n, t) :: h.fw.activeAt.filter (·.1 != n) := rfl

@[simp] theorem take_mem (h : Hub) (t n : Nat) : (h.take t n).mem = h.mem := rfl

theorem putsFrom_take (h : Hub) (t n : Nat) : PutsFrom h (h.take t n) :=
  ((putsFrom_put h _ _).trans (putsFrom_put _ _ _)).trans (.of_eq rfl rfl)

@[simp] theorem sawObject_get (h : Hub) (o : Origin) (x : Option (Nat × W32)) (k : Nat) : (h.sawObject o x).get k = h.get k := by
  unfold Hub.sawObject; split <;> rfl

@[simp] theorem sawObject_fw (h : Hub) (o : Origin) (x : Option (Nat × W32)) : (h.sawObject o x).fw = h.fw := by
  unfold Hub.sawObject; split <;> rfl

/-- A read of `TGT_CLAIM` by an origin that is not frozen. -/
theorem exec_tgtClaim (s : State) (o : Origin) (t : Fin 14) (hr : s.hub.hold = .run) (hf : s.now.frozen o = false) :
    exec (.tgtClaim o t) s = .next (s.after (((s.now.claim t.val).2.sawObject o none).emit (.data o rcOk (s.now.claim t.val).1))) := by
  refine (run_after s _ hr).trans ?_
  simp only [hf, Bool.false_eq_true, if_false]

/-- The state after target `t` has claimed source `n`, by a read of origin `o`. -/
def State.claimed (s : State) (o : Origin) (t n : Nat) : State :=
  s.after (((s.now.icLevels.take t n).sawObject o none).emit (.data o rcOk (n + 1)))

theorem putsFrom_claim (h : Hub) (o : Origin) (t n : Nat) : PutsFrom h ((h.icLevels.take t n).sawObject o none) :=
  ((putsFrom_icLevels h).trans (putsFrom_take _ t n)).trans (putsFrom_sawObject _ o none)

theorem claimed_out (s : State) (o : Origin) (t n : Nat) : (s.claimed o t n).hub.out = [.data o rcOk (n + 1)] := by
  rw [State.claimed, after_out, Hub.emit_out, (putsFrom_claim s.now o t n).out]; rfl

theorem claimed_get {s : State} (hs : s.Sound) (o : Origin) (t n k : Nat) :
    (s.claimed o t n).hub.get k = (s.now.icLevels.take t n).get k := by
  rw [State.claimed, (putsFrom_claim s.now o t n).get_after_emit hs, sawObject_get]

theorem claimed_icPend {s : State} (hs : s.Sound) (o : Origin) (t : Nat) {n m : Nat} (hn : n < 192) (hm : m < 192) :
    (s.claimed o t n).hub.icPend m = (decide (m ≠ n) && s.now.icLevels.icPend m) := by
  rw [← icPend_take _ t hn hm, Hub.icPend, claimed_get hs, ← Hub.icPend]

theorem claimed_icActive {s : State} (hs : s.Sound) (o : Origin) (t : Nat) {n : Nat} (hn : n < 192) (m : Nat) :
    (s.claimed o t n).hub.icActive m = (decide (m = n) || s.now.icLevels.icActive m) := by
  rw [← icActive_take _ t hn m, Hub.icActive, claimed_get hs, ← Hub.icActive]

theorem claimed_activeAt (s : State) (o : Origin) (t n : Nat) : (n, t) ∈ (s.claimed o t n).hub.fw.activeAt := by
  show (n, t) ∈ ((s.now.icLevels.take t n).sawObject o none).fw.activeAt
  simp

theorem claimed_memGet {s : State} (hs : s.Sound) (o : Origin) (t n a : Nat) : (s.claimed o t n).hub.memGet a = s.hub.memGet a :=
  after_memGet_same s hs _ (by simp only [Hub.emit_mem, sawObject_mem, take_mem, icLevels_mem]; rfl) a

/-! ### Completions -/

theorem complete_ignored (h : Hub) {t v : Nat} (hv : 192 ≤ v ∨ h.fw.activeAt.contains (v, t) = false) :
    h.complete t v = h.bump Obj.IC_BAD_COMPLETE := by
  refine if_neg ?_
  rcases hv with hv | hv
  · have hb : Nat.ble (v + 1) 192 = false := Bool.eq_false_iff.2 fun he => absurd (Nat.le_of_ble_eq_true he) (by omega)
    simp only [hb, Bool.false_and, Bool.false_eq_true, not_false_eq_true]
  · simp only [hv, Bool.and_false, Bool.false_eq_true, not_false_eq_true]

/-- Source `v` no longer active, and no longer active at target `t`. -/
def Hub.release (h : Hub) (t v : Nat) : Hub :=
  let h := h.put (Obj.IC_ACTIVE (v / 32)) (clrBit (h.get (Obj.IC_ACTIVE (v / 32))) (v % 32))
  { h with fw := { h.fw with activeAt := h.fw.activeAt.filter (· != (v, t)) } }

theorem complete_active (h : Hub) {t v : Nat} (hv : v < 192) (ha : h.fw.activeAt.contains (v, t) = true) :
    h.complete t v = if (h.release t v).icPend v then (h.release t v).bump Obj.IC_REFIRES else h.release t v := by
  have hb : Nat.ble (v + 1) 192 = true := Nat.ble_eq_true_of_le hv
  exact if_pos (by simp only [hb, ha, Bool.and_self])

theorem icActive_release (h : Hub) (t : Nat) {v : Nat} (hv : v < 192) : (h.release t v).icActive v = false :=
  icActive_put_clrBit_same h hv

theorem icActive_bump_refires (h : Hub) {n : Nat} (hn : n < 192) : (h.bump Obj.IC_REFIRES).icActive n = h.icActive n := by
  unfold Hub.icActive
  rw [get_bump_other h (by simp only [Obj.IC_REFIRES, Obj.IC_ACTIVE]; omega)]

/-- A completed source is not active, and not active at the target. -/
theorem complete_inactive (h : Hub) {t v : Nat} (hv : v < 192) (ha : h.fw.activeAt.contains (v, t) = true) :
    (h.complete t v).icActive v = false ∧ (h.complete t v).fw.activeAt.contains (v, t) = false := by
  have hfw : (h.release t v).fw.activeAt.contains (v, t) = false := by simp [Hub.release]
  rw [complete_active h hv ha]
  split
  · exact ⟨(icActive_bump_refires _ hv).trans (icActive_release h t hv), by rw [Hub.bump_fw]; exact hfw⟩
  · exact ⟨icActive_release h t hv, hfw⟩

theorem putsFrom_complete (h : Hub) (t v : Nat) : PutsFrom h (h.complete t v) := by
  have hr : PutsFrom h (h.release t v) := (putsFrom_put h _ _).trans (.of_eq rfl rfl)
  unfold Hub.complete
  split
  · dsimp only
    split
    · exact hr.trans (putsFrom_bump _ _)
    · exact hr
  · exact putsFrom_bump _ _

/-- A write of `TGT_COMPLETE` with nothing in its way. -/
theorem exec_tgtComplete (s : State) (o : Origin) (t : Fin 14) (v : W32) (hr : s.hub.hold = .run)
    (hc : s.now.clear o (Obj.TGT_COMPLETE t.val) v.toNat) :
    exec (.tgtComplete o t v) s = .next (s.after (((s.now.written (Obj.TGT_COMPLETE t.val)).complete t.val v.toNat).ret o rcOk)) := by
  refine (run_after s _ hr).trans ?_
  rw [guarded_clear _ _ _ _ _ hc]

/-- The completion of an active source. -/
theorem tgtComplete_active (s : State) (o : Origin) (t : Fin 14) (v : W32) (hs : s.Sound) (hr : s.hub.hold = .run)
    (hc : s.now.clear o (Obj.TGT_COMPLETE t.val) v.toNat) (hv : v.toNat < 192)
    (ha : (s.now.written (Obj.TGT_COMPLETE t.val)).fw.activeAt.contains (v.toNat, t.val) = true) :
    ∃ u, exec (.tgtComplete o t v) s = .next u ∧ u.hub.icActive v.toNat = false ∧ u.hub.fw.activeAt.contains (v.toNat, t.val) = false := by
  have P := (keeps_written s.now (Obj.TGT_COMPLETE t.val)).putsFrom.trans (putsFrom_complete _ t.val v.toNat)
  obtain ⟨hactive, hat⟩ := complete_inactive _ hv ha
  refine ⟨_, exec_tgtComplete s o t v hr hc, ?_, hat⟩
  rw [Hub.icActive, Hub.ret, P.get_after_emit hs]
  exact hactive

/-- Settles O18: the sources that qualify are looked at in the order of their numbers, so the best of them is the one claimed; a completion
clears the active bit of a source that is active at the target and only counts any other number. -/
theorem claimTakesTheHighestSource : Obligations.ClaimTakesTheHighestSource := by
  intro s o t hs hr hf
  refine ⟨fun n hn hc hbest => ?_, fun hnone => ?_, fun v hc g hg => ?_⟩
  · have hexec : exec (.tgtClaim o t) s = .next (s.claimed o t.val n) := by
      rw [exec_tgtClaim s o t hr hf, claim_best s.now hn hc hbest, State.claimed]
    refine ⟨_, hexec, claimed_out s o t.val n, ?_, ?_, claimed_activeAt s o t.val n, fun m hm hmn => ⟨?_, ?_⟩, claimed_memGet hs o t.val n⟩
    · simp [claimed_icPend hs o t.val hn hn]
    · simp [claimed_icActive hs o t.val hn]
    · simp [claimed_icPend hs o t.val hn hm, hmn]
    · simp [claimed_icActive hs o t.val hn, hmn]
  · rw [exec_tgtClaim s o t hr hf, claim_none s.now hnone]
  · rw [hg]
    refine ⟨fun hv ha => tgtComplete_active s o t v hs hr hc hv ha, fun hbad => ?_⟩
    rw [exec_tgtComplete s o t v hr hc, complete_ignored _ hbad]

end Sys2Proof.Machine

/-! PROOFS. Slots (chapter 20): what the entry of a slot to state 6, and its latch at the third fault, leave in its objects (R581). -/

namespace Sys2Proof.Machine

/-! ### Objects of a width -/

/-- The object is listed, with a value of `w` bits. -/
def HasWidth (k w : Nat) : Prop := ∃ r, rowOf k = some r ∧ r.ty.width = w

theorem hasWidth_of_map {k w : Nat} (hk : (rowOf k).map (·.ty.width) = some w) : HasWidth k w := by
  simpa [HasWidth] using hk

theorem HasWidth.get_put {k w v : Nat} (hk : HasWidth k w) (hv : v < 2 ^ w) (h : Hub) : (h.put k v).get k = v := by
  obtain ⟨r, hr, rfl⟩ := hk
  rw [get_put_same, fitObj, hr]
  exact Nat.mod_eq_of_lt hv

theorem HasWidth.get_bump {k w v : Nat} (hk : HasWidth k w) {h : Hub} (hg : h.get k = v) (hv : v + 1 < 2 ^ w) :
    (h.bump k).get k = v + 1 := by
  obtain ⟨r, hr, rfl⟩ := hk
  rw [get_bump_same h hr (by rwa [hg]), hg]

/-- A bit set in an object of 32 bits: this one is 1, the others are as they were. -/
theorem HasWidth.bitOf_put_setBit {k : Nat} (hk : HasWidth k 32) (h : Hub) (v i : Nat) {j : Nat} (hj : j < 32) :
    bitOf ((h.put k (setBit v i)).get k) j = (decide (j = i) || bitOf v j) := by
  rw [bitOf_get_put_same h hk _ hj, bitOf_setBit]

theorem event_count_of_get (h : Hub) (c l : Nat) {v : Nat} (hg : h.get Obj.EVENT_COUNT = v) (hv : v + 1 < 2 ^ 32) :
    (h.event c l).get Obj.EVENT_COUNT = v + 1 := by
  rw [event_count h c l (by rwa [hg]), hg]

theorem hasWidth_slotState (n : Fin 8) : HasWidth (Obj.SLOT_STATE n.val) 8 := hasWidth_of_map (by revert n; decide)
theorem hasWidth_slotFaultCause (n : Fin 8) : HasWidth (Obj.SLOT_FAULT_CAUSE n.val) 8 := hasWidth_of_map (by revert n; decide)
theorem hasWidth_slotFaultCount (n : Fin 8) : HasWidth (Obj.SLOT_FAULT_COUNT n.val) 8 := hasWidth_of_map (by revert n; decide)
theorem hasWidth_slotAttn (n : Fin 8) : HasWidth (Obj.SLOT_ATTN n.val) 32 := hasWidth_of_map (by revert n; decide)
theorem hasWidth_faults (n : Fin 8) : HasWidth (Obj.FAULTS n.val) 32 := hasWidth_of_map (by revert n; decide)
theorem hasWidth_latches (n : Fin 8) : HasWidth (Obj.LATCHES n.val) 32 := hasWidth_of_map (by revert n; decide)

/-! ### Entry to state 6, and to state 7 at the third fault -/

/-- A slot enters state 6: all that R581 lists, but for the passage to state 7. -/
def Hub.enterFault (h : Hub) (n : Fin 8) (cause : Nat) : Hub :=
  let h := ((h.slotLeave n).put (Obj.SLOT_STATE n.val) 6).put (Obj.SLOT_FAULT_CAUSE n.val) cause
  let h := (h.bump (Obj.SLOT_FAULT_COUNT n.val)).arm (.slotRetry n) (ms (h.get (Obj.SLOT_RETRY n.val)))
  let h := (h.put (Obj.SLOT_ATTN n.val) (setBit (h.get (Obj.SLOT_ATTN n.val)) 0)).bump (Obj.FAULTS n.val)
  h.event 0x54 (Obj.SLOT_FAULT_CAUSE n.val)

/-- A slot passes to state 7. -/
def Hub.latchFault (h : Hub) (n : Fin 8) : Hub :=
  let h := (h.put (Obj.SLOT_STATE n.val) 7).put (Obj.SLOT_ATTN n.val) (setBit (h.get (Obj.SLOT_ATTN n.val)) 1)
  (h.bump (Obj.LATCHES n.val)).event 0x55 (Obj.SLOT_STATE n.val)

theorem slotFault_eq (h : Hub) (n : Fin 8) (cause : Nat) :
    h.slotFault n cause = if (h.enterFault n cause).get (Obj.SLOT_FAULT_COUNT n.val) = 3 then (h.enterFault n cause).latchFault n
      else h.enterFault n cause := rfl

@[simp] theorem slotLeave_get (h : Hub) (n : Fin 8) (k : Nat) : (h.slotLeave n).get k = h.get k := rfl

/-- What the entry leaves in the slot's objects; the object that counts the latches is none of those it writes. -/
theorem enterFault_get (h : Hub) (n : Fin 8) {cause : Nat} (hcause : cause < 256) (hcount : h.get (Obj.SLOT_FAULT_COUNT n.val) < 255)
    (hfaults : h.get (Obj.FAULTS n.val) + 1 < 2 ^ 32) :
    (h.enterFault n cause).get (Obj.SLOT_STATE n.val) = 6 ∧
    (h.enterFault n cause).get (Obj.SLOT_FAULT_CAUSE n.val) = cause ∧
    (h.enterFault n cause).get (Obj.SLOT_FAULT_COUNT n.val) = h.get (Obj.SLOT_FAULT_COUNT n.val) + 1 ∧
    (h.enterFault n cause).get (Obj.FAULTS n.val) = h.get (Obj.FAULTS n.val) + 1 ∧
    bitOf ((h.enterFault n cause).get (Obj.SLOT_ATTN n.val)) 0 = true ∧
    (h.enterFault n cause).get (Obj.LATCHES n.val) = h.get (Obj.LATCHES n.val) := by
  unfold Hub.enterFault
  simp (disch := lia) only [get_event_other, get_bump_other, get_put_other, arm_get, slotLeave_get]
  refine ⟨(hasWidth_slotState n).get_put (by decide) _, (hasWidth_slotFaultCause n).get_put hcause _,
    (hasWidth_slotFaultCount n).get_bump ?_ (Nat.succ_lt_succ hcount), (hasWidth_faults n).get_bump ?_ hfaults, ?_, trivial⟩
  · simp (disch := lia) only [get_put_other, slotLeave_get]
  · simp (disch := lia) only [get_bump_other, get_put_other, arm_get, slotLeave_get]
  · rw [(hasWidth_slotAttn n).bitOf_put_setBit _ _ _ (by decide), decide_eq_true rfl, Bool.true_or]

/-- The entry is one event, that of the cause. -/
theorem enterFault_event (h : Hub) (n : Fin 8) (cause : Nat) :
    (h.enterFault n cause).get Obj.EVENT_LAST = 0x54000000 + Obj.SLOT_FAULT_CAUSE n.val ∧
    (h.get Obj.EVENT_COUNT + 1 < 2 ^ 32 → (h.enterFault n cause).get Obj.EVENT_COUNT = h.get Obj.EVENT_COUNT + 1) := by
  unfold Hub.enterFault
  refine ⟨(event_last _ _ _ (by decide)).trans (by lia), fun hc => ?_⟩
  refine event_count_of_get _ _ _ ?_ hc
  simp (disch := lia) only [get_bump_other, get_put_other, arm_get, slotLeave_get]

/-- The entry starts the retry timer. -/
theorem enterFault_timers (h : Hub) (n : Fin 8) (cause : Nat) :
    (Timer.slotRetry n, h.now + ms (h.get (Obj.SLOT_RETRY n.val))) ∈ (h.enterFault n cause).timers := by
  unfold Hub.enterFault
  simp (disch := lia) only [get_put_other, slotLeave_get, Hub.event_timers, Hub.bump_timers, Hub.put_timers, Hub.arm_timers,
    Hub.bump_now, Hub.put_now]
  exact List.mem_cons_self

/-- What the latch leaves in the slot's objects; the record of the fault is as it was. -/
theorem latchFault_get (h : Hub) (n : Fin 8) :
    (h.latchFault n).get (Obj.SLOT_STATE n.val) = 7 ∧
    (h.latchFault n).get (Obj.SLOT_FAULT_CAUSE n.val) = h.get (Obj.SLOT_FAULT_CAUSE n.val) ∧
    (h.latchFault n).get (Obj.SLOT_FAULT_COUNT n.val) = h.get (Obj.SLOT_FAULT_COUNT n.val) ∧
    (h.latchFault n).get (Obj.FAULTS n.val) = h.get (Obj.FAULTS n.val) ∧
    bitOf ((h.latchFault n).get (Obj.SLOT_ATTN n.val)) 0 = bitOf (h.get (Obj.SLOT_ATTN n.val)) 0 ∧
    bitOf ((h.latchFault n).get (Obj.SLOT_ATTN n.val)) 1 = true ∧
    (h.get (Obj.LATCHES n.val) + 1 < 2 ^ 32 → (h.latchFault n).get (Obj.LATCHES n.val) = h.get (Obj.LATCHES n.val) + 1) := by
  have hattn := (hasWidth_slotAttn n).bitOf_put_setBit
  unfold Hub.latchFault
  simp (disch := lia) only [get_event_other, get_bump_other, get_put_other]
  refine ⟨(hasWidth_slotState n).get_put (by decide) _, trivial, trivial, trivial, ?_, ?_, fun hl => (hasWidth_latches n).get_bump ?_ hl⟩
  · exact hattn _ _ 1 (by decide)
  · rw [hattn _ _ 1 (by decide), decide_eq_true rfl, Bool.true_or]
  · simp (disch := lia) only [get_put_other]

/-- The latch is one event, that of the state. -/
theorem latchFault_event (h : Hub) (n : Fin 8) :
    (h.latchFault n).get Obj.EVENT_LAST = 0x55000000 + Obj.SLOT_STATE n.val ∧
    (h.get Obj.EVENT_COUNT + 1 < 2 ^ 32 → (h.latchFault n).get Obj.EVENT_COUNT = h.get Obj.EVENT_COUNT + 1) := by
  unfold Hub.latchFault
  refine ⟨(event_last _ _ _ (by decide)).trans (by lia), fun hc => event_count_of_get _ _ _ ?_ hc⟩
  simp (disch := lia) only [get_bump_other, get_put_other]

@[simp] theorem latchFault_timers (h : Hub) (n : Fin 8) : (h.latchFault n).timers = h.timers := by
  simp only [Hub.latchFault, Hub.event_timers, Hub.bump_timers, Hub.put_timers]

/-! ### The record of an entry -/

/-- From `h` to `g` slot `n` has entered state 6 with that cause, and state 7 where it was the third fault: all that R581 lists. -/
structure SlotFaultRecorded (h g : Hub) (n : Fin 8) (cause : Nat) : Prop where
  cause : g.get (Obj.SLOT_FAULT_CAUSE n.val) = cause
  count : g.get (Obj.SLOT_FAULT_COUNT n.val) = h.get (Obj.SLOT_FAULT_COUNT n.val) + 1
  retry : (Timer.slotRetry n, h.now + ms (h.get (Obj.SLOT_RETRY n.val))) ∈ g.timers
  faults : g.get (Obj.FAULTS n.val) = h.get (Obj.FAULTS n.val) + 1
  attn : bitOf (g.get (Obj.SLOT_ATTN n.val)) 0 = true
  events : h.get Obj.EVENT_COUNT + 2 < 2 ^ 32 →
    g.get Obj.EVENT_COUNT = h.get Obj.EVENT_COUNT + (if h.get (Obj.SLOT_FAULT_COUNT n.val) + 1 = 3 then 2 else 1)
  entered : h.get (Obj.SLOT_FAULT_COUNT n.val) + 1 ≠ 3 →
    g.get (Obj.SLOT_STATE n.val) = 6 ∧ g.get Obj.EVENT_LAST = 0x54000000 + Obj.SLOT_FAULT_CAUSE n.val
  latched : h.get (Obj.SLOT_FAULT_COUNT n.val) + 1 = 3 → g.get (Obj.SLOT_STATE n.val) = 7 ∧
    bitOf (g.get (Obj.SLOT_ATTN n.val)) 1 = true ∧
    (h.get (Obj.LATCHES n.val) + 1 < 2 ^ 32 → g.get (Obj.LATCHES n.val) = h.get (Obj.LATCHES n.val) + 1) ∧
    g.get Obj.EVENT_LAST = 0x55000000 + Obj.SLOT_STATE n.val

theorem slotFault_recorded (h : Hub) (n : Fin 8) {cause : Nat} (hcause : cause < 256) (hcount : h.get (Obj.SLOT_FAULT_COUNT n.val) < 255)
    (hfaults : h.get (Obj.FAULTS n.val) + 1 < 2 ^ 32) : SlotFaultRecorded h (h.slotFault n cause) n cause := by
  obtain ⟨estate, ecause, ecount, efaults, eattn, elatches⟩ := enterFault_get h n hcause hcount hfaults
  obtain ⟨elast, eevents⟩ := enterFault_event h n cause
  have eretry := enterFault_timers h n cause
  rw [slotFault_eq, ecount]
  split
  · rename_i third
    obtain ⟨lstate, lcause, lcount, lfaults, lattn, lbit, llatches⟩ := latchFault_get (h.enterFault n cause) n
    obtain ⟨llast, levents⟩ := latchFault_event (h.enterFault n cause) n
    rw [elatches] at llatches
    refine ⟨lcause.trans ecause, lcount.trans ecount, by rwa [latchFault_timers], lfaults.trans efaults, lattn.trans eattn, fun hc => ?_,
      fun hne => absurd third hne, fun _ => ⟨lstate, lbit, llatches, llast⟩⟩
    have ee := eevents (by omega)
    rw [levents (by omega), ee, if_pos third]
  · rename_i notThird
    refine ⟨ecause, ecount, eretry, efaults, eattn, fun hc => ?_, fun _ => ⟨estate, elast⟩, fun third => absurd third notThird⟩
    rw [eevents (by omega), if_neg notThird]

/-- The record is one of objects and timers; the count of the fast trips is not in it. -/
theorem SlotFaultRecorded.congr {h h' g g' : Hub} {n : Fin 8} {cause : Nat} (r : SlotFaultRecorded h g n cause)
    (hget : ∀ k, k ≠ Obj.FAST_TRIPS n.val → h'.get k = h.get k) (hnow : h'.now = h.now) (gget : ∀ k, g'.get k = g.get k)
    (gtimers : g'.timers = g.timers) : SlotFaultRecorded h' g' n cause := by
  obtain ⟨rcause, rcount, rretry, rfaults, rattn, revents, rentered, rlatched⟩ := r
  constructor <;> simpa (disch := lia) only [hget, hnow, gget, gtimers]

section
variable {h g : Hub} (P : PutsFrom h g)
include P

theorem PutsFrom.put (k v : Nat) : PutsFrom h (g.put k v) := P.trans (putsFrom_put g k v)

theorem PutsFrom.bump (k : Nat) : PutsFrom h (g.bump k) := P.trans (putsFrom_bump g k)

theorem PutsFrom.event (c k : Nat) : PutsFrom h (g.event c k) := (P.put _ _).bump _

theorem PutsFrom.arm (t : Timer) (d : Nat) : PutsFrom h (g.arm t d) := P.trans (.of_eq rfl rfl)

theorem PutsFrom.enterFault (n : Fin 8) (cause : Nat) : PutsFrom h (g.enterFault n cause) := by
  have left : PutsFrom h (g.slotLeave n) := P.trans (.of_eq rfl rfl)
  exact ((((((left.put _ _).put _ _).bump _).arm _ _).put _ _).bump _).event _ _

theorem PutsFrom.latchFault (n : Fin 8) : PutsFrom h (g.latchFault n) := (((P.put _ _).put _ _).bump _).event _ _

theorem PutsFrom.slotFault (n : Fin 8) (cause : Nat) : PutsFrom h (g.slotFault n cause) := by
  rw [slotFault_eq]
  split
  · exact (P.enterFault n cause).latchFault n
  · exact P.enterFault n cause

end

/-! ### The four commands -/

/-- A command that acts while RSTn is low and that ends, from the hub as it finds it or with a fast trip counted, in an entry of slot `n`
to state 6. -/
theorem kept_slotFault_recorded {s : State} {f : Hub → Hub} {g : Hub} {n : Fin 8} {cause : Nat} (hs : s.Sound)
    (hhold : s.hub.hold = .run ∨ s.hub.hold = .rstn) (hf : f s.now = g.slotFault n cause)
    (hg : g = s.now ∨ g = s.now.bump (Obj.FAST_TRIPS n.val)) (hcause : cause < 256)
    (hcount : s.now.get (Obj.SLOT_FAULT_COUNT n.val) < 255) (hfaults : s.now.get (Obj.FAULTS n.val) + 1 < 2 ^ 32) :
    ∃ t, s.kept f = .next t ∧ SlotFaultRecorded s.hub t.hub n cause := by
  obtain ⟨hputs, hget, hnow⟩ : PutsFrom s.now g ∧ (∀ k, k ≠ Obj.FAST_TRIPS n.val → s.now.get k = g.get k) ∧ s.now.now = g.now := by
    rcases hg with rfl | rfl
    · exact ⟨.refl _, fun _ _ => rfl, rfl⟩
    · exact ⟨putsFrom_bump _ _, fun k hk => (get_bump_other _ hk).symm, (Hub.bump_now _ _).symm⟩
  have P := hputs.slotFault n cause
  rw [hget _ (by lia)] at hcount hfaults
  refine ⟨_, kept_eq s f hhold, (slotFault_recorded g n hcause hcount hfaults).congr hget hnow (fun k => ?_) (by rw [hf]; rfl)⟩
  rw [hf, after_get s hs _ P.base (P.fits (fits_now s hs))]

/-- Settles O19: under its condition each of the four commands enters the slot's fault state, which writes what R581 lists one object
after the other; the fast trip first counts itself in an object of its own. -/
theorem slotFaultEntryIsRecorded : Obligations.SlotFaultEntryIsRecorded := by
  intro s n i cause hs hhold hi hcount hfaults
  obtain ⟨t, ht, r⟩ : ∃ t, exec i s = .next t ∧ SlotFaultRecorded s.hub t.hub n cause := by
    rcases hi with ⟨rfl, rfl, hstate, hdue⟩ | ⟨ma, bus, vout, rfl, rfl, hon, htrip⟩ | ⟨ma, us, rfl, rfl, hstate, hma, hus⟩ |
      ⟨mv, rfl, rfl, hon, hmv⟩
    · exact kept_slotFault_recorded hs hhold (if_pos ⟨hstate, hdue⟩) (.inl rfl) (by decide) hcount hfaults
    · exact kept_slotFault_recorded hs hhold (if_pos ⟨hon, htrip⟩) (.inr rfl) (by decide) hcount hfaults
    · exact kept_slotFault_recorded hs hhold (if_pos ⟨hstate, hma, hus⟩) (.inl rfl) (by decide) hcount hfaults
    · exact kept_slotFault_recorded hs hhold (if_pos ⟨hon, hmv⟩) (.inl rfl) (by decide) hcount hfaults
  exact ⟨t, ht, r.cause, r.count, r.retry, r.faults, r.attn, r.events, r.entered, r.latched⟩

end Sys2Proof.Machine

/-! PROOFS. The machine: what its steps and commands answer, the invariant they keep, and what a hub held in reset leaves out. -/

namespace Sys2Proof.Machine

/-! ### The frame of each command -/

/-- A command neither of the blocks that RSTn leaves running nor of the reset itself runs in the frame of the hub proper. -/
theorem exec_eq_run (i : Instr) (s : State) (hk : keptCommand i = false) (hr : resetCommand i = false) : ∃ f, exec i s = s.run f := by
  cases i <;> cases hk <;> cases hr <;> exact ⟨_, rfl⟩

/-- A command of the blocks that RSTn leaves running, but for the TAP's and a far source's, runs in their frame. -/
theorem exec_eq_kept (i : Instr) (s : State) (hk : keptCommand i = true) (hs : stillCommand i = false) : ∃ f, exec i s = s.kept f := by
  cases i <;> cases hk <;> cases hs <;> exact ⟨_, rfl⟩

/-! ### What a command answers -/

/-- The answer is a next state with the queue of `s`, sound if `s` is. -/
def State.Answers (s : State) (x : Host.Outcome State Fault Refusal) : Prop :=
  ∃ t, x = .next t ∧ t.pending = s.pending ∧ (s.Sound → t.Sound)

theorem after_sound {s : State} (hs : s.Sound) (h : Hub) : (s.after h).Sound := settle_sound s.hub h hs.1 hs.2.2

theorem always_answers (s : State) (f : Hub → Hub) : s.Answers (s.always f) := ⟨_, rfl, rfl, fun hs => after_sound hs _⟩

theorem run_answers (s : State) (f : Hub → Hub) : s.Answers (s.run f) := by
  unfold State.run
  split <;> exact always_answers s _

theorem kept_answers (s : State) (f : Hub → Hub) : s.Answers (s.kept f) := by
  unfold State.kept
  split <;> exact always_answers s _

theorem tap_answers (s : State) (f : Hub → Hub) : s.Answers (s.tap f) := by
  unfold State.tap
  split <;> exact always_answers s _

/-- A reset settles its writes over empty stores, which are sound. -/
theorem fresh_answers (s : State) (f : Hub → Hub) : s.Answers (s.fresh f) :=
  ⟨_, rfl, rfl, fun _ => settle_sound _ _ ⟨rfl, rfl, by simp⟩ rfl⟩

theorem answers_ite {c : Prop} [Decidable c] {s : State} {x y : Host.Outcome State Fault Refusal} (hx : s.Answers x) (hy : s.Answers y) :
    s.Answers (if c then x else y) := by
  split
  · exact hx
  · exact hy

/-- The commands of the TAP and of a far source. -/
theorem stillCommand_answers (i : Instr) (s : State) (h : stillCommand i = true) : s.Answers (exec i s) := by
  cases i <;> cases h
  case jtagBypass | jtagIdcode | jtagSamplePreload | jtagExtest => exact tap_answers s _
  case pdAttach | pdDetach => exact answers_ite (always_answers s _) (always_answers s _)

/-- The commands of the reset. -/
theorem resetCommand_answers (i : Instr) (s : State) (h : resetCommand i = true) : s.Answers (exec i s) := by
  cases i <;> cases h
  case pornRelease | rstnAssert | rstnRelease | vddAonRestored => exact answers_ite (fresh_answers s _) (always_answers s _)
  case vddAonUndervoltageReset => exact answers_ite (always_answers s _) (fresh_answers s _)
  case pornAssert => exact fresh_answers s fun h => h.intoReset (h.holdAll .porn)
  case strapSample =>
    exact answers_ite (always_answers s _) (answers_ite (always_answers s _) (answers_ite (fresh_answers s _) (always_answers s _)))

theorem exec_answers (i : Instr) (s : State) : s.Answers (exec i s) := by
  cases hr : resetCommand i with
  | true => exact resetCommand_answers i s hr
  | false => cases hk : keptCommand i with
    | false =>
      obtain ⟨f, hf⟩ := exec_eq_run i s hk hr
      rw [hf]; exact run_answers s f
    | true => cases hs : stillCommand i with
      | true => exact stillCommand_answers i s hs
      | false =>
        obtain ⟨f, hf⟩ := exec_eq_kept i s hk hs
        rw [hf]; exact kept_answers s f

/-- Settles O5: every command runs in one of four frames, and what a frame answers is a next state with its stores settled. -/
theorem everyCommandAnswersANextState : Obligations.EveryCommandAnswersANextState := exec_answers

/-- A step is the nanosecond of an idle machine or the command at the front of the queue. -/
theorem step_answers (s : State) : ∃ s' : State, s'.hub = s.hub ∧ s'.Answers (step s) := by
  unfold step
  split
  · exact ⟨s, rfl, always_answers s Hub.tick⟩
  · rename_i c rest _
    exact ⟨{ s with pending := rest }, rfl, exec_answers c _⟩

/-- Settles O4: soundness is of the hub alone, and the nanosecond or the command that the step is keeps it. -/
theorem everyStepKeepsStateSound : Obligations.EveryStepKeepsStateSound := by
  intro s t hs ht
  obtain ⟨s', hhub, u, hu, -, hsound⟩ := step_answers s
  obtain rfl : u = t := by rw [ht] at hu; cases hu; rfl
  exact hsound (by unfold State.Sound; rwa [hhub])

/-! ### Single steps -/

/-- Settles O1: with a command at the front of the queue a step is that command, on the state with the rest of the queue. -/
theorem stepRunsTheFrontCommand : Obligations.StepRunsTheFrontCommand := by
  intro c rest s hp
  rw [step, hp]

theorem step_idle {s : State} (hp : s.pending = []) : step s = .next (s.after (Hub.tick s.now)) := by
  rw [step, hp]; rfl

/-- Settles O2: an idle step is a tick, which goes on with what the hold lets run. -/
theorem idleStepIsANanosecond : Obligations.IdleStepIsANanosecond := by
  refine ⟨fun s hp hr => ?_, fun s hp hr => ?_, fun s hs hp hr hn => ?_⟩
  · have hrun : s.now.later.hold = .run := hr
    rw [step_idle hp, Hub.tick, if_pos hrun]
  · have hrun : s.now.later.hold ≠ .run := by rw [show s.now.later.hold = _ from hr]; decide
    have hrstn : s.now.later.hold = .rstn := hr
    rw [step_idle hp, Hub.tick, if_neg hrun, if_pos hrstn]
  · have htick : s.now.tick = s.now.later := by
      have hrun : s.now.later.hold ≠ .run := hr
      have hrstn : s.now.later.hold ≠ .rstn := hn
      rw [Hub.tick, if_neg hrun, if_neg hrstn]
    refine ⟨s.after s.now.later, by rw [step_idle hp, htick], hp, rfl, after_get_same s hs _ rfl, after_memGet_same s hs _ rfl⟩

/-- Settles O3: after reset both stores are empty. -/
theorem resetStateIsSoundAndAtDefaults : Obligations.ResetStateIsSoundAndAtDefaults := by
  have hcells : ∀ c ∈ State.reset.hub.objs.base, fitObj c.1 c.2 = c.2 := by
    intro c hc
    cases hc
  exact ⟨⟨⟨rfl, rfl, hcells⟩, rfl, rfl⟩, rfl, fun _ => rfl⟩

/-! ### A hub held in reset -/

theorem run_of_held (s : State) (f : Hub → Hub) (h : s.hub.hold ≠ .run) : s.run f = .next (s.after s.now) := run_held s f h

theorem kept_of_held (s : State) (f : Hub → Hub) (hr : s.hub.hold ≠ .run) (hn : s.hub.hold ≠ .rstn) : s.kept f = .next (s.after s.now) := by
  rw [State.kept, if_neg (not_or.2 ⟨hr, hn⟩)]; rfl

theorem kettleOff_of_off {h : Hub} {p : Fin 2} (hp : (h.pd[p]).on = false) : h.kettleOff p = true := by
  rw [Hub.kettleOff, hp]; rfl

theorem exec_pdAttach_of_off {s : State} {p : Fin 2} (hp : (s.hub.pd[p]).on = false) (farRp : Bool) :
    exec (.pdAttach p farRp) s = .next (s.after (if farRp then s.now.setFed p true else s.now)) := if_pos (kettleOff_of_off hp)

theorem exec_pdDetach_of_off {s : State} {p : Fin 2} (hp : (s.hub.pd[p]).on = false) :
    exec (.pdDetach p) s = .next (s.after (s.now.setFed p false)) := if_pos (kettleOff_of_off hp)

/-- Settles O6: the frame of a command decides whether it acts, and a command that does not act only clears the outputs. -/
theorem heldHubIgnoresCommands : Obligations.HeldHubIgnoresCommands := by
  refine ⟨fun i s hk hr hh => ?_, fun i s hk hs hh hn => ?_, fun s hh => ?_, fun s p hp => ?_, fun s hs => ?_⟩
  · obtain ⟨f, hf⟩ := exec_eq_run i s hk hr
    rw [hf, run_of_held s f hh]
  · obtain ⟨f, hf⟩ := exec_eq_kept i s hk hs
    rw [hf, kept_of_held s f hh hn]
  · exact ⟨tap_off s _ hh, tap_off s _ hh, fun _ _ => tap_off s _ hh, fun _ => tap_off s _ hh⟩
  · exact ⟨exec_pdAttach_of_off hp true, exec_pdAttach_of_off hp false, exec_pdDetach_of_off hp⟩
  · exact ⟨after_get_same s hs _ rfl, after_memGet_same s hs _ rfl⟩

end Sys2Proof.Machine

/-! PROOFS. The object dictionary (chapter 03): the checks of a write, refused and plain writes, deferred values, the words of 64-bit
objects, and staging. -/

namespace Sys2Proof.Machine

/-! ### The checks of a write (R59, R66, R76) -/

/-- The checks that are left once an object takes writes from the origin. -/
theorem checkWrite_of_writable {h : Hub} {o : Origin} {k : Nat} {r : ObjRow} (hf : h.frozen o = false) (hk : rowOf k = some r)
    (hro : r.acc ≠ .ro) (hrc : r.acc ≠ .rc) (hs : r.safety = false ∨ h.safetyOrigin o = true) (v : Nat) :
    h.checkWrite o k v =
      if r.ty == .octets || r.ty == .domain then rcTypeMismatch
      else if Nat.ble (2 ^ r.ty.width) v then (if Nat.ble r.ty.width 16 then rcOutOfRange else rcTypeMismatch)
      else if legalOk r.legal r.ty.width (keepBits r v) && h.extraLegal k (keepBits r v) then rcOk
      else rcOutOfRange := by
  have hpass : (r.safety && !h.safetyOrigin o) = false := by rcases hs with hs | hs <;> simp [hs]
  simp [Hub.checkWrite, hf, hk, hro, hrc, hpass]

/-- An accepted write is one to an object that takes writes, of a value of its width. -/
theorem writable_of_checkWrite {h : Hub} {o : Origin} {k v : Nat} {r : ObjRow} (hk : rowOf k = some r) (hc : h.checkWrite o k v = rcOk) :
    r.acc ≠ .ro ∧ r.acc ≠ .rc ∧ v < 2 ^ r.ty.width := by
  refine Classical.byContradiction fun hne => absurd hc ?_
  unfold Hub.checkWrite
  simp only [hk, beq_iff_eq, Bool.or_eq_true, Nat.ble_eq]
  split
  · decide
  · split
    · decide
    · rename_i hacc
      have hwide : 2 ^ r.ty.width ≤ v :=
        Nat.le_of_not_lt fun hlt => hne ⟨fun e => hacc (.inl e), fun e => hacc (.inr e), hlt⟩
      simp only [hwide, if_true]
      repeat' split
      all_goals decide

/-- Settles O9: the checks in their order, each ruled out before the next. -/
theorem writeChecksGiveTheirResults : Obligations.WriteChecksGiveTheirResults := by
  intro h o k v hf
  refine ⟨fun hk hno => ?_, fun hk h0 hidx => ?_, fun r hk => ⟨fun hacc => ?_, fun hro hrc hs ho => ?_, fun hro hrc hs hoct hdom => ?_⟩⟩
  · have hcount : ¬(k % 256 = 0 ∧ idxDefined (k / 256) = true) := by
      rintro ⟨h0, hidx⟩
      rcases hno with hno | hno
      · rw [hidx] at hno; cases hno
      · exact hno h0
    simp only [Hub.checkWrite, hf, hk, hcount, Bool.false_eq_true, if_false]
  · simp [Hub.checkWrite, hf, hk, h0, hidx]
  · simp [Hub.checkWrite, hf, hk, hacc]
  · exact (checkWrite_eq_notInSession_iff h o k v).2 ⟨hf, r, hk, hro, hrc, hs, ho⟩
  · rw [checkWrite_of_writable hf hk hro hrc hs]
    have hty : (r.ty == .octets || r.ty == .domain) = false := by simp [hoct, hdom]
    simp only [hty, Bool.false_eq_true, if_false, Nat.ble_eq]
    refine ⟨fun hw hv => ?_, fun hv hbad => ?_, fun hv hl he => ?_⟩
    · rw [if_pos hv, if_pos hw]
    · rw [if_neg (Nat.not_le.2 hv), if_neg]
      rcases hbad with hbad | hbad <;> simp [hbad]
    · rw [if_neg (Nat.not_le.2 hv), if_pos]
      simp [hl, he]

/-- Settles O8: a write that fails its checks only reports their result. -/
theorem refusedWriteChangesNothing : Obligations.RefusedWriteChangesNothing := by
  intro s o k v hs hr hh hk hc
  have hg := guarded_refused s.now o k.toNat v.toNat (fun h => h.writeAct o k.toNat v.toNat) hc hh hk
  refine ⟨s.after (s.now.ret o (s.now.checkWrite o k.toNat v.toNat)), ?_, rfl, after_get_same s hs _ rfl, after_memGet_same s hs _ rfl, rfl,
    rfl⟩
  rw [← hg]
  exact run_after s _ hr

/-! ### The effect of a write in a page without actions of its own -/

theorem keepBits_keepBits (r : ObjRow) (v : Nat) : keepBits r (keepBits r v) = keepBits r v := by
  unfold keepBits
  split
  · rfl
  · rw [Nat.and_assoc, Nat.and_self]

theorem keepBits_le (r : ObjRow) (v : Nat) : keepBits r v ≤ v := by
  unfold keepBits
  split
  · exact Nat.le_refl v
  · exact Nat.and_le_left

/-- The pages of `actsPlainly`, as bounds of the key. -/
theorem actsPlainly_cases {k : Nat} (h : actsPlainly k = true) :
    k / 65536 = 0x11 ∨ k / 65536 = 0x25 ∨ k / 65536 = 0x40 ∨ (k / 65536 = 0x41 ∧ ¬(0x4110 ≤ k / 256 ∧ k / 256 ≤ 0x411E)) ∨
      (k / 65536 = 0x60 ∧ k % 256 ≠ 9) := by
  simp only [actsPlainly, List.contains_cons, List.contains_nil, Bool.or_false, Bool.or_eq_true, Bool.and_eq_true, beq_iff_eq,
    bne_iff_ne, Bool.not_eq_eq_eq_not, Bool.not_true, ← Bool.not_eq_true, Nat.ble_eq, or_assoc] at h
  exact h

/-- No write in these pages has an action of its own: it is a plain write. -/
theorem writeAct_of_actsPlainly {k : Nat} (h : actsPlainly k = true) {r : ObjRow} (hr : rowOf k = some r) (g : Hub) (o : Origin) (v : Nat) :
    g.writeAct o k v = g.plainWrite o k (keepBits r v) := by
  have hc := actsPlainly_cases h
  have hcaddy : isCaddyKey k = false := by simp only [isCaddyKey, ← Bool.not_eq_true, Bool.and_eq_true, Nat.ble_eq]; omega
  unfold Hub.writeAct
  simp only [hr, hcaddy, Bool.false_eq_true, false_and, if_false, Obj.PLAN_CHOICE, Obj.SWAP_CMD, Obj.SAFE_RESET, Obj.SS_OPEN,
    Obj.SS_CLOSE, Obj.FREEZE_RELEASE]
  simp (disch := omega) only [if_neg]

/-- The index is none of the segment channels'. -/
def offChannels (idx : Nat) : Prop := ¬(0x1210 ≤ idx ∧ idx ≤ 0x1213)

theorem offChannels.ble {idx : Nat} (h : offChannels idx) : (Nat.ble 0x1210 idx && Nat.ble idx 0x1213) = false := by
  rw [← Bool.not_eq_true, Bool.and_eq_true, Nat.ble_eq, Nat.ble_eq]; exact h

theorem segBusy_of_offChannels {idx : Nat} (h : offChannels idx) (g : Hub) (o : Origin) : g.segBusy o idx = false := by
  rw [Hub.segBusy, h.ble, Bool.false_and]

theorem segTouch_of_offChannels {idx : Nat} (h : offChannels idx) (g : Hub) (o : Origin) : g.segTouch o idx = g := by
  rw [Hub.segTouch, h.ble, Bool.false_and, if_neg Bool.false_ne_true]

theorem segNote_of_offChannels {idx : Nat} (h : offChannels idx) (g : Hub) (c : Nat) : g.segNote idx c = g := by
  rw [Hub.segNote, h.ble, Bool.false_and, if_neg Bool.false_ne_true]

/-- A write with nothing in its way has the effect of its object. -/
theorem guardedR_clear {h : Hub} {o : Origin} {k v : Nat} (act : Hub → Nat × Hub) (hc : h.clear o k v) :
    h.guardedR o k v act = act (h.written k) := by
  obtain ⟨hf, hh, hk, hcheck, hon⟩ := hc
  have hcad : (isCaddyKey k && (rowOf k).isSome && !h.caddyRights o) = false := by rcases hk with hk | hk <;> simp [hk]
  simp [Hub.guardedR, hf, hh, hcad, hcheck, accessWake_on, hon]

/-- No object of these pages is a channel's: its write is the guarded one. -/
theorem writeObj_of_clear {h : Hub} {o : Origin} {k v : Nat} (hp : actsPlainly k = true) (hc : h.clear o k v)
    (hres : h.reservedWrite o k = false) {r : ObjRow} (hr : rowOf k = some r) {g : Hub}
    (hw : (h.written k).plainWrite o k (keepBits r v) = (rcOk, g)) : h.writeObj o k v = (rcOk, g) := by
  have hoff : offChannels (k / 256) := by
    have := actsPlainly_cases hp
    unfold offChannels
    omega
  have hraw : h.writeRaw o k v = (rcOk, g) := by
    rw [Hub.writeRaw, segBusy_of_offChannels hoff, segTouch_of_offChannels hoff, guardedR_clear _ hc, writeAct_of_actsPlainly hp hr, hw]
    simp [hc.1, hc.2.1, hres]
  unfold Hub.writeObj
  rw [hraw]
  exact congrArg (rcOk, ·) (segNote_of_offChannels hoff g rcOk)

/-- A plain write that is not staged is accepted. -/
theorem plainWrite_of_not_rwp {h : Hub} {o : Origin} {k : Nat} {r : ObjRow} (hr : rowOf k = some r) (hacc : r.acc ≠ .rwp) (v : Nat) :
    h.plainWrite o k (keepBits r v) = (rcOk, h.accept k (keepBits r v)) := by
  simp [Hub.plainWrite, hr, hacc, keepBits_keepBits]

theorem deferred_iff {k : Nat} {r : ObjRow} (hr : rowOf k = some r) : deferred k = true ↔ r.unit ≠ .now ∧ r.acc ≠ .rwp := by
  simp [deferred, hr]

@[simp] theorem accept_objs (h : Hub) (k v : Nat) : (h.accept k v).objs = (h.put k v).objs := by
  unfold Hub.accept
  dsimp only
  split <;> rfl

theorem accept_get (h : Hub) (k v j : Nat) : (h.accept k v).get j = (h.put k v).get j := by
  unfold Hub.get
  rw [accept_objs]

theorem PutsFrom.accept {h g : Hub} (P : PutsFrom h g) (k v : Nat) : PutsFrom h (g.accept k v) := by
  unfold Hub.accept
  dsimp only
  split
  · exact (P.put k v).trans (.of_eq rfl rfl)
  · exact P.put k v

theorem PutsFrom.setStaged {h g : Hub} (P : PutsFrom h g) (x : Staged) : PutsFrom h (g.setStaged x) := P.trans (.of_eq rfl rfl)

/-- What is read after a command that ends with its result reported. -/
theorem PutsFrom.get_after_ret {s : State} {g : Hub} (P : PutsFrom s.now g) (hs : s.Sound) (o : Origin) (c j : Nat) :
    (s.after (g.ret o c)).hub.get j = g.get j := P.get_after_emit hs (.result o c) j

theorem after_ret_staged (s : State) (h : Hub) (o : Origin) (c : Nat) : (s.after (h.ret o c)).hub.staged = h.staged := rfl

theorem after_ret_memGet {s : State} (hs : s.Sound) {g : Hub} (hm : g.mem = s.hub.mem) (o : Origin) (c a : Nat) :
    (s.after (g.ret o c)).hub.memGet a = s.hub.memGet a := after_memGet_same s hs (g.ret o c) hm a

/-- A value of the object's width fits it. -/
theorem fitObj_of_lt {k v : Nat} {r : ObjRow} (hr : rowOf k = some r) (hv : v < 2 ^ r.ty.width) : fitObj k v = v := by
  rw [fitObj, hr]
  exact Nat.mod_eq_of_lt hv

theorem toNat_lt_effOffset (k : BitVec 24) : k.toNat < effOffset := k.isLt

/-- No value in effect of a deferred object belongs to the record of discards. -/
theorem discardRecord_effOffset_add (k : Nat) : discardRecord (effOffset + k) = false := by
  simp only [discardRecord, Bool.or_eq_false_iff, List.any_eq_false, List.mem_range, beq_iff_eq, effOffset, Obj.DISCARD_LOG,
    Obj.DISCARD_COUNT, Obj.EVENT_LAST, Obj.EVENT_COUNT, beq_eq_false_iff_ne]
  refine ⟨⟨⟨fun i hi => ?_, ?_⟩, ?_⟩, ?_⟩ <;> omega

theorem result_mem_after_ret (s : State) (h : Hub) (o : Origin) (c : Nat) : Out.result o c ∈ (s.after (h.ret o c)).hub.out := by
  rw [after_out]
  exact List.mem_append_right _ List.mem_cons_self

/-- What is read after a plain write that is not staged. -/
theorem plainWrite_accepted {s : State} {o : Origin} {k : BitVec 24} {v : W64} {r : ObjRow} (hs : s.Sound) (hr : s.hub.hold = .run)
    (hc : s.now.clear o k.toNat v.toNat) (hk : rowOf k.toNat = some r) (hacc : r.acc ≠ .rwp) (hp : actsPlainly k.toNat = true)
    (hres : s.now.reservedWrite o k.toNat = false) :
    ∃ t, exec (.objectWrite o k v) s = .next t ∧ Out.result o rcOk ∈ t.hub.out ∧ t.hub.get k.toNat = keepBits r v.toNat ∧
      (∀ j, j ≠ k.toNat → discardRecord j = false → t.hub.get j = s.hub.get j) ∧ (∀ a, t.hub.memGet a = s.hub.memGet a) ∧
      t.hub.waiting = ((s.now.written k.toNat).accept k.toNat (keepBits r v.toNat)).waiting := by
  have K := keeps_written s.now k.toNat
  have hput := writeObj_of_clear hp hc hres hk (plainWrite_of_not_rwp (h := s.now.written k.toNat) (o := o) hk hacc v.toNat)
  obtain ⟨-, -, -, hcheck, -⟩ := hc
  have hw := (writable_of_checkWrite hk hcheck).2.2
  have hget (j : Nat) := ((K.putsFrom.accept k.toNat (keepBits r v.toNat)).get_after_ret hs o rcOk j).trans (accept_get _ _ _ j)
  refine ⟨s.after (((s.now.written k.toNat).accept k.toNat (keepBits r v.toNat)).ret o rcOk), ?_, ?_, ?_, fun j hj hd => ?_, ?_, rfl⟩
  · have hrun : exec (.objectWrite o k v) s = .next (s.after (Hub.reported o (s.now.writeObj o k.toNat v.toNat))) := run_after s _ hr
    rw [hrun, hput]; rfl
  · exact result_mem_after_ret s _ o rcOk
  · rw [hget, get_put_same, fitObj_of_lt hk (Nat.lt_of_le_of_lt (keepBits_le r _) hw)]
  · rw [hget, get_put_other _ _ hj, K.get j hd]; rfl
  · exact after_ret_memGet hs (by rw [accept_mem, K.mem]; rfl) o rcOk

/-- Settles O11: a plain write is accepted, and an object whose value takes effect at once keeps no other value in effect. -/
theorem plainWriteTakesEffectAtOnce : Obligations.PlainWriteTakesEffectAtOnce := by
  intro s o k v r hs hr hc hk hacc hunit hp hres
  obtain ⟨t, ht, hout, hget, hother, hmem, -⟩ := plainWrite_accepted hs hr hc hk (by rw [hacc]; decide) hp hres
  have heff : deferred k.toNat = false := by
    rw [Bool.eq_false_iff, ne_eq, deferred_iff hk]; simp [hunit]
  refine ⟨t, ht, hget, ?_, hout, hother, hmem⟩
  rw [Hub.eff, heff]
  exact hget

/-! ### Deferred values (R57, R58) -/

theorem rowOf_effOffset_add (k : Nat) : rowOf (effOffset + k) = rowOf k := by
  have hsub : (effOffset + k) % 256 = k % 256 := by simp only [effOffset]; omega
  rw [rowOf, Nat.add_mod_left, hsub, rowOf]

theorem eff_of_deferred {h : Hub} {k : Nat} (hd : deferred k = true) : h.eff k = h.get (effOffset + k) := if_pos hd

/-- A waiting value of a deferred object is put at the place of its value in effect. -/
theorem takeOne_of_deferred {h : Hub} {w : Waiting} {r : ObjRow} (hr : rowOf w.key = some r) (hacc : r.acc ≠ .rwp) :
    h.takeOne w = h.put (effOffset + w.key) w.val := by
  simp [Hub.takeOne, hr, hacc]

/-- Settles O12: the write puts the value read and leaves the one in effect, and the unit takes the waiting values in their order. -/
theorem deferredWriteWaitsForItsUnit : Obligations.DeferredWriteWaitsForItsUnit := by
  refine ⟨fun s o k v r hs hr hc hk hacc hunit hp hres => ?_, fun h k v₁ v₂ t₁ t₂ n₁ n₂ r hk hacc hunit hlt hv hwait => ?_⟩
  · obtain ⟨t, ht, -, hget, hother, hmem, hwait⟩ := plainWrite_accepted hs hr hc hk hacc hp hres
    have hd : deferred k.toNat = true := (deferred_iff hk).2 ⟨hunit, hacc⟩
    have K := keeps_written s.now k.toNat
    refine ⟨t, ht, hget, ?_, ?_, hmem⟩
    · rw [eff_of_deferred hd, eff_of_deferred hd]
      exact hother _ (by have := toNat_lt_effOffset k; omega) (discardRecord_effOffset_add _)
    · have hunitOf : unitOf k.toNat = r.unit := by rw [unitOf, hk]
      have hns : ((s.now.written k.toNat).put k.toNat (keepBits r v.toNat)).netNs = s.hub.netNs := by
        rw [Hub.netNs, Hub.put_netTime, K.net]; rfl
      rw [hwait, Hub.accept, hd, if_pos rfl]
      simp only [Hub.put_waiting, Hub.put_now, Hub.put_netRuns, hunitOf, hns, K.waiting, K.now, K.runs]
      rfl
  · have hd : deferred k = true := (deferred_iff hk).2 ⟨hunit, hacc⟩
    have htake : h.takeUnit r.unit (fun _ => true) =
        (({ h with waiting := [] } : Hub).put (effOffset + k) v₁).put (effOffset + k) v₂ := by
      simp [Hub.takeUnit, hwait, takeOne_of_deferred (w := ⟨k, _, _, _, r.unit⟩) hk hacc]
    rw [htake, eff_of_deferred hd, get_put_same]
    exact ⟨fitObj_of_lt ((rowOf_effOffset_add k).trans hk) hv, rfl⟩

/-! ### The words of a 64-bit object (R80) -/

theorem writeWord_low {h : Hub} {o : Origin} {k : Nat} {r : ObjRow} (hf : h.frozen o = false) (hk : rowOf k = some r) (hty : r.ty = .u64)
    (v : W32) : h.writeWord o k v = h.writeLow o k v r := by
  simp [Hub.writeWord, hf, hk, hty]

theorem writeWord_high {h : Hub} {o : Origin} {k : Nat} (hf : h.frozen o = false) (hnone : rowOf (k + 1) = none)
    (hwide : wideOf (k + 1) = some k) (v : W32) : h.writeWord o (k + 1) v = h.writeHigh o k v := by
  simp [Hub.writeWord, hf, hnone, hwide]

/-- Settles O13: the low word's write and the high word's each turn on the word held. -/
theorem wordPairIsOneWrite : Obligations.WordPairIsOneWrite := by
  intro s o k r hr hf hk hty hnone hwide
  have hlow (v : W32) : exec (.mmioLowWordWrite o k v) s = .next (s.after (Hub.reported o (s.now.writeLow o k.toNat v r))) := by
    rw [← writeWord_low hf hk hty]; exact run_after s _ hr
  have hhigh (v : W32) : exec (.mmioHighWordWrite o k v) s = .next (s.after (Hub.reported o (s.now.writeHigh o k.toNat v))) := by
    rw [← writeWord_high hf hnone hwide]; exact run_after s _ hr
  refine ⟨fun v hro hrc hcad hheld => ?_, fun v lo hheld => ?_, fun v hheld => ?_, fun v j lo hj hheld => ?_, fun v w hheld => ?_⟩
  · have hcaddy : (isCaddyKey k.toNat && !s.now.caddyRights o) = false := by rcases hcad with h | h <;> simp [h]
    rw [hlow]
    simp [Hub.writeLow, Hub.reported, hheld, hcaddy, hro, hrc]
  · rw [hhigh]
    simp [Hub.writeHigh, hheld]
  · rw [hhigh]
    simp [Hub.writeHigh, Hub.reported, hheld]
  · rw [hhigh]
    simp [Hub.writeHigh, Hub.reported, hheld, hj]
  · rw [hlow]
    simp [Hub.writeLow, Hub.reported, hheld]

/-! ### Staging (R69 to R73) -/

theorem find_leader_eq_none {l : List Staged} {leader : Nat} (h : l.any (fun g => g.leader == leader) = false) :
    l.find? (fun g => g.leader == leader) = none := by
  simpa [List.find?_eq_none, List.any_eq_false] using h

theorem filter_leader_eq_self {l : List Staged} {leader : Nat} (h : l.any (fun g => g.leader == leader) = false) :
    l.filter (fun g => g.leader != leader) = l := by
  rw [List.filter_eq_self]
  simpa [List.any_eq_false] using h

/-- A group that is not staged has nothing to expire. -/
theorem expireGroup_of_none {h : Hub} {leader : Nat} (hn : h.staged.find? (fun g => g.leader == leader) = none) :
    h.expireGroup leader = h := by
  simp [Hub.expireGroup, hn]

theorem stagedGroup_eq_none {h : Hub} {leader : Nat} (hn : h.staged.find? (fun g => g.leader == leader) = none) :
    h.stagedGroup leader = none := by
  simp [Hub.stagedGroup, hn]

/-- A group that is staged and within its time does not expire. -/
theorem expireGroup_of_stagedGroup {h : Hub} {leader : Nat} {g : Staged} (hg : h.stagedGroup leader = some g) :
    h.expireGroup leader = h := by
  unfold Hub.stagedGroup at hg
  split at hg
  · rename_i x hx
    split at hg
    · cases hg
    · rename_i hstale
      simp [Hub.expireGroup, hx, hstale]
  · cases hg

/-- What is staged is read from the groups and the instant alone. -/
theorem stagedGroup_congr {h g : Hub} (hst : g.staged = h.staged) (hn : g.now = h.now) (leader : Nat) :
    g.stagedGroup leader = h.stagedGroup leader := by
  unfold Hub.stagedGroup Hub.stale
  rw [hst, hn]

theorem stale_congr {h g : Hub} (hn : g.now = h.now) : g.stale = h.stale := by
  funext x
  simp only [Hub.stale, hn]

/-- The first write to a group stages it, if there is room. -/
theorem stageWrite_of_room {h : Hub} {o : Origin} {k : Nat} (hn : h.staged.find? (fun g => g.leader == leaderOf k) = none)
    (hlen : (h.staged.filter fun g => !h.stale g).length < 32) (put : Staged → Staged) :
    h.stageWrite o k put = (rcOk, (h.setStaged (put ⟨leaderOf k, o, h.now, [], []⟩)).arm (.groupExpire (leaderOf k)) (ms 100)) := by
  rw [Hub.stageWrite, expireGroup_of_none hn, stagedGroup_eq_none hn]
  exact if_neg (Nat.not_le.2 hlen)

theorem stageWrite_of_full {h : Hub} {o : Origin} {k : Nat} (hn : h.staged.find? (fun g => g.leader == leaderOf k) = none)
    (hlen : 32 ≤ (h.staged.filter fun g => !h.stale g).length) (put : Staged → Staged) : h.stageWrite o k put = (rcStageFull, h) := by
  rw [Hub.stageWrite, expireGroup_of_none hn, stagedGroup_eq_none hn]
  exact if_pos hlen

theorem stageWrite_of_other {h : Hub} {o : Origin} {k : Nat} {g : Staged} (hg : h.stagedGroup (leaderOf k) = some g) (ho : g.owner ≠ o)
    (put : Staged → Staged) : h.stageWrite o k put = (rcGroupBusy, h) := by
  rw [Hub.stageWrite, expireGroup_of_stagedGroup hg, hg]
  exact if_neg ho

/-- A write to an RWP member in a page without actions is staged. -/
theorem exec_groupStageWrite {s : State} {o : Origin} {k : BitVec 24} {v : W64} {r : ObjRow} (hr : s.hub.hold = .run)
    (hc : s.now.clear o k.toNat v.toNat) (hk : rowOf k.toNat = some r) (hacc : r.acc = .rwp) (hp : actsPlainly k.toNat = true)
    {c : Nat} {g : Hub}
    (hw : (s.now.written k.toNat).stageWrite o k.toNat (fun x => { x with vals := stageVal k.toNat (keepBits r v.toNat) x.vals }) = (c, g)) :
    exec (.groupStageWrite o k v) s = .next (s.after (g.ret o c)) := by
  have hact : (s.now.written k.toNat).writeAct o k.toNat v.toNat = (c, g) := by
    rw [writeAct_of_actsPlainly hp hk, ← hw]
    simp [Hub.plainWrite, hk, hacc, keepBits_keepBits]
  have hg := guarded_clear s.now o k.toNat v.toNat (fun h => h.writeAct o k.toNat v.toNat) hc
  simp only [hact] at hg
  rw [← hg]
  exact run_after s _ hr

/-- Settles O15: the first write stages the group, another origin's finds it staged, and a 33rd group finds no room. -/
theorem stagingBelongsToItsOwner : Obligations.StagingBelongsToItsOwner := by
  intro s o k v r hs hr hc hk hacc hp
  have K := keeps_written s.now k.toNat
  have hstale : (s.now.written k.toNat).stale = s.now.stale := stale_congr K.now
  have hnone (hany : s.now.staged.any (fun g => g.leader == leaderOf k.toNat) = false) :
      (s.now.written k.toNat).staged.find? (fun g => g.leader == leaderOf k.toNat) = none := by
    rw [K.staged]; exact find_leader_eq_none hany
  refine ⟨fun hany hlen => ?_, fun hany hlen => ?_, fun g hg ho => ?_⟩
  · have hw := exec_groupStageWrite hr hc hk hacc hp (stageWrite_of_room (hnone hany) (by rwa [K.staged, hstale]) _)
    refine ⟨_, hw, ?_, result_mem_after_ret s _ o rcOk, fun j hj => ?_, after_ret_memGet hs ?_ o rcOk⟩
    · show _ :: (s.now.written k.toNat).staged.filter (fun g => g.leader != leaderOf k.toNat) = _
      rw [K.staged, filter_leader_eq_self hany, K.now]
      rfl
    · rw [((K.putsFrom.setStaged _).arm _ _).get_after_ret hs, arm_get, setStaged_get, K.get j hj]; rfl
    · rw [arm_mem, setStaged_mem, K.mem]; rfl
  · have hw := exec_groupStageWrite hr hc hk hacc hp (stageWrite_of_full (hnone hany) (by rwa [K.staged, hstale]) _)
    exact ⟨_, hw, (after_ret_staged s _ o _).trans K.staged, result_mem_after_ret s _ o rcStageFull⟩
  · have hw := exec_groupStageWrite hr hc hk hacc hp (stageWrite_of_other ((stagedGroup_congr K.staged K.now _).trans hg) ho _)
    exact ⟨_, hw, (after_ret_staged s _ o _).trans K.staged, result_mem_after_ret s _ o rcGroupBusy⟩

/-! ### Commit, abort and expiry of a group (R70 to R73) -/

theorem commitGroup_of_other {h : Hub} {o : Origin} {v : Nat} (hn : namesGroup v = true) {g : Staged}
    (hg : h.stagedGroup (leaderOf (v % 2 ^ 24)) = some g) (ho : g.owner ≠ o) : h.commitGroup o v = (rcGroupBusy, h) := by
  simp [-Nat.reducePow, Hub.commitGroup, hn, expireGroup_of_stagedGroup hg, hg, ho]

theorem abortNamed_of_other {h : Hub} {o : Origin} {v : Nat} (hn : namesGroup v = true) {g : Staged}
    (hg : h.stagedGroup (leaderOf (v % 2 ^ 24)) = some g) (ho : g.owner ≠ o) : h.abortNamed o v = (rcGroupBusy, h) := by
  simp [-Nat.reducePow, Hub.abortNamed, Hub.abortGroup, hn, expireGroup_of_stagedGroup hg, hg, ho]

theorem commitGroup_of_none {h : Hub} {o : Origin} {v : Nat} (hn : namesGroup v = true)
    (hg : h.staged.find? (fun g => g.leader == leaderOf (v % 2 ^ 24)) = none) : h.commitGroup o v = (rcNotStaged, h) := by
  simp [-Nat.reducePow, Hub.commitGroup, hn, expireGroup_of_none hg, stagedGroup_eq_none hg]

theorem abortNamed_of_none {h : Hub} {o : Origin} {v : Nat} (hn : namesGroup v = true)
    (hg : h.staged.find? (fun g => g.leader == leaderOf (v % 2 ^ 24)) = none) : h.abortNamed o v = (rcNotStaged, h) := by
  simp [-Nat.reducePow, Hub.abortNamed, Hub.abortGroup, hn, expireGroup_of_none hg, stagedGroup_eq_none hg]

/-- A guarded write with nothing in its way answers what its object does. -/
theorem run_guarded {s : State} {o : Origin} {k v : Nat} (act : Hub → Nat × Hub) (hr : s.hub.hold = .run) (hc : s.now.clear o k v) {c : Nat}
    {g : Hub} (hact : act (s.now.written k) = (c, g)) : s.run (fun h => h.guarded o k v act) = .next (s.after (g.ret o c)) := by
  rw [run_after s _ hr, guarded_clear s.now o k v act hc, hact]

/-- Settles O16: the write that the accepted command is leaves what is staged as it was, and the group's owner decides. -/
theorem commitAndAbortAreTheOwners : Obligations.CommitAndAbortAreTheOwners := by
  intro s o v hr hn
  have hgroup (k : Nat) {g : Staged} (hg : s.now.stagedGroup (leaderOf (v.toNat % 2 ^ 24)) = some g) :
      (s.now.written k).stagedGroup (leaderOf (v.toNat % 2 ^ 24)) = some g := by
    rw [stagedGroup_congr (keeps_written s.now k).staged (keeps_written s.now k).now, hg]
  have hnone (k : Nat) (hany : s.now.staged.any (fun g => g.leader == leaderOf (v.toNat % 2 ^ 24)) = false) :
      (s.now.written k).staged.find? (fun g => g.leader == leaderOf (v.toNat % 2 ^ 24)) = none := by
    rw [(keeps_written s.now k).staged, find_leader_eq_none hany]
  exact ⟨fun hc g hg ho => run_guarded _ hr hc (commitGroup_of_other hn (hgroup _ hg) ho),
    fun hc g hg ho => run_guarded _ hr hc (abortNamed_of_other hn (hgroup _ hg) ho),
    fun hc hany => run_guarded _ hr hc (commitGroup_of_none hn (hnone _ hany)),
    fun hc hany => run_guarded _ hr hc (abortNamed_of_none hn (hnone _ hany))⟩

@[simp] theorem unstage_get (h : Hub) (leader k : Nat) : (h.unstage leader).get k = h.get k := rfl

/-- Settles O17: the expired group is gone with one event, so the command finds nothing the second time. -/
theorem groupExpiresAt100Milliseconds : Obligations.GroupExpiresAt100Milliseconds := by
  intro s leader hs hr
  refine ⟨fun hstale => ?_, fun hfresh => ?_⟩
  · have hexec : exec (.groupExpired leader) s = .next (s.after ((s.now.unstage leader.toNat).event 0x01 leader.toNat)) :=
      (run_after s _ hr).trans (by rw [Hub.expireGroup, if_pos hstale])
    have P : PutsFrom s.now (s.now.unstage leader.toNat) := .of_eq rfl rfl
    replace P := P.event 0x01 leader.toNat
    have hget (j : Nat) := after_get s hs _ P.base (P.fits (fits_now s hs)) j
    have hgone : (s.after ((s.now.unstage leader.toNat).event 0x01 leader.toNat)).hub.staged.any (fun g => g.leader == leader.toNat) =
        false := by
      simp [State.after, Hub.settle, Hub.unstage, Hub.disarm]
    refine ⟨_, hexec, hgone, ?_, fun hc => ?_, fun j h1 h2 => ?_, ?_, ?_⟩
    · rw [hget, event_last _ _ _ (by decide)]
      have := leader.isLt
      omega
    · rw [hget]; exact event_count _ _ _ hc
    · rw [hget, get_event_other _ h1 h2]; rfl
    · exact after_memGet_same s hs _ (by rw [event_mem, unstage_mem]; rfl)
    · refine (run_after _ _ ?_).trans ?_
      · rw [← hr]; exact Hub.event_hold _ _ _
      · exact congrArg (fun h => Host.Outcome.next (State.after _ h)) (expireGroup_of_none (find_leader_eq_none hgone))
  · exact (run_after s _ hr).trans (by rw [Hub.expireGroup, if_neg (by rw [hfresh]; decide)])

end Sys2Proof.Machine

/-! PROOFS. Completion: one rule per kind of command, and each command of the operation table by its branch. -/

namespace Sys2Proof.Machine

/-! ### The rules -/

/-- A command of the hub proper, in the branch its conditions choose. -/
theorem run_effect {s : State} {f : Hub → Hub} {g : Hub} (hr : s.hub.hold = .run) (hf : f s.now = g) : s.run f = .next (s.after g) := by
  rw [run_after s f hr, hf]

/-- A command of the blocks that RSTn leaves running, in the branch its conditions choose. -/
theorem kept_effect {s : State} {f : Hub → Hub} {g : Hub} (hr : s.hub.hold = .run ∨ s.hub.hold = .rstn) (hf : f s.now = g) :
    s.kept f = .next (s.after g) := by
  rw [kept_eq s f hr, hf]

/-- A command of the TAP, in the branch its conditions choose. -/
theorem tap_effect {s : State} {f : Hub → Hub} {g : Hub} (hporn : s.hub.hold ≠ .porn) (haon : s.hub.hold ≠ .vddAon) (hf : f s.now = g) :
    s.tap f = .next (s.after g) := by
  rw [tap_eq s f hporn haon, hf]

theorem always_effect {s : State} {f : Hub → Hub} {g : Hub} (hf : f s.now = g) : s.always f = .next (s.after g) := by
  rw [← hf]; rfl

/-- A reset settles what it leaves over empty stores. -/
theorem fresh_effect {s : State} {f : Hub → Hub} {g : Hub} (hf : f s.now = g) :
    s.fresh f = .next { s with hub := Hub.settle { s.hub with objs := ⟨[], []⟩, mem := ⟨[], []⟩ } g } := by
  rw [← hf]; rfl

/-- A write that nothing keeps back acts on the hub that the write has left. -/
theorem guarded_of_clear {h g : Hub} {o : Origin} {k v : Nat} {act : Hub → Nat × Hub} (hc : h.clear o k v) (hg : g = h.written k) :
    h.guarded o k v act = (act g).2.ret o (act g).1 := by
  rw [guarded_clear h o k v act hc, hg]

theorem run_guarded_effect {s : State} {o : Origin} {k v : Nat} {act : Hub → Nat × Hub} {g : Hub} (hr : s.hub.hold = .run)
    (hc : s.now.clear o k v) (hg : g = s.now.written k) :
    s.run (fun h => h.guarded o k v act) = .next (s.after ((act g).2.ret o (act g).1)) :=
  run_effect hr (guarded_of_clear hc hg)

/-! ### What a command finds -/

/-- A control cell of the wanted type is taken. -/
theorem ctrlTake_of_type {h : Hub} {p : Port} {type : Nat} {c : List Byte} (hc : byteAt c 0 = type) :
    h.ctrlTake p type (some c) = (some c, h.setLink p fun k => { k with ctrlGap := 0 }) := by
  simp [Hub.ctrlTake, hc]

/-- A swap cell of the wanted kind is taken. -/
theorem swapTake_of_kind {h : Hub} {p : Port} {kind : Nat} {c : List Byte} (hc : byteAt c 0 = 7) (hkind : byteAt c 2 % 4 = kind) :
    h.swapTake p kind (some c) = (some c, h.setLink p fun k => { k with ctrlGap := 0 }) := by
  simp [Hub.swapTake, hc, hkind]

/-- A CSI header that is taken. -/
theorem csiHeader_of_taken {h : Hub} {c : Fin 4} {k : CsiPkt} (ht : (h.csiHeader c k).1 = true) :
    h.csiHeader c k = (true, (h.csiHeader c k).2) := Prod.ext ht rfl

theorem regionWake_of_on {h : Hub} {o : Origin} (hon : h.domOn 2 = true) : h.regionWake o = h := accessWake_on h o 0x5500 hon

/-- A write to the peripheral region acts once its origin is not frozen and the block is powered. -/
theorem regionGuard_of_on {h : Hub} {o : Origin} (hf : h.frozen o = false) (hon : h.domOn 2 = true) (off : Nat) (act : Hub → Hub) :
    h.regionGuard o off act = (act (h.dropBlock 2 0 off)).ret o rcOk := by
  simp [Hub.regionGuard, hf, regionWake_of_on hon, hon]

/-- The object takes octets, `n` of them at most, from any origin. -/
def TakesOctets (k n : Nat) : Prop := (rowOf k).map (fun r => (r.acc, r.safety, r.ty, r.n)) = some (.wo, false, .octets, n)

theorem rowOf_keyMaterial (k : KeySlot) : TakesOctets (Obj.KEY_MATERIAL k.val) 40 := by
  revert k; unfold TakesOctets; decide

theorem rowOf_keyDerive (k : KeySlot) : TakesOctets (Obj.KEY_DERIVE k.val) 68 := by
  revert k; unfold TakesOctets; decide

/-- A write of octets that nothing keeps back acts. -/
theorem octGuarded_of_clear {h : Hub} {o : Origin} {key n : Nat} {data : List Byte} {act : Hub → Nat × Hub} (hf : h.frozen o = false)
    (hheld : (h.origin o).held = none) (hrights : h.caddyRights o = true) (hrow : TakesOctets key n) (hlen : data.length ≤ n) :
    h.octGuarded o key data act = (act h).2.ret o (act h).1 := by
  obtain ⟨r, hr, hfields⟩ := Option.map_eq_some_iff.1 hrow
  simp only [Prod.mk.injEq] at hfields
  obtain ⟨hacc, hs, hty, hn⟩ := hfields
  have hfits : ¬(n + 1 ≤ data.length) := by omega
  simp [Hub.octGuarded, Hub.octGuardedR, hf, hheld, hrights, hr, hacc, hs, hty, hn, hfits]

/-- A due sample of the straps while the hub waits for them. -/
theorem execStrapSample_of_strap {s : State} (hsampling : s.hub.boot.sampling = true) (hdue : s.hub.due .strap = true)
    (hhold : s.hub.hold = .strap) (balls : BitVec 7) : execStrapSample balls s = s.fresh fun h =>
      if (h.strapSampled balls).boot.sampling then h.strapSampled balls
      else (h.strapSampled balls).startUp (h.strapSampled balls).boot.cause := by
  have hopen : (!s.hub.boot.sampling || !s.hub.due .strap) = false := by simp [hsampling, hdue]
  rw [execStrapSample, hopen, if_neg Bool.false_ne_true, if_neg (by simp [hhold]), if_pos hhold]

/-! ### The families -/

/-- Settles O32: a reset starts over empty stores (`fresh_effect`), and the TAP acts wherever it has supply (`tap_effect`). -/
theorem resetStrapAndJtagCommandsComplete : Obligations.ResetStrapAndJtagCommandsComplete := by
  refine ⟨?pornRelease, ?rstnAssert, ?rstnRelease, ?vddAonUndervoltageReset, ?strapSample, ?jtagBypass, ?jtagIdcode, ?jtagSamplePreload,
    ?jtagExtest, ?blockReset, ?tjSample, ?pornAssert, ?vddAonRestored⟩
  case pornRelease =>
    rintro s testen _ rfl hhold
    exact (if_pos hhold).trans (fresh_effect rfl)
  case rstnAssert =>
    rintro s _ rfl hhold
    exact (if_pos hhold).trans (fresh_effect rfl)
  case rstnRelease =>
    rintro s _ rfl hhold
    exact (if_pos hhold).trans (fresh_effect rfl)
  case vddAonUndervoltageReset =>
    rintro s _ rfl hhold
    exact (if_neg hhold).trans (fresh_effect rfl)
  case strapSample =>
    rintro s balls _ rfl hsampling hdue hhold
    exact (execStrapSample_of_strap hsampling hdue hhold balls).trans (fresh_effect rfl)
  case jtagBypass =>
    rintro s _ rfl hhold haon
    exact tap_effect hhold haon rfl
  case jtagIdcode =>
    rintro s _ rfl hhold haon
    exact tap_effect hhold haon rfl
  case jtagSamplePreload =>
    rintro s pins chain _ rfl hhold
    exact tap_effect (by simp [hhold]) (by simp [hhold]) (if_pos hhold)
  case jtagExtest =>
    rintro s pins _ rfl hhold
    exact tap_effect (by simp [hhold]) (by simp [hhold]) (if_pos hhold)
  case blockReset =>
    intro s o v hr hc g hg
    exact run_guarded_effect hr hc hg
  case tjSample =>
    rintro s sensors hr _ rfl
    exact run_effect hr rfl
  case pornAssert =>
    rintro s _ rfl
    exact fresh_effect (f := fun h => h.intoReset (h.holdAll .porn)) rfl
  case vddAonRestored =>
    rintro s _ rfl hhold
    exact (if_pos hhold).trans (fresh_effect rfl)

/-- Settles O33: each branch is chosen by the conditions of its clause. -/
theorem safetyCommandsComplete : Obligations.SafetyCommandsComplete := by
  refine ⟨?startupSelftestComplete, ?stallDetected, ?lockstepMismatch, ?smWatchdogExpiry, ?safeInAssert, ?safeInDeassert,
    ?safeOutReadback, ?smCauseTaken, ?hardwarePathTrip, ?selftestSlice, ?safeReset, ?ssOpen, ?ssClose, ?ssTimeout, ?freezeRelease,
    ?railBackInWindow, ?smRestart⟩
  case safeReset | ssOpen | ssClose | freezeRelease =>
    intros
    exact run_guarded_effect ‹_› ‹_› ‹_›
  case lockstepMismatch | safeInDeassert | hardwarePathTrip =>
    intros
    subst_vars
    exact run_effect ‹_› rfl
  case stallDetected | ssTimeout =>
    intros
    subst_vars
    exact run_effect ‹_› (if_pos ‹_›)
  case startupSelftestComplete =>
    rintro s fail hr _ rfl hsmRestarting hsafeState hstartupPassed
    exact run_effect hr (by simp only [hsmRestarting, hsafeState, hstartupPassed]; rfl)
  case smWatchdogExpiry =>
    rintro s hr _ rfl hsmRestarting
    exact run_effect hr (if_neg (by simp [hsmRestarting]))
  case safeInAssert =>
    rintro s hr _ rfl hsafeInState
    exact run_effect hr (if_neg (by simp [hsafeInState]))
  case safeOutReadback =>
    rintro s ball hr _ rfl hput hreadbackAfter
    refine run_effect hr (if_neg ?_)
    simp only [hput, Bool.not_true, Bool.false_or, Nat.ble_eq]
    exact Nat.not_le_of_lt (Nat.lt_succ_of_le hreadbackAfter)
  case smCauseTaken =>
    rintro s c rest hr _ rfl hsmRuns hreports
    exact run_effect hr (by simp only [hsmRuns, hreports]; rfl)
  case selftestSlice =>
    rintro s last fail hr _ rfl hsmRuns hsafeState hfail hnextTest
    exact run_effect hr (by simp [hsmRuns, hsafeState, hfail, hnextTest])
  case railBackInWindow =>
    rintro s r uv hr _ rfl hrailWithin
    exact run_effect hr (if_neg (by simp [hrailWithin]))
  case smRestart =>
    rintro s hr _ rfl hdue hsmRestarting
    exact run_effect hr (if_pos (by simp [hdue, hsmRestarting]))

/-- Settles O34: the accesses are the object server's own, and a write that nothing keeps back acts (`run_guarded_effect`). -/
theorem objectCommandsComplete : Obligations.ObjectCommandsComplete := by
  refine ⟨?objectWrite, ?readClearObjectRead, ?mmioLowWordRead, ?mmioLowWordWrite, ?mmioHighWordWrite, ?storeCmd, ?restoreCmd,
    ?groupStageWrite, ?groupCommit, ?groupAbort, ?groupExpired, ?timeLatchRead, ?tgtClaim, ?domainWakeReady⟩
  case storeCmd | restoreCmd | groupStageWrite | groupCommit | groupAbort =>
    intros
    exact run_guarded_effect ‹_› ‹_› ‹_›
  case objectWrite | readClearObjectRead | mmioLowWordRead | mmioLowWordWrite | mmioHighWordWrite | timeLatchRead =>
    intros
    subst_vars
    exact run_effect ‹_› rfl
  case groupExpired | domainWakeReady =>
    intros
    subst_vars
    exact run_effect ‹_› (if_pos ‹_›)
  case tgtClaim =>
    rintro s o t hr _ rfl hfrozen
    exact run_effect hr (if_neg (by simp [hfrozen]))

/-- Settles O35: a channel's commands are writes of its control object and accesses of its data window. -/
theorem segmentCommandsComplete : Obligations.SegmentCommandsComplete := by
  refine ⟨?segOpenRead, ?segOpenWrite, ?segCloseApply, ?segAbort, ?segDataLastRead, ?segDataLastWrite, ?segmentExpired⟩
  case segOpenRead | segOpenWrite | segCloseApply | segAbort | segDataLastRead | segDataLastWrite =>
    intros
    subst_vars
    exact run_effect ‹_› rfl
  case segmentExpired =>
    rintro s ch hr _ rfl hdue
    exact run_effect hr (if_pos hdue)

/-- Settles O36: each HOP operation in the branch its frame and the subscriptions choose. -/
theorem hopCommandsComplete : Obligations.HopCommandsComplete := by
  refine ⟨?storeComplete, ?hopFrameRx, ?hopRead, ?hopWrite, ?hopCommit, ?hopStore, ?hopSubscribe, ?hopNotify, ?hopResponseRx,
    ?hopFwdTimeout, ?railOutOfWindow⟩
  case hopFrameRx | hopRead | hopWrite | hopCommit | hopSubscribe =>
    intros
    subst_vars
    exact run_effect ‹_› rfl
  case hopStore | hopResponseRx | hopFwdTimeout =>
    intros
    subst_vars
    exact run_effect ‹_› (if_pos ‹_›)
  case storeComplete =>
    rintro s fault hr _ rfl hstoreRun
    exact run_effect hr (if_neg hstoreRun)
  case hopNotify =>
    rintro s id x k hr _ rfl hsubs hx hslotMac hhopDue
    exact run_effect hr (by simp only [hsubs, hx, hslotMac, hhopDue]; rfl)
  case railOutOfWindow =>
    rintro s r uv hr _ rfl hrailsOut hrailWithin
    exact run_effect hr (by simp only [hrailsOut, hrailWithin]; rfl)

/-- Settles O37: each access of the bridge in the branch that is ready for it. -/
theorem bridgeCommandsComplete : Obligations.BridgeCommandsComplete := by
  refine ⟨?windowRead, ?windowWrite, ?prefetchIdleTimeout, ?remoteBridgeRequestRx, ?remoteResultRx, ?remoteTimeout, ?npRetryReissue,
    ?mpRead, ?mpWrite, ?memberIrqMessageRx, ?sbPoll, ?pcieTlpIngress⟩
  case windowRead | windowWrite | remoteBridgeRequestRx | mpRead | mpWrite | pcieTlpIngress =>
    intros
    subst_vars
    exact run_effect ‹_› rfl
  case prefetchIdleTimeout | remoteResultRx | remoteTimeout | npRetryReissue | memberIrqMessageRx =>
    intros
    subst_vars
    exact run_effect ‹_› (if_pos ‹_›)
  case sbPoll =>
    rintro s pending rps joined left hr _ rfl hheadsUnit hsbPollPeriod
    exact run_effect hr (if_pos (by simp [hheadsUnit, hsbPollPeriod]))

/-- Settles O38: a content given with the command is the control cell taken (`ctrlTake_of_type`). -/
theorem trunkLinkCommandsComplete : Obligations.TrunkLinkCommandsComplete := by
  refine ⟨?trainingStart, ?trainingFrameRx, ?trainingFaultTimeout, ?pathWaitExpired, ?backoffWaitExpiry, ?retrainCmd, ?refPllLock,
    ?codewordRx, ?fecDegraded, ?markerRx, ?markerMissed, ?alignmentLoss, ?cellRx, ?noSignal, ?controlCellTimeout, ?retrainCellRx,
    ?singleLaneRetrainStart, ?eqBackchannelRx, ?singleLaneRetrainEnd, ?ctleAdaptStep, ?turnaroundFailed⟩
  case trainingStart | trainingFrameRx | trainingFaultTimeout | codewordRx | fecDegraded | markerRx | cellRx | eqBackchannelRx |
      singleLaneRetrainEnd | ctleAdaptStep =>
    intros
    subst_vars
    exact run_effect ‹_› rfl
  case pathWaitExpired | backoffWaitExpiry | refPllLock | controlCellTimeout | singleLaneRetrainStart | turnaroundFailed =>
    intros
    subst_vars
    exact run_effect ‹_› (if_pos ‹_›)
  case retrainCmd =>
    intro s o p v hr hc g hg
    exact run_guarded_effect hr hc hg
  case markerMissed =>
    rintro s p l hr _ rfl hlinkUp hlaneState hreceives
    exact run_effect hr (if_neg (by simp [hlinkUp, hlaneState, hreceives]))
  case alignmentLoss =>
    rintro s p l phase hr _ rfl hlinkUp hlaneState hreceives
    exact run_effect hr (if_neg (by simp [hlinkUp, hlaneState, hreceives]))
  case noSignal =>
    rintro s p l hr _ rfl hlinkUp hlaneState hreceives
    exact run_effect hr (if_pos (by simp [hlinkUp, hlaneState, hreceives]))
  case retrainCellRx =>
    rintro s p content c hr _ rfl hcontent hbyteAt
    exact run_effect hr (by simp only [hcontent, ctrlTake_of_type hbyteAt])

/-- Settles O39: test modes and scans are writes of their control objects. -/
theorem trunkTestCommandsComplete : Obligations.TrunkTestCommandsComplete := by
  refine ⟨?testModeInService, ?testModeSerialLoop, ?testModeParallelLoop, ?testModeFarLoop, ?farLoopRequestRx, ?farLoopTimeout, ?tstStart,
    ?tstStop, ?tstInjectError, ?eyeScanStart, ?eyeScanAbort, ?eyePointDone⟩
  case testModeInService | testModeSerialLoop | testModeParallelLoop | testModeFarLoop | tstStart | tstStop | tstInjectError |
      eyeScanStart | eyeScanAbort =>
    intros
    exact run_guarded_effect ‹_› ‹_› ‹_›
  case farLoopTimeout | eyePointDone =>
    intros
    subst_vars
    exact run_effect ‹_› (if_pos ‹_›)
  case farLoopRequestRx =>
    rintro s p content c hr _ rfl hcontent hbyteAt
    exact run_effect hr (by simp only [hcontent, ctrlTake_of_type hbyteAt])

/-- Settles O40: a content given with the command is the control or swap cell taken. -/
theorem allotmentCommandsComplete : Obligations.AllotmentCommandsComplete := by
  refine ⟨?rootEpochControlSend, ?epochControlRx, ?reportMissing, ?planChoice, ?planLate, ?swapCmd, ?swapHoldExpiry, ?swapRequestRx,
    ?swapAcceptRx, ?swapRefuseRx, ?swapNoReply, ?phaseChange, ?phaseIntervalExpiry, ?keyPhaseAnnounceRx⟩
  case swapCmd | phaseChange =>
    intros
    exact run_guarded_effect ‹_› ‹_› ‹_›
  case rootEpochControlSend | reportMissing =>
    intros
    subst_vars
    exact run_effect ‹_› (if_pos ‹_›)
  case epochControlRx =>
    rintro s p content c hr _ rfl hcontent hbyteAt
    exact run_effect hr (by simp only [hcontent, ctrlTake_of_type hbyteAt])
  case planChoice =>
    rintro s o p v hr hc _ rfl hisPlanner g hg
    exact run_effect hr ((if_pos hisPlanner).trans (guarded_of_clear hc hg))
  case planLate =>
    rintro s p hr _ rfl hdue hlinkUp htrunkEnd hchoice hallotMode
    have hlate : (s.now.due (.planDeadline p) && s.now.linkUp p && s.now.trunkEnd p == 1) = true := by simp [hdue, hlinkUp, htrunkEnd]
    have hopen : (s.now.links[p].choice.isSome || s.now.eff (Obj.ALLOT_MODE p) == 1) = false := by rw [hchoice]; simp [hallotMode]
    exact run_effect hr ((if_pos hlate).trans (if_neg (Bool.eq_false_iff.1 hopen)))
  case swapHoldExpiry =>
    rintro s p t hr _ rfl hswapSince hlinkUp hswapAuto hevalEnd htrunkEnd hswapAt ht
    exact run_effect hr (by simp [-Fin.getElem_fin, Hub.swapHold, hswapSince, hlinkUp, hswapAuto, hevalEnd, htrunkEnd, hswapAt, ht])
  case swapRequestRx =>
    rintro s p content c hr _ rfl hcontent hbyteAt hbyteAt2
    exact run_effect hr (by simp only [hcontent, swapTake_of_kind hbyteAt hbyteAt2])
  case swapAcceptRx =>
    rintro s p content c hr _ rfl hcontent hbyteAt hbyteAt2
    exact run_effect hr (by simp only [hcontent, swapTake_of_kind hbyteAt hbyteAt2])
  case swapRefuseRx =>
    rintro s p content c hr _ rfl hcontent hbyteAt hbyteAt2
    exact run_effect hr (by simp only [hcontent, swapTake_of_kind hbyteAt hbyteAt2])
  case swapNoReply =>
    rintro s p a b t hr _ rfl hswapReq ht
    refine run_effect hr ?_
    rw [Hub.swapNoReply, hswapReq]
    exact if_pos ht
  case phaseIntervalExpiry =>
    rintro s p hr _ rfl
    exact run_effect hr rfl
  case keyPhaseAnnounceRx =>
    rintro s p content c hr _ rfl hcontent hbyteAt
    exact run_effect hr (by simp only [hcontent, ctrlTake_of_type hbyteAt])

/-- Settles O41: each step of the switch core in the branch its store and slots choose. -/
theorem blendCommandsComplete : Obligations.BlendCommandsComplete := by
  refine ⟨?cellIngress, ?spillReadback, ?blendSlot, ?tunFloorWrite, ?gateCycleStart, ?gateEntryChange⟩
  case cellIngress | blendSlot | gateCycleStart | gateEntryChange =>
    intros
    subst_vars
    exact run_effect ‹_› rfl
  case spillReadback =>
    rintro s i hr _ rfl hstaged hspillBusy hdomOn hspillRoom hfirstBelow
    have hroom : Nat.ble 1024 s.now.staged_ = false := Bool.eq_false_iff.2 fun hle => Nat.not_le.2 hstaged (Nat.le_of_ble_eq_true hle)
    refine run_effect hr ?_
    rw [Hub.spillReadback, if_neg (by simp [hroom, hspillBusy, hdomOn, hspillRoom]), hfirstBelow]
  case tunFloorWrite =>
    intro s o t v hr hc g hg
    exact run_guarded_effect hr hc hg

/-- Settles O42: tunnels, links and DMA channels in the branch their state chooses. -/
theorem pcieCommandsComplete : Obligations.PcieCommandsComplete := by
  refine ⟨?pcieTlpEgress, ?fenceRelease, ?creditCellRx, ?creditCellSend, ?pcieResetMessageRx, ?upstreamReset, ?upstreamLinkUp,
    ?pcieDlChange, ?npTimeout, ?completionRx, ?dmaTailWrite, ?dmaDescriptorFetch, ?dmaFault⟩
  case pcieTlpEgress | fenceRelease | creditCellRx | creditCellSend | pcieResetMessageRx | upstreamReset | upstreamLinkUp | completionRx |
      dmaDescriptorFetch =>
    intros
    subst_vars
    exact run_effect ‹_› rfl
  case pcieDlChange =>
    rintro s unit port link speed width hr _ rfl hunit
    refine run_effect hr ?_
    by_cases hown : unit = Config.unitId
    · exact (if_pos hown).trans (if_pos hown).symm
    · exact (if_neg hown).trans ((if_pos (hunit.resolve_left hown)).trans (if_neg hown).symm)
  case npTimeout =>
    rintro s id e hr _ rfl hdue hnp
    exact run_effect hr (by simp only [hdue, hnp]; rfl)
  case dmaTailWrite =>
    intro s o ch v hr hc g hg
    exact run_guarded_effect hr hc hg
  case dmaFault =>
    rintro s ch hr _ rfl hdmaEnable
    exact run_effect hr (if_pos hdmaEnable)

/-- Settles O43: a packet whose header is taken goes on from what the header left (`csiHeader_of_taken`). -/
theorem cameraCommandsComplete : Obligations.CameraCommandsComplete := by
  refine ⟨?csiFrameStart, ?csiLinePacket, ?csiFrameEnd, ?feTimeout, ?trigGroupApply, ?triggerEdge, ?triggerPulseEnd, ?csiStopState⟩
  case feTimeout | triggerPulseEnd =>
    intros
    subst_vars
    exact run_effect ‹_› (if_pos ‹_›)
  case csiFrameStart =>
    rintro s c vc k num hr _ rfl hcsiHeader
    exact run_effect hr (by rw [csiHeader_of_taken hcsiHeader])
  case csiLinePacket =>
    rintro s c vc k dt data crcOk hr _ rfl hcsiHeader
    exact run_effect hr (by rw [csiHeader_of_taken hcsiHeader])
  case csiFrameEnd =>
    rintro s c vc k hr _ rfl hcsiHeader
    exact run_effect hr (by rw [csiHeader_of_taken hcsiHeader])
  case trigGroupApply =>
    rintro s t hr _ rfl hdue hpulse
    exact run_effect hr (by simp only [hdue, hpulse]; rfl)
  case triggerEdge =>
    rintro s t hr _ rfl hruns hpulse htrigAt hdomOn
    exact run_effect hr (if_pos (by simp [-Fin.getElem_fin, hruns, hpulse, htrigAt, hdomOn]))
  case csiStopState =>
    rintro s c stop fault rate hr _ rfl hcsiState hdomOn
    exact run_effect hr (if_neg (by simp [hcsiState, hdomOn]))

/-- Settles O44: each pipeline in the branch its link and self-refresh state choose. -/
theorem displayCommandsComplete : Obligations.DisplayCommandsComplete := by
  refine ⟨?hpdLongPulse, ?irqHpd, ?dispEnableWrite, ?edpHpdTimeout, ?edpBacklightTimer, ?updateRecordRx, ?flipCmd, ?commitWindowOpen,
    ?flipCarryEnd, ?dispUnderrun, ?srEntryReport, ?srEntryFailed, ?srUpdateFrameSent, ?srExitComplete, ?dispLinkTrained⟩
  case dispEnableWrite | flipCmd =>
    intros
    exact run_guarded_effect ‹_› ‹_› ‹_›
  case edpHpdTimeout | updateRecordRx | commitWindowOpen | flipCarryEnd | srEntryReport | srEntryFailed | srUpdateFrameSent |
      srExitComplete =>
    intros
    subst_vars
    exact run_effect ‹_› (if_pos ‹_›)
  case hpdLongPulse =>
    rintro s p high hr _ rfl hdomOn hdispEnable
    refine run_effect hr ((if_neg (by simp [hdomOn])).trans ?_)
    cases high with
    | false => rfl
    | true => exact if_pos hdispEnable
  case irqHpd =>
    rintro s p lost hr _ rfl hbump
    exact run_effect hr (if_neg (by simp [hbump]))
  case edpBacklightTimer =>
    rintro s hr _ rfl hdue
    exact run_effect hr (if_neg (by simp [hdue]))
  case dispUnderrun =>
    rintro s p line x hr _ rfl hruns hdomOn hline hx
    have hin : ¬((!s.now.disp[p].runs || !s.now.domOn 19 || s.now.get (Obj.V_ACTIVE p) ≤ line.toNat || s.now.get (Obj.H_ACTIVE p) ≤ x.toNat) =
        true) := by simp [-Fin.getElem_fin, hruns, hdomOn, hline, hx]
    refine run_effect hr ((if_neg hin).trans ?_)
    simp only [Hub.bump_disp, Hub.emit_disp]
  case dispLinkTrained =>
    rintro s p rates works lanes srBest yGran edid w hr _ rfl hdomOn hdispLink hworks
    exact run_effect hr (by simp [hdomOn, hdispLink, hworks])

/-- Settles O45: each clock and port in the branch its timers and state choose. -/
theorem networkTimeAndEpochCommandsComplete : Obligations.NetworkTimeAndEpochCommandsComplete := by
  refine ⟨?refRelock, ?ethFrameRx, ?ethEgressReassembly, ?mdioRead, ?mdioWrite, ?gptpSample, ?timeCounterStart, ?timeExchangeSend,
    ?timeExchangeRx, ?servoSampleTimeout, ?servoHoldoverLimit, ?ppsOutEdge, ?ppsInEdge, ?etsConfigChange, ?etsGateEntryChange,
    ?ethPhyLinkChange, ?mdioComplete, ?epochBoundary⟩
  case mdioRead | mdioWrite =>
    intros
    exact run_guarded_effect ‹_› ‹_› ‹_›
  case ethFrameRx | ethEgressReassembly | timeExchangeRx | ppsOutEdge | ppsInEdge | etsConfigChange | etsGateEntryChange |
      ethPhyLinkChange =>
    intros
    subst_vars
    exact run_effect ‹_› rfl
  case servoHoldoverLimit | epochBoundary =>
    intros
    subst_vars
    exact run_effect ‹_› (if_pos ‹_›)
  case refRelock =>
    rintro s p hr _ rfl hleafClock htkRefSource
    exact run_effect hr ((if_pos (by simpa [or_assoc] using htkRefSource)).trans (if_pos hleafClock))
  case gptpSample =>
    rintro s o v slave hr hc _ rfl hisPtp g hg
    exact run_effect hr ((if_neg (by simp [hisPtp])).trans (guarded_of_clear hc hg))
  case timeCounterStart =>
    rintro s hr _ rfl hnetRuns
    exact run_effect hr (if_neg (by simp [hnetRuns]))
  case timeExchangeSend =>
    rintro s p hr _ rfl hlinkUp hdue
    exact run_effect hr (if_pos (by simp [hlinkUp, hdue]))
  case servoSampleTimeout =>
    rintro s hr _ rfl hdue htimeState
    exact run_effect hr (by simp [hdue, htimeState])
  case mdioComplete =>
    rintro s e data hr _ rfl hbitOf
    exact run_effect hr (if_neg (by simp [hbitOf]))

/-- Settles O46: the cycles of motion and of the axis links are functions of the hub alone. -/
theorem motionCommandsComplete : Obligations.MotionCommandsComplete := by
  refine ⟨?motionCycleStart, ?commandDue, ?axlLinkStart, ?axlResponseFrameRx, ?responseCellPresent, ?axlLinkCycleEnd, ?motionCellRx,
    ?responseDue, ?motionSafeStop⟩
  case motionCycleStart | commandDue | axlLinkStart | axlResponseFrameRx | responseCellPresent | axlLinkCycleEnd | responseDue =>
    intros
    subst_vars
    exact run_effect ‹_› rfl
  case motionCellRx =>
    rintro s cell hr _ rfl hdomOn
    exact run_effect hr (if_neg (by simp [hdomOn]))
  case motionSafeStop =>
    rintro s hr _ rfl hrequest
    exact run_effect hr (if_neg (by simp [hrequest]))

/-- Settles O47: a write to the powered peripheral region acts (`regionGuard_of_on`). -/
theorem gpioAndMasterCommandsComplete : Obligations.GpioAndMasterCommandsComplete := by
  refine ⟨?gpioOutWrite, ?gpioSet, ?gpioClr, ?gpioSample, ?gpioChangeReportSend, ?gpioReportPeriod, ?gpioChangeReportRx, ?gpioOutputCmdRx,
    ?gpioTimedCmdApply, ?periphGo, ?periphRequestRx, ?pollDue, ?transactionListComplete⟩
  case gpioSample | transactionListComplete =>
    intros
    subst_vars
    exact run_effect ‹_› rfl
  case gpioChangeReportSend | gpioTimedCmdApply =>
    intros
    subst_vars
    exact run_effect ‹_› (if_pos ‹_›)
  case gpioOutWrite =>
    rintro s o v hr _ rfl hfrozen hdomOn
    exact run_effect hr (regionGuard_of_on hfrozen hdomOn _ _)
  case gpioSet =>
    rintro s o v hr _ rfl hfrozen hdomOn
    exact run_effect hr (regionGuard_of_on hfrozen hdomOn _ _)
  case gpioClr =>
    rintro s o v hr _ rfl hfrozen hdomOn
    exact run_effect hr (regionGuard_of_on hfrozen hdomOn _ _)
  case gpioReportPeriod =>
    rintro s hr _ rfl hdomOn _ hdue
    exact run_effect hr (by simp only [hdomOn, hdue]; rfl)
  case gpioChangeReportRx =>
    rintro s content hr _ rfl hdomOn
    exact run_effect hr (if_neg (by simp [hdomOn]))
  case gpioOutputCmdRx =>
    rintro s content hr _ rfl hdomOn
    exact run_effect hr (if_neg (by simp [hdomOn]))
  case periphGo =>
    rintro s o m v hr _ rfl hfrozen hdomOn
    exact run_effect hr (regionGuard_of_on hfrozen hdomOn _ _)
  case periphRequestRx =>
    rintro s m content hr _ rfl hdomOn
    exact run_effect hr (if_neg (by simp [hdomOn]))
  case pollDue =>
    rintro s e hr _ rfl hdue hdomOn
    exact run_effect hr (if_pos (by simp only [hdue, hdomOn]; rfl))

/-- Settles O48: an access of the powered peripheral region acts (`regionGuard_of_on`, `regionWake_of_on`). -/
theorem uartCommandsComplete : Obligations.UartCommandsComplete := by
  refine ⟨?uartDataRead, ?uartDataWrite, ?uartByteRx, ?uartIdleFlush, ?uartDataMessageRx, ?uartCreditMessageRx, ?uartGroupApply,
    ?uartCharacterSent⟩
  case uartByteRx | uartIdleFlush =>
    intros
    subst_vars
    exact run_effect ‹_› (if_pos ‹_›)
  case uartDataRead =>
    rintro s o n hr _ rfl hfrozen hdomOn
    exact run_effect hr (by simp [regionWake_of_on hdomOn, hfrozen, hdomOn])
  case uartDataWrite =>
    rintro s o n v hr _ rfl hfrozen hdomOn
    exact run_effect hr (regionGuard_of_on hfrozen hdomOn _ _)
  case uartDataMessageRx =>
    rintro s n content hr _ rfl hdomOn
    exact run_effect hr (if_neg (by simp [hdomOn]))
  case uartCreditMessageRx =>
    rintro s n content hr _ rfl hdomOn
    exact run_effect hr (if_neg (by simp [hdomOn]))
  case uartGroupApply =>
    rintro s n rxIdle hr _ rfl hrxIdle huarts
    exact run_effect hr (if_pos (by simp [-Fin.getElem_fin, hrxIdle, huarts]))
  case uartCharacterSent =>
    rintro s n cts hr _ rfl
    exact run_effect hr rfl

/-- Settles O49: each port in the branch its state and timers choose. -/
theorem usbCommandsComplete : Obligations.UsbCommandsComplete := by
  refine ⟨?usbProxyTransaction, ?usbOvercurrent, ?usbSuspend, ?usbResume, ?usbSetupRx, ?usbBusReset, ?devWake, ?wakeDriveStart,
    ?wakeDriveEnd, ?wakeSuperseded, ?usbUpstreamAttach, ?usbPortConnectChange, ?usbTunnelMessageRx, ?usbDeviceTransfer⟩
  case usbProxyTransaction | usbSuspend | usbResume | usbSetupRx | usbBusReset | wakeSuperseded | usbUpstreamAttach | usbTunnelMessageRx |
      usbDeviceTransfer =>
    intros
    subst_vars
    exact run_effect ‹_› rfl
  case usbOvercurrent | wakeDriveStart | wakeDriveEnd =>
    intros
    subst_vars
    exact run_effect ‹_› (if_pos ‹_›)
  case devWake =>
    intro s o v hr hc g hg
    exact run_guarded_effect hr hc hg
  case usbPortConnectChange =>
    rintro s port connected speed hr _ rfl hport
    exact run_effect hr (if_neg fun hthird => hport hthird.1)

/-- Settles O50: an engine in the branch its state chooses; the raises are writes. -/
theorem engineAndInterruptCommandsComplete : Obligations.EngineAndInterruptCommandsComplete := by
  refine ⟨?engineInstruction, ?engineWfi, ?engineWake, ?mtimecmpMatch, ?tgtComplete, ?icRaise, ?icPendingWrite⟩
  case tgtComplete | icRaise | icPendingWrite =>
    intros
    exact run_guarded_effect ‹_› ‹_› ‹_›
  case engineInstruction =>
    rintro s e ecc below hr _ rfl hengState hengs hdomOn hecc
    exact run_effect hr (by simp only [hengState, hengs, hdomOn, hecc]; rfl)
  case engineWfi =>
    rintro s e hr _ rfl hengState hengs hengs2
    exact run_effect hr (by simp only [hengState, hengs, hengs2]; rfl)
  case engineWake =>
    rintro s e hr _ rfl
    exact run_effect hr rfl
  case mtimecmpMatch =>
    rintro s e hr _ rfl hengs
    exact run_effect hr (if_pos hengs)

/-- Settles O51: control writes act, and a load goes on in the branch its check chooses. -/
theorem firmwareCommandsComplete : Obligations.FirmwareCommandsComplete := by
  refine ⟨?engineWatchdogExpiry, ?engRunWrite, ?engKick, ?engReset, ?qSwWrite, ?engineQueueTransmit, ?rootPortMsiWrite, ?fwLoadVendor,
    ?fwLoadSandbox, ?fwImageVerified⟩
  case engRunWrite | engKick | engReset | qSwWrite | fwLoadVendor | fwLoadSandbox =>
    intros
    exact run_guarded_effect ‹_› ‹_› ‹_›
  case engineWatchdogExpiry =>
    rintro s e hr _ rfl hdue
    exact run_effect hr (if_pos hdue)
  case engineQueueTransmit =>
    rintro s hr _ rfl
    exact run_effect hr rfl
  case rootPortMsiWrite =>
    rintro s port write addr req tag tc hr _ rfl hengineOwned hwrite haddr h0xFEE00000 haddr2
    exact run_effect hr (by simp [hengineOwned, hwrite, haddr, h0xFEE00000, haddr2])
  case fwImageVerified =>
    rintro s sandbox done a b hr _ rfl hsandbox hfw hdone
    exact run_effect hr (by simp [hsandbox, hfw, hdone])

/-- Settles O52: each clock in the branch its monitor and timers choose. -/
theorem clockCommandsComplete : Obligations.ClockCommandsComplete := by
  refine ⟨?clockMonitorTrip, ?clockQualified, ?rcQualTimeout, ?clockRequalified, ?cdDivSetWrite, ?dividerRampStep, ?rcTrimStep,
    ?refclkHoldoverSteer⟩
  case dividerRampStep | refclkHoldoverSteer =>
    intros
    subst_vars
    exact run_effect ‹_› (if_pos ‹_›)
  case clockMonitorTrip =>
    rintro s clk cause hr _ rfl hmonitored hcause hcause2
    exact run_effect hr (by simp [hmonitored, hcause, hcause2])
  case clockQualified =>
    rintro s clk hr _ rfl hbitOf hpllReference hunqualified
    exact run_effect hr (if_neg (by simp [hbitOf, hpllReference, hunqualified]))
  case rcQualTimeout =>
    rintro s hr _ rfl hdue
    exact run_effect hr (if_neg (by simp [hdue]))
  case clockRequalified =>
    rintro s clk hr _ rfl hbitOf hpllReference
    exact run_effect hr (if_neg (by simp [hbitOf, hpllReference]))
  case cdDivSetWrite =>
    intro s o d v hr hc g hg
    exact run_guarded_effect hr hc hg
  case rcTrimStep =>
    rintro s up hr _ rfl hdue htrimSource hup _ hrcTrim
    exact run_effect hr (by simp only [hdue, htrimSource, hup, hrcTrim]; rfl)

/-- Settles O53: each domain, level and window in the branch its state and timers choose. -/
theorem powerCommandsComplete : Obligations.PowerCommandsComplete := by
  refine ⟨?domainWake, ?domainWakeLate, ?domainIdleTimeout, ?scheduledWake, ?plChange, ?dramRateChange, ?simmerEvaluate, ?sensorRaise,
    ?avsResponseRx, ?avsAckTimeout, ?vcoreSettleCheck, ?avsRestore, ?enStart, ?enStop, ?enWindowEnd, ?domainRestEntered⟩
  case avsRestore | enStart | enStop =>
    intros
    exact run_guarded_effect ‹_› ‹_› ‹_›
  case domainWake | simmerEvaluate | sensorRaise =>
    intros
    subst_vars
    exact run_effect ‹_› rfl
  case domainWakeLate =>
    rintro s d hr _ rfl hdue hdomState hdoms
    exact run_effect hr (by simp only [hdue, hdomState, hdoms]; rfl)
  case domainIdleTimeout =>
    rintro s d hr _ rfl hdue hneeded hrestState
    exact run_effect hr (if_pos (by simp [hdue, hneeded, hrestState]))
  case scheduledWake =>
    rintro s d hr _ rfl hdue hc2
    exact run_effect hr (by simp only [hdue, hc2]; rfl)
  case plChange =>
    rintro s hr _ rfl hput hsim hput2
    exact run_effect hr (by simp [hput, hsim, hput2])
  case dramRateChange =>
    rintro s measured t hr _ rfl hsim ht
    exact run_effect hr (by simp [hsim, Nat.not_lt.2 ht])
  case avsResponseRx =>
    rintro s crcOk ack vdone val q hr _ rfl hsim hcrcOk
    exact run_effect hr (by simp only [hsim, hcrcOk]; rfl)
  case avsAckTimeout =>
    rintro s q hr _ rfl hdue hsim hsim2 hsetSim
    exact run_effect hr (by simp only [hdue, hsim, hsim2, hsetSim]; rfl)
  case vcoreSettleCheck =>
    rintro s measured hr _ rfl hdue hnear15
    exact run_effect hr (by simp only [hdue, hnear15]; rfl)
  case enWindowEnd =>
    rintro s trunk hr _ rfl hdue henStatus
    exact run_effect hr (if_pos (by simp only [hdue, henStatus]; rfl))
  case domainRestEntered =>
    rintro s d hr _ rfl hdomState
    exact run_effect hr (if_neg (by simp [hdomState]))

/-- Settles O54: each message in the branch the port's state and its open question choose. -/
theorem pdContractCommandsComplete : Obligations.PdContractCommandsComplete := by
  refine ⟨?pdAttach, ?pdDetach, ?drpToggle, ?sourceCapabilitiesSend, ?sourceCapabilitiesRx, ?requestRx, ?acceptRx, ?rejectRx, ?waitRx,
    ?waitRetry, ?pdTransitionCodeSet, ?vbusSettled, ?psRdyRx, ?psRdyTimeout, ?vbusSettleTimeout, ?getSourceCapCmd, ?contractStableTimer⟩
  case waitRetry | psRdyTimeout | vbusSettleTimeout | contractStableTimer =>
    intros
    subst_vars
    exact kept_effect ‹_› (if_pos ‹_›)
  case pdAttach =>
    rintro s p farRp _ rfl hkettleOff hsetFed hsetFed2
    refine (if_neg (Bool.eq_false_iff.1 hkettleOff)).trans (always_effect ((if_neg (not_or.2 ⟨not_not_intro hsetFed, hsetFed2⟩)).trans ?_))
    cases farRp <;> rfl
  case pdDetach =>
    rintro s p _ rfl hkettleOff
    exact (if_neg (Bool.eq_false_iff.1 hkettleOff)).trans (always_effect rfl)
  case drpToggle =>
    rintro s p hr _ rfl hpdState hkettleOff hpowerCap hdue
    exact kept_effect hr (if_pos (by simp [hpdState, hkettleOff, hpowerCap, hdue]))
  case sourceCapabilitiesSend =>
    rintro s p good hr _ rfl hpdBack hpdBack2 hpdBack3 hpdBack4 hgood
    exact kept_effect hr (by simp only [hpdBack, hpdBack2, hpdBack3, hpdBack4, hgood]; rfl)
  case sourceCapabilitiesRx =>
    rintro s p epr caps hr _ rfl hisSink hpdState hepr
    have hnot : ¬((!s.now.isSink p) = true ∨ (s.now.pdState p ≠ 2 ∧ s.now.pdState p ≠ 3)) := by
      rcases hpdState with hpdState | hpdState <;> simp [hisSink, hpdState]
    subst hepr
    exact kept_effect hr (if_neg hnot)
  case requestRx =>
    rintro s p pos ma x hr _ rfl hisSource hpdState hoffered
    have hnot : ¬((!s.now.isSource p) = true ∨ (s.now.pdState p ≠ 2 ∧ s.now.pdState p ≠ 3)) := by
      rcases hpdState with hpdState | hpdState <;> simp [hisSource, hpdState]
    exact kept_effect hr ((if_neg hnot).trans (by rw [hoffered]))
  case acceptRx =>
    rintro s p k hr _ rfl hask
    exact kept_effect hr (by rw [hask])
  case rejectRx =>
    rintro s p hr _ rfl hask
    exact kept_effect hr (by rw [hask])
  case waitRx =>
    rintro s p hr _ rfl hask hpdWaitMax
    refine kept_effect hr ((if_pos (.inl hask)).trans (if_neg ?_))
    rintro ⟨hmax, -⟩
    exact hmax hpdWaitMax
  case pdTransitionCodeSet =>
    rintro s p x hr _ rfl hdue hnext
    exact kept_effect hr (by rw [hdue, hnext])
  case vbusSettled =>
    rintro s p mv n hr _ rfl hpdState hnext hisSource harmed hwithinFive
    exact kept_effect hr (by simp only [hpdState, hnext, hisSource, harmed, hwithinFive]; rfl)
  case psRdyRx =>
    rintro s p n hr _ rfl hpdState hnext hisSink
    exact kept_effect hr (by simp only [hpdState, hnext, hisSink]; rfl)
  case getSourceCapCmd =>
    intro s o p hr hc g hg
    exact run_guarded_effect hr hc hg

/-- Settles O55: each message in the branch the port's state and its mode choose. -/
theorem pdModeCommandsComplete : Obligations.PdModeCommandsComplete := by
  refine ⟨?eprModeEnterRx, ?eprKeepaliveSend, ?eprKeepaliveTimeout, ?discoverIdentityRx, ?discoverSvidsRx, ?discoverModesRx, ?enterModeRx,
    ?exitModeRx, ?vdmResponseRx, ?pdCableMaxMaWrite⟩
  case discoverIdentityRx | discoverSvidsRx | discoverModesRx | enterModeRx | exitModeRx =>
    intros
    subst_vars
    exact kept_effect ‹_› rfl
  case eprKeepaliveSend | eprKeepaliveTimeout =>
    intros
    subst_vars
    exact kept_effect ‹_› (if_pos ‹_›)
  case eprModeEnterRx =>
    rintro s p hr _ rfl hisSource hpdState
    exact kept_effect hr (if_neg (by simp [hisSource, hpdState]))
  case vdmResponseRx =>
    rintro s p answer svid hr _ rfl hvdm hpdDataRole hanswer
    exact kept_effect hr (by simp only [hvdm, hpdDataRole, hanswer]; rfl)
  case pdCableMaxMaWrite =>
    intro s o p v hr hc g hg
    exact run_guarded_effect hr hc hg

/-- Settles O56: each swap and reset in the branch the port's state and role choose. -/
theorem pdSwapAndResetCommandsComplete : Obligations.PdSwapAndResetCommandsComplete := by
  refine ⟨?prSwapCmd, ?drSwapCmd, ?hardResetCmd, ?prSwapRx, ?drSwapRx, ?frSwapSignalRx, ?hardResetRx, ?hardResetReclose, ?feedLoss,
    ?sinkTxOk, ?goodcrcTimeout, ?frsVbusFall, ?hardResetVbusReturn⟩
  case prSwapCmd | drSwapCmd | hardResetCmd =>
    intros
    exact run_guarded_effect ‹_› ‹_› ‹_›
  case frSwapSignalRx | hardResetReclose | hardResetVbusReturn =>
    intros
    subst_vars
    exact kept_effect ‹_› (if_pos ‹_›)
  case prSwapRx =>
    rintro s p hr _ rfl hpdState hswap hpdPrSwapAccept hpdPowerCap hhasCode
    exact kept_effect hr (by simp only [hpdState, hswap, hpdPrSwapAccept, hpdPowerCap, hhasCode]; rfl)
  case drSwapRx =>
    rintro s p hr _ rfl hpdState hpdMode
    exact kept_effect hr (by simp only [hpdState, hpdMode]; rfl)
  case hardResetRx =>
    rintro s p hr _ rfl _ _
    exact kept_effect hr rfl
  case feedLoss =>
    rintro s voutMv sinks hr _ rfl hfeedInUse hfeedValid hvoutMv hloss
    have hbelow : Nat.ble (voutMv.toNat + 1) (s.now.get (feedKey 0 Obj.FA_UV)) = true := Nat.ble_eq_true_of_le hvoutMv
    exact kept_effect hr (if_neg (by simp [hfeedInUse, hfeedValid, hbelow, hloss]))
  case sinkTxOk =>
    rintro s p a rest hr _ rfl hcmds hpdRuns
    exact kept_effect hr (by rw [Hub.pdRelease, hcmds]; simp only [hpdRuns]; rfl)
  case goodcrcTimeout =>
    rintro s p m hr _ rfl hlast hretries
    exact kept_effect hr (by simp only [hlast, hretries]; rfl)
  case frsVbusFall =>
    rintro s p hr _ rfl hfrsArmed hpdState
    exact kept_effect hr (if_pos ⟨hfrsArmed, hpdState⟩)

/-- Settles O57: each slot in the branch its state and timers choose. -/
theorem slotCommandsComplete : Obligations.SlotCommandsComplete := by
  refine ⟨?slotEnableWrite, ?seatChange, ?seatDebounceExpiry, ?slotRampStart, ?slotPowerGood, ?slotRampTimeout, ?slotFastTrip,
    ?slotBreakerTrip, ?slotBusOvervoltage, ?slotBusUndervoltage, ?slotRetryExpiry, ?slotGoodTimeExpiry, ?slotClear⟩
  case slotEnableWrite | slotClear =>
    intros
    exact run_guarded_effect ‹_› ‹_› ‹_›
  case seatDebounceExpiry | slotPowerGood | slotRampTimeout | slotFastTrip | slotBreakerTrip | slotBusOvervoltage | slotBusUndervoltage |
      slotGoodTimeExpiry =>
    intros
    subst_vars
    exact kept_effect ‹_› (if_pos ‹_›)
  case seatChange =>
    rintro s n seated hr _ rfl hseated hslotState hseated2
    have hstay : ¬((s.now.get (Obj.SLOT_STATE n.val) = 6 ∨ s.now.get (Obj.SLOT_STATE n.val) = 7)) := by rw [hslotState]; decide
    exact kept_effect hr (by rw [if_neg hseated]; simp [hslotState, hseated2])
  case slotRampStart =>
    rintro s n busMv hr _ rfl hslotState hbusWindow hbusMv hcoupledOk
    exact kept_effect hr (if_pos ⟨hslotState, hbusWindow, hbusMv, hcoupledOk⟩)
  case slotRetryExpiry =>
    rintro s n hr _ rfl hdue hslotState
    exact kept_effect hr (by simp [hdue, hslotState])

/-- Settles O58: each feed in the branch its voltage and hold timers choose. -/
theorem feedCommandsComplete : Obligations.FeedCommandsComplete := by
  refine ⟨?feedInvalid, ?feedValidHoldExpiry, ?feedReturnHoldExpiry, ?feedBbmFailed, ?feedModeWrite, ?feedClear⟩
  case feedModeWrite | feedClear =>
    intros
    exact run_guarded_effect ‹_› ‹_› ‹_›
  case feedInvalid =>
    rintro s f mv confirmed hr _ rfl hfeedWithin
    exact kept_effect hr (if_neg (by simp [hfeedWithin]))
  case feedValidHoldExpiry =>
    rintro s f mv elapsed confirmed hr _ rfl hfeedWithin
    exact kept_effect hr (if_neg (by simp [hfeedWithin]))
  case feedReturnHoldExpiry =>
    rintro s confirmed hr _ rfl hdue hfeedMode hfeedStuck hswitch hfeedValid hfeedInUse hfeedInUse2
    exact kept_effect hr (if_pos (by simp [hdue, hfeedMode, hfeedStuck, hswitch, hfeedValid, hfeedInUse, hfeedInUse2]))
  case feedBbmFailed =>
    rintro s t hr _ rfl hswitch
    exact kept_effect hr (by simp only [hswitch]; rfl)

/-- Settles O59: octets that nothing keeps back are staged (`octGuarded_of_clear`), and each slot goes on in the branch its record
chooses. -/
theorem caddyCommandsComplete : Obligations.CaddyCommandsComplete := by
  refine ⟨?keyStagePlaintext, ?keyStageUnwrap, ?keyStageDerive, ?keyGenerate, ?keyAbort, ?keyInvalidate, ?keyCommit, ?keyStageExpired,
    ?keyRecordWritten, ?keyIntegrityCheck, ?caddyRemask, ?drbgReseed, ?keyRecordVoided⟩
  case keyGenerate | keyAbort | keyInvalidate | keyCommit =>
    intros
    exact run_guarded_effect ‹_› ‹_› ‹_›
  case keyStageExpired | keyRecordVoided =>
    intros
    subst_vars
    exact run_effect ‹_› (if_pos ‹_›)
  case keyStagePlaintext =>
    rintro s o k material hr _ rfl hfrozen horigin hcaddyRights hmaterial
    exact run_effect hr (octGuarded_of_clear hfrozen horigin hcaddyRights (rowOf_keyMaterial k) hmaterial)
  case keyStageUnwrap =>
    rintro s o k material hr _ rfl hfrozen horigin hcaddyRights hmaterial
    exact run_effect hr (octGuarded_of_clear hfrozen horigin hcaddyRights (rowOf_keyMaterial k) hmaterial)
  case keyStageDerive =>
    rintro s o k labelContext hr _ rfl hfrozen horigin hcaddyRights hlabelContext
    exact run_effect hr (octGuarded_of_clear hfrozen horigin hcaddyRights (rowOf_keyDerive k) hlabelContext)
  case keyRecordWritten =>
    rintro s k hr _ rfl hslots hslots2
    exact run_effect hr (by simp only [hslots, hslots2]; rfl)
  case keyIntegrityCheck =>
    rintro s bad ecc hr _ rfl hdue
    exact run_effect hr (if_neg (by simp [hdue]))
  case caddyRemask =>
    rintro s k hr _ rfl hcaddyPhase hcaddy
    exact run_effect hr (by simp only [hcaddyPhase, hcaddy]; rfl)
  case drbgReseed =>
    rintro s healthy hr _ rfl harmed
    exact run_effect hr (if_neg (by rcases harmed with harmed | harmed <;> simp [harmed]))

end Sys2Proof.Machine

/-! PROOFS. Frozen origins, the TAP, the straps, and the end of a session. -/

namespace Sys2Proof.Machine

/-! ### A frozen origin (R74) -/

section
variable {h : Hub} {o : Origin} (hf : h.frozen o = true)
include hf

theorem writeObj_of_frozen (k v : Nat) : h.writeObj o k v = (rcFrozen, h.segNote (k / 256) rcFrozen) := by
  simp [Hub.writeObj, Hub.writeRaw, hf]

theorem readObj_of_frozen (k : Nat) : h.readObj o k = (rcFrozen, 0, h.segNote (k / 256) rcFrozen) := by
  simp [Hub.readObj, Hub.readRaw, hf, rcFrozen, rcOk]

theorem readWord_of_frozen (k : Nat) : h.readWord o k = (rcFrozen, 0, h.segNote (k / 256) rcFrozen) := by
  unfold Hub.readWord
  cases wideOf k with
  | some low => exact if_pos hf
  | none => simp [readObj_of_frozen hf, rcFrozen, rcOk]

theorem writeWord_of_frozen (k : Nat) (v : W32) : h.writeWord o k v = (rcFrozen, h.segNote (k / 256) rcFrozen) := if_pos hf

end

/-- Settles O7: every access of the object server and every guarded write asks first whether its origin is frozen. -/
theorem frozenOriginIsRefused : Obligations.FrozenOriginIsRefused := by
  intro s o hr hf
  have hguarded : ∀ {k v : Nat} {act : Hub → Nat × Hub}, s.run (fun h => h.guarded o k v act) = .next (s.after (s.now.ret o rcFrozen)) :=
    fun {k v act} => run_effect hr (guarded_frozen s.now o k v act hf)
  refine ⟨fun k v => ?objectWrite, fun k => ?readClearObjectRead, fun k => ?mmioLowWordRead, fun k v => ?mmioLowWordWrite,
    fun k v => ?mmioHighWordWrite, fun _ _ => hguarded, fun _ => hguarded, fun _ => hguarded, fun _ => hguarded, fun _ => hguarded,
    fun t => ?tgtClaim, fun _ _ => hguarded, fun _ => hguarded, fun _ => hguarded, fun _ => hguarded, fun _ => hguarded,
    fun _ _ => hguarded, fun _ => hguarded, fun _ => hguarded, fun _ => hguarded⟩
  case objectWrite => exact run_effect hr (congrArg (Hub.reported o) (writeObj_of_frozen hf _ _))
  case readClearObjectRead => exact run_effect hr (congrArg (Hub.answered o) (readObj_of_frozen hf _))
  case mmioLowWordRead => exact run_effect hr (congrArg (Hub.answered o) (readWord_of_frozen hf _))
  case mmioLowWordWrite => exact run_effect hr (congrArg (Hub.reported o) (writeWord_of_frozen hf _ _))
  case mmioHighWordWrite => exact run_effect hr (congrArg (Hub.reported o) (writeWord_of_frozen hf _ _))
  case tgtClaim => exact run_effect hr (if_pos hf)

/-! ### The TAP (R48) -/

/-- Settles O21: IDCODE and BYPASS wherever the TAP has supply; the other two are BYPASS unless RSTn is low. -/
theorem jtagInstructionsFollowRstn : Obligations.JtagInstructionsFollowRstn := by
  refine ⟨fun s hporn haon => ⟨tap_eq s _ hporn haon, tap_eq s _ hporn haon⟩, fun s hporn haon hrstn pins => ?_, fun s pins chain hrstn => ?_⟩
  · have hbypass : exec .jtagBypass s = .next (s.after (s.now.tap .bypass none [] [])) := tap_eq s _ hporn haon
    rw [hbypass]
    exact ⟨tap_effect hporn haon (if_neg hrstn), fun chain => tap_effect hporn haon (if_neg hrstn)⟩
  · obtain ⟨hporn, haon⟩ : s.hub.hold ≠ .porn ∧ s.hub.hold ≠ .vddAon := by simp [hrstn]
    exact ⟨⟨_, tap_effect hporn haon (if_pos hrstn), rfl, rfl⟩, _, tap_effect hporn haon (if_pos hrstn), rfl, rfl, rfl⟩

/-! ### The straps (R42, R43) -/

/-- What the third sample leaves: the sampling has ended, and each strap reads the majority of its three samples. -/
def LatchedMajority (h : Hub) (a b c : BitVec 7) : Prop :=
  h.boot.sampling = false ∧ ∀ i : Fin 7, bitOf (h.get Obj.STRAP_VALUE) i.val =
    ((a.getLsbD i.val && b.getLsbD i.val) || (a.getLsbD i.val && c.getLsbD i.val) || (b.getLsbD i.val && c.getLsbD i.val))

theorem bitOf_strapMajority (a b c : BitVec 7) (i : Nat) : bitOf (strapMajority a b c) i =
    ((a.getLsbD i && b.getLsbD i) || (a.getLsbD i && c.getLsbD i) || (b.getLsbD i && c.getLsbD i)) := by
  simp [bitOf_eq_testBit, strapMajority, BitVec.testBit_toNat]

theorem hasWidth_strapValue : HasWidth Obj.STRAP_VALUE 8 := hasWidth_of_map (by decide)

/-- The hub that the third sample makes. -/
def Hub.latched (h : Hub) (a b c : BitVec 7) : Hub :=
  { (h.disarm .strap).put Obj.STRAP_VALUE (strapMajority a b c) with boot := { h.boot with sampling := false, samples := [] } }

theorem strapSampled_third {h : Hub} {a b : BitVec 7} (hsamples : h.boot.samples = [a, b]) (c : BitVec 7) :
    h.strapSampled c = h.latched a b c := by
  simp [Hub.strapSampled, Hub.latched, Hub.disarm, Hub.put, hsamples]

theorem latched_get_strapValue (h : Hub) (a b c : BitVec 7) : (h.latched a b c).get Obj.STRAP_VALUE = strapMajority a b c :=
  hasWidth_strapValue.get_put (Nat.lt_trans (BitVec.isLt _) (by decide)) (h.disarm .strap)

theorem latched_latchedMajority (h : Hub) (a b c : BitVec 7) : LatchedMajority (h.latched a b c) a b c :=
  ⟨rfl, fun i => by rw [latched_get_strapValue, bitOf_strapMajority]⟩

theorem fits_latched {h : Hub} (hf : Fits h) (a b c : BitVec 7) : Fits (h.latched a b c) := fits_put (h.disarm .strap) hf _ _

/-- While no sampling runs, or before a sample is due, a strap sample does nothing. -/
theorem execStrapSample_of_idle {s : State} (hsampling : s.hub.boot.sampling = false) (balls : BitVec 7) :
    execStrapSample balls s = .next (s.after s.now) := by
  have hidle : (!s.hub.boot.sampling || !s.hub.due .strap) = true := by simp [hsampling]
  exact (if_pos hidle).trans (always_effect rfl)

theorem execStrapSample_of_rstn {s : State} (hsampling : s.hub.boot.sampling = true) (hdue : s.hub.due .strap = true)
    (hhold : s.hub.hold = .rstn) (balls : BitVec 7) : execStrapSample balls s = .next (s.after (s.now.strapSampled balls)) := by
  have hopen : (!s.hub.boot.sampling || !s.hub.due .strap) = false := by simp [hsampling, hdue]
  rw [execStrapSample, hopen, if_neg Bool.false_ne_true, if_pos hhold]
  exact always_effect rfl

/-- Settles O20: the third sample latches, and what follows depends on what holds the hub. -/
theorem strapsLatchTheirMajority : Obligations.StrapsLatchTheirMajority := by
  refine ⟨fun s a b c hs hsampling hdue hsamples latched hlatched => ?_, fun s c hidle => execStrapSample_of_idle hidle c⟩
  have hthird : s.now.strapSampled c = s.now.latched a b c := strapSampled_third hsamples c
  refine ⟨fun hrstn => ?_, fun hstrap => ?_⟩
  · refine ⟨_, execStrapSample_of_rstn hsampling hdue hrstn c, (hlatched _).2 ?_⟩
    rw [hthird]
    obtain ⟨hend, hbits⟩ := latched_latchedMajority s.now a b c
    refine ⟨hend, fun i => ?_⟩
    rw [after_get s hs (s.now.latched a b c) rfl (fits_latched (fits_now s hs) a b c)]
    exact hbits i
  · refine ⟨s.now.latched a b c, (hlatched _).2 (latched_latchedMajority s.now a b c), rfl, ?_⟩
    refine (execStrapSample_of_strap hsampling hdue hstrap c).trans (fresh_effect ?_)
    rw [hthird]
    exact if_neg Bool.false_ne_true

/-! ### The end of a session (R643, R644) -/

/-- The signature held in MRAM. -/
def Hub.holdSignature (h : Hub) (sig : Nat) : Hub := { h with mram := { h.mram with signature := some (BitVec.ofNat 32 sig) } }

theorem holdSignature_get (h : Hub) (sig k : Nat) : (h.holdSignature sig).get k = h.get k := rfl

theorem putsFrom_holdSignature (h : Hub) (sig : Nat) : PutsFrom h (h.holdSignature sig) := .of_eq rfl rfl

/-- What the end of an open session writes before its event. -/
def Hub.sessionEnded (h : Hub) : Hub :=
  (((h.put Obj.SS_STATE 0).put Obj.SS_SLOT 0xFF).put Obj.SAFE_SIGNATURE h.signature).holdSignature h.signature

theorem endSession_of_open {h : Hub} (hopen : h.flag Obj.SS_STATE = true) :
    h.endSession = (h.sessionEnded.event 0x67 Obj.SS_STATE).disarm .sessionTimeout := if_pos hopen

theorem sessionEnded_get (h : Hub) (j : Nat) :
    h.sessionEnded.get j = (((h.put Obj.SS_STATE 0).put Obj.SS_SLOT 0xFF).put Obj.SAFE_SIGNATURE h.signature).get j :=
  holdSignature_get _ _ _

theorem endSession_ssState {h : Hub} (hopen : h.flag Obj.SS_STATE = true) : h.endSession.get Obj.SS_STATE = 0 := by
  rw [endSession_of_open hopen, disarm_get, get_event_other _ (by decide) (by decide), sessionEnded_get, get_put_other _ _ (by decide),
    get_put_other _ _ (by decide), get_put_same]
  rfl

theorem endSession_safeSignature {h : Hub} (hopen : h.flag Obj.SS_STATE = true) :
    h.endSession.get Obj.SAFE_SIGNATURE = h.signature % 2 ^ 32 := by
  obtain ⟨r, hrow, hwidth⟩ : HasWidth Obj.SAFE_SIGNATURE 32 := hasWidth_of_map (by decide)
  rw [endSession_of_open hopen, disarm_get, get_event_other _ (by decide) (by decide), sessionEnded_get, get_put_same, fitObj, hrow, ← hwidth]

theorem endSession_eventLast {h : Hub} (hopen : h.flag Obj.SS_STATE = true) :
    h.endSession.get Obj.EVENT_LAST = 0x67000000 + Obj.SS_STATE := by
  rw [endSession_of_open hopen, disarm_get, event_last _ _ _ (by decide)]
  decide

theorem endSession_mram {h : Hub} (hopen : h.flag Obj.SS_STATE = true) :
    h.endSession.mram.signature = some (BitVec.ofNat 32 h.signature) := by
  rw [endSession_of_open hopen, Hub.disarm_mram, Hub.event_mram]
  rfl

theorem putsFrom_sessionEnded (h : Hub) : PutsFrom h h.sessionEnded :=
  ((((PutsFrom.refl h).put _ _).put _ _).put _ _).trans (putsFrom_holdSignature _ _)

theorem putsFrom_endSession {h : Hub} (hopen : h.flag Obj.SS_STATE = true) : PutsFrom h h.endSession := by
  rw [endSession_of_open hopen]
  exact ((putsFrom_sessionEnded h).event _ _).trans (.of_eq rfl rfl)

/-- A session closes itself only. -/
theorem ssClose_of_session {h : Hub} {k : KeySlot} (hopen : h.flag Obj.SS_STATE = true) (hslot : h.get Obj.SS_SLOT = k.val) :
    h.ssClose (.hop k) = (rcOk, h.endSession) := by
  simp [Hub.ssClose, hopen, hslot]

theorem ssClose_of_other {h : Hub} {o : Origin} (hother : ∀ k : KeySlot, o = .hop k → h.flag Obj.SS_STATE = false ∨ h.get Obj.SS_SLOT ≠ k.val) :
    h.ssClose o = (rcNotInSession, h) := by
  cases o with
  | hop k => rcases hother k rfl with hno | hno <;> simp [Hub.ssClose, hno]
  | _ => rfl

/-- An accepted SS_CLOSE answers what the close itself answers. -/
theorem exec_ssClose {s : State} {o : Origin} {v : W32} {g g' : Hub} {c : Nat} (hr : s.hub.hold = .run)
    (hc : s.now.clear o Obj.SS_CLOSE v.toNat) (hg : g = s.now.written Obj.SS_CLOSE) (hclose : g.ssClose o = (c, g')) :
    exec (.ssClose o v) s = .next (s.after (g'.ret o c)) :=
  (run_guarded_effect hr hc hg).trans (by rw [hclose])

/-- Settles O22: the write that the command is leaves the session's objects as they were, so the close finds the session as it stood. -/
theorem sessionCloseIsTheSessions : Obligations.SessionCloseIsTheSessions := by
  intro s o v hs hr hc
  have hkeeps : ∀ g, g = s.now.written Obj.SS_CLOSE → Keeps s.now g := fun g hg => by rw [hg]; exact keeps_written _ _
  refine ⟨fun k ho hopen hmine g hg => ?_, fun hother => ?_⟩
  · have K := hkeeps g hg
    have hopen : g.flag Obj.SS_STATE = true := by rw [Hub.flag, K.get _ (by decide)]; exact hopen
    have hclose : g.ssClose o = (rcOk, g.endSession) := by
      rw [ho]
      exact ssClose_of_session hopen ((K.get _ (by decide)).trans hmine)
    have P : PutsFrom s.now g.endSession := K.putsFrom.trans (putsFrom_endSession hopen)
    exact ⟨_, exec_ssClose hr hc hg hclose, (P.get_after_ret hs _ _ _).trans (endSession_ssState hopen),
      (P.get_after_ret hs _ _ _).trans (endSession_safeSignature hopen), endSession_mram hopen,
      (P.get_after_ret hs _ _ _).trans (endSession_eventLast hopen)⟩
  · obtain ⟨g, hg⟩ : ∃ g, g = s.now.written Obj.SS_CLOSE := ⟨_, rfl⟩
    have K := hkeeps g hg
    have hclose : g.ssClose o = (rcNotInSession, g) := by
      apply ssClose_of_other
      rw [Hub.flag, K.get _ (by decide), K.get _ (by decide)]
      exact hother
    exact ⟨_, exec_ssClose hr hc hg hclose, result_mem_after_ret _ _ _ _,
      fun j hj => (K.putsFrom.get_after_ret hs _ _ _).trans (K.get j hj)⟩

end Sys2Proof.Machine

/-! PROOFS. Reads (R57): those that change nothing, and those of a counter. -/

namespace Sys2Proof.Machine

/-! ### What a read shows -/

/-- The same objects, memory and outputs. -/
structure SameStores (h g : Hub) : Prop where
  objs : g.objs = h.objs
  mem : g.mem = h.mem
  out : g.out = h.out

theorem SameStores.refl (h : Hub) : SameStores h h := ⟨rfl, rfl, rfl⟩

theorem SameStores.get {h g : Hub} (S : SameStores h g) (k : Nat) : g.get k = h.get k := by
  rw [Hub.get, S.objs, Hub.get]

theorem sameStores_sawObject (h : Hub) (o : Origin) (x : Option (Nat × W32)) : SameStores h (h.sawObject o x) := by
  unfold Hub.sawObject
  split <;> exact ⟨rfl, rfl, rfl⟩

theorem sameStores_ite {h : Hub} {c : Prop} [Decidable c] {x y : Nat × Hub} (hx : SameStores h x.2) (hy : SameStores h y.2) :
    SameStores h (if c then x else y).2 := by
  split
  · exact hx
  · exact hy

theorem sameStores_pcieDevice (h : Hub) (p : Fin 2) : SameStores h (h.pcieDevice p).2 := sameStores_ite ⟨rfl, rfl, rfl⟩ (.refl h)

theorem sameStores_freqView (h : Hub) (d : Nat) : SameStores h (h.freqView d).2 := sameStores_ite (.refl h) ⟨rfl, rfl, rfl⟩

/-- To show an object's value takes an open value of a measurement, or notes what its origin has seen, at most. -/
theorem sameStores_view (h : Hub) (o : Origin) (k : Nat) : SameStores h (h.view o k).2 := by
  unfold Hub.view
  split
  · exact .refl h
  · repeat' with_reducible apply sameStores_ite
    any_goals exact ⟨rfl, rfl, rfl⟩
    · exact sameStores_pcieDevice h _
    · exact sameStores_freqView h _

/-! ### The answer of a read -/

theorem isOff_of_on {h : Hub} {idx : Nat} (hon : h.domOn (domainOfIdx idx) = true) : h.isOff idx = false := by
  have hstate : h.domState (domainOfIdx idx) = 0 := by simpa [Hub.domOn] using hon
  simp [Hub.isOff, hstate]

/-- The object is no claim and no word of a segment channel, and its domain is powered: a read of it has no effect but its own. -/
structure PlainRead (h : Hub) (o : Origin) (k : Nat) : Prop where
  notFrozen : h.frozen o = false
  off : offChannels (k / 256)
  noClaim : ¬(0x232001 ≤ k ∧ k ≤ 0x232D01 ∧ k % 256 = 1)
  on : h.domOn (domainOfIdx (k / 256)) = true

section
variable {h : Hub} {o : Origin} {k : Nat} {r : ObjRow} (hp : PlainRead h o k) (hk : rowOf k = some r)
include hp hk

theorem readRaw_of_writeOnly (hwo : r.acc = .wo) : h.readRaw o k = (rcWriteOnly, 0, h) := by
  simp [Hub.readRaw, hp.notFrozen, hk, segBusy_of_offChannels hp.off, hwo]

theorem readRaw_of_octets (hwo : r.acc ≠ .wo) (hty : r.ty = .octets ∨ r.ty = .domain) : h.readRaw o k = (rcTypeMismatch, 0, h) := by
  rcases hty with hty | hty <;> simp [Hub.readRaw, hp.notFrozen, hk, segBusy_of_offChannels hp.off, hwo, hty]

theorem readRaw_of_scalar (hwo : r.acc ≠ .wo) (hoct : r.ty ≠ .octets) (hdom : r.ty ≠ .domain) :
    h.readRaw o k = (rcOk, (h.view o k).1, if r.acc = .rc then (h.view o k).2.readEffect k else (h.view o k).2) := by
  have hwin : ¬(0x121000 ≤ k ∧ k ≤ 0x1213FF) := by
    have := hp.off
    unfold offChannels at this
    omega
  simp [Hub.readRaw, hp.notFrozen, hk, segBusy_of_offChannels hp.off, segTouch_of_offChannels hp.off, accessWake_on h o _ hp.on,
    isOff_of_on hp.on, hp.noClaim, hwo, hoct, hdom, hwin]

theorem readObj_of_writeOnly (hwo : r.acc = .wo) : h.readObj o k = (rcWriteOnly, 0, h) := by
  simp [Hub.readObj, readRaw_of_writeOnly hp hk hwo, segNote_of_offChannels hp.off, rcWriteOnly, rcOk]

theorem readObj_of_octets (hwo : r.acc ≠ .wo) (hty : r.ty = .octets ∨ r.ty = .domain) : h.readObj o k = (rcTypeMismatch, 0, h) := by
  simp [Hub.readObj, readRaw_of_octets hp hk hwo hty, segNote_of_offChannels hp.off, rcTypeMismatch, rcOk]

theorem readObj_of_scalar (hwo : r.acc ≠ .wo) (hoct : r.ty ≠ .octets) (hdom : r.ty ≠ .domain) :
    h.readObj o k = (rcOk, (h.view o k).1,
      (if r.acc = .rc then (h.view o k).2.readEffect k else (h.view o k).2).sawObject o none) := by
  simp [Hub.readObj, readRaw_of_scalar hp hk hwo hoct hdom]

end

theorem exec_read {s : State} {o : Origin} {k : BitVec 24} {c v : Nat} {g : Hub} (hr : s.hub.hold = .run)
    (hread : s.now.readObj o k.toNat = (c, v, g)) : exec (.readClearObjectRead o k) s = .next (s.after (g.emit (.data o c v))) :=
  run_effect hr (congrArg (Hub.answered o) hread)

/-- What a read that leaves the stores answers, and that it leaves them. -/
theorem after_emit_of_sameStores {s : State} (hs : s.Sound) {g : Hub} (S : SameStores s.now g) (x : Out) :
    (s.after (g.emit x)).hub.out = [x] ∧ (∀ j, (s.after (g.emit x)).hub.get j = s.hub.get j) ∧
      ∀ a, (s.after (g.emit x)).hub.memGet a = s.hub.memGet a := by
  refine ⟨?_, fun j => after_get_same s hs (g.emit x) (congrArg Overlay.dirty S.objs) j, fun a => after_memGet_same s hs (g.emit x) S.mem a⟩
  rw [after_out, Hub.emit_out, S.out]
  rfl

/-- Settles O24: a refused read leaves the hub, one that answers a value shows it and notes that its origin saw it. -/
theorem readsThatDoNotClearChangeNothing : Obligations.ReadsThatDoNotClearChangeNothing := by
  intro s o k r hs hr hf hk hacc hoff hclaim hon
  have hp : PlainRead s.now o k.toNat := ⟨hf, by unfold offChannels; omega, by omega, hon⟩
  by_cases hwo : r.acc = .wo
  · obtain ⟨hout, hget, hmem⟩ := after_emit_of_sameStores hs (.refl s.now) (.data o rcWriteOnly 0)
    exact ⟨_, exec_read hr (readObj_of_writeOnly hp hk hwo), fun _ => hout, fun h => absurd hwo h, fun h => absurd hwo h, hget, hmem⟩
  by_cases hty : r.ty = .octets ∨ r.ty = .domain
  · obtain ⟨hout, hget, hmem⟩ := after_emit_of_sameStores hs (.refl s.now) (.data o rcTypeMismatch 0)
    exact ⟨_, exec_read hr (readObj_of_octets hp hk hwo hty), fun h => absurd h hwo, fun _ _ => hout,
      fun _ hoct hdom => absurd hty (not_or.2 ⟨hoct, hdom⟩), hget, hmem⟩
  · obtain ⟨hoct, hdom⟩ := not_or.1 hty
    have hread := readObj_of_scalar hp hk hwo hoct hdom
    rw [if_neg hacc] at hread
    have V := sameStores_view s.now o k.toNat
    have W := sameStores_sawObject (s.now.view o k.toNat).2 o none
    obtain ⟨hout, hget, hmem⟩ := after_emit_of_sameStores hs ⟨W.objs.trans V.objs, W.mem.trans V.mem, W.out.trans V.out⟩
      (.data o rcOk (s.now.view o k.toNat).1)
    exact ⟨_, exec_read hr hread, fun h => absurd h hwo, fun _ h => absurd h hty, fun _ _ _ => hout, hget, hmem⟩

/-! ### Counters of 0x91xx -/

section
variable {k : Nat} (hpage : k / 65536 = 0x91)
include hpage

theorem coreView_of_page91 (h : Hub) : h.coreView k = none := by
  have hrange : ¬(0x6000 ≤ k / 256 ∧ k / 256 ≤ 0x60FF) := by omega
  unfold Hub.coreView
  simp (disch := omega) only [Bool.and_eq_true, Nat.ble_eq, Obj.POT_OCC, Obj.SHARED_SIZE, Obj.SHARED_USED, Obj.FLOOR_SUM, Obj.SPILL_USED,
    Obj.SPILL_ACTIVE, Obj.GATE_CURRENT, if_neg]

theorem trunkView_of_page91 (h : Hub) : h.trunkView k = none := by
  unfold Hub.trunkView
  simp (disch := omega) only [Obj.PAYLOAD_AWAY, Obj.PAYLOAD_TOWARD, Obj.ALLOT_USABLE, if_neg, if_pos]

theorem measuredKey_of_page91 : measuredKey k = false := by
  rw [Bool.eq_false_iff]
  simp only [measuredKey, Obj.VCORE_MEASURED, ne_eq, Bool.or_eq_true, Bool.and_eq_true, beq_iff_eq, Nat.ble_eq]
  omega

/-- A counter shows what it holds. -/
theorem view_of_page91 (hphase : k ≠ Obj.CADDY_PHASE) (h : Hub) (o : Origin) : h.view o k = (h.get k, h) := by
  unfold Hub.view
  rw [coreView_of_page91 hpage, trunkView_of_page91 hpage]
  simp (disch := omega) only [measuredKey_of_page91 hpage, Bool.false_eq_true, if_false, if_neg,
    Obj.GROUPS_STAGED, Obj.TT_ROLE, Obj.PCIE_DEVICE, Obj.ETS_CURRENT, Obj.MOT_STATE, Obj.PL_FLOOR, Obj.GM_IDENTITY, Obj.FS_NEED,
    Obj.FRAME_COUNT, Obj.TIME_SEC, Obj.TIME_NS_LATCHED, Obj.TIME32_NOW]
  rfl

/-- A counter that was read starts again from zero. -/
theorem readEffect_of_page91 (h : Hub) : SameStores (h.put k 0) (h.readEffect k) := by
  unfold Hub.readEffect
  simp (disch := omega) only [if_neg, Obj.POT_OCC_PEAK, Obj.NP_PEAK, Obj.TJ_PEAK]
  split
  · exact ⟨rfl, rfl, rfl⟩
  · exact .refl _

theorem not_octets_of_page91 {r : ObjRow} (hk : rowOf k = some r) : r.ty ≠ .octets ∧ r.ty ≠ .domain := by
  have hrows : ∀ r ∈ objRows 0x91, r.ty ≠ .octets ∧ r.ty ≠ .domain := by decide
  have hgroup : k % effOffset / 256 / 256 = 0x91 := by unfold effOffset; omega
  rw [rowOf, hgroup] at hk
  exact hrows r (List.mem_of_find?_eq_some hk)

end

/-- Settles O25: no index of the page has a view of its own but `CADDY_PHASE`, which does not clear. -/
theorem counterReadClearsIt : Obligations.CounterReadClearsIt := by
  intro s o k r hs hr hf hk hrc hpage hon
  have hk24 := k.isLt
  have hp : PlainRead s.now o k.toNat := ⟨hf, by unfold offChannels; omega, by omega, hon⟩
  have hphase : k.toNat ≠ Obj.CADDY_PHASE := by
    intro h
    rw [h] at hk
    cases hk
    cases hrc
  obtain ⟨hoct, hdom⟩ := not_octets_of_page91 hpage hk
  have hread := readObj_of_scalar hp hk (by rw [hrc]; decide) hoct hdom
  rw [if_pos hrc, view_of_page91 hpage hphase] at hread
  have E := readEffect_of_page91 hpage s.now
  have W := sameStores_sawObject (s.now.readEffect k.toNat) o none
  have S : SameStores (s.now.put k.toNat 0) ((s.now.readEffect k.toNat).sawObject o none) :=
    ⟨W.objs.trans E.objs, W.mem.trans E.mem, W.out.trans E.out⟩
  have P : PutsFrom s.now ((s.now.readEffect k.toNat).sawObject o none) :=
    (putsFrom_put s.now k.toNat 0).trans (.of_eq S.objs S.out)
  refine ⟨_, exec_read hr hread, ?_, ?_, fun j hj => ?_, fun a => ?_⟩
  · rw [after_out, Hub.emit_out, P.out]
    rfl
  · rw [P.get_after_emit hs, S.get, get_put_same, fitObj, hk]
    exact Nat.zero_mod _
  · rw [P.get_after_emit hs, S.get, get_put_other _ _ hj]
    rfl
  · exact after_memGet_same s hs _ S.mem a

end Sys2Proof.Machine

/-! PROOFS. Frames: what the commands of the slots, the feeds and the interrupt controller leave as it was. -/

namespace Sys2Proof.Machine

/-! ### The objects of a slot -/

/-- The objects of slot `n`, its values in effect and its counters, and the record of events. -/
def SlotKey (n : Fin 8) (k : Nat) : Prop :=
  k / 256 % 0x10000 = 0x7200 + n.val ∨ k / 256 = 0x9190 + n.val ∨ k = Obj.EVENT_LAST ∨ k = Obj.EVENT_COUNT

/-- The hub is changed at the objects of slot `n` only, and no memory is. -/
structure InSlot (n : Fin 8) (h g : Hub) : Prop where
  puts : PutsFrom h g
  mem : g.mem = h.mem
  get : ∀ k, ¬SlotKey n k → g.get k = h.get k

theorem InSlot.refl (n : Fin 8) (h : Hub) : InSlot n h h := ⟨.refl h, rfl, fun _ _ => rfl⟩

theorem slotKey_slotState (n : Fin 8) : SlotKey n (Obj.SLOT_STATE n.val) := .inl (by revert n; decide)
theorem slotKey_slotAttn (n : Fin 8) : SlotKey n (Obj.SLOT_ATTN n.val) := .inl (by revert n; decide)
theorem slotKey_slotFaultCause (n : Fin 8) : SlotKey n (Obj.SLOT_FAULT_CAUSE n.val) := .inl (by revert n; decide)
theorem slotKey_slotFaultCount (n : Fin 8) : SlotKey n (Obj.SLOT_FAULT_COUNT n.val) := .inl (by revert n; decide)
theorem slotKey_starts (n : Fin 8) : SlotKey n (Obj.STARTS n.val) := .inr (.inl (by revert n; decide))
theorem slotKey_faults (n : Fin 8) : SlotKey n (Obj.FAULTS n.val) := .inr (.inl (by revert n; decide))
theorem slotKey_fastTrips (n : Fin 8) : SlotKey n (Obj.FAST_TRIPS n.val) := .inr (.inl (by revert n; decide))
theorem slotKey_latches (n : Fin 8) : SlotKey n (Obj.LATCHES n.val) := .inr (.inl (by revert n; decide))
theorem slotKey_seatChanges (n : Fin 8) : SlotKey n (Obj.SEAT_CHANGES n.val) := .inr (.inl (by revert n; decide))

theorem ne_of_slotKey {n : Fin 8} {j k : Nat} (hk : SlotKey n k) (hj : ¬SlotKey n j) : j ≠ k := fun h => hj (h ▸ hk)

section
variable {n : Fin 8} {h g : Hub} (S : InSlot n h g)
include S

theorem InSlot.put {k : Nat} (hk : SlotKey n k) (v : Nat) : InSlot n h (g.put k v) :=
  ⟨S.puts.put k v, S.mem, fun j hj => (get_put_other g v (ne_of_slotKey hk hj)).trans (S.get j hj)⟩

theorem InSlot.bump {k : Nat} (hk : SlotKey n k) : InSlot n h (g.bump k) :=
  ⟨S.puts.bump k, (bump_mem g k).trans S.mem, fun j hj => (get_bump_other g (ne_of_slotKey hk hj)).trans (S.get j hj)⟩

theorem InSlot.event (c k : Nat) : InSlot n h (g.event c k) := (S.put (.inr (.inr (.inl rfl))) _).bump (.inr (.inr (.inr rfl)))

/-- A change of nothing that objects, memory and outputs hold. -/
theorem InSlot.same {g' : Hub} (ho : g'.objs = g.objs) (hm : g'.mem = g.mem) (hx : g'.out = g.out) : InSlot n h g' :=
  ⟨S.puts.trans (.of_eq ho hx), hm.trans S.mem, fun k hk => (congrArg (Overlay.read objDefault · k) ho).trans (S.get k hk)⟩

theorem InSlot.arm (t : Timer) (d : Nat) : InSlot n h (g.arm t d) := S.same rfl rfl rfl

theorem InSlot.disarm (t : Timer) : InSlot n h (g.disarm t) := S.same rfl rfl rfl

theorem InSlot.slotLeave : InSlot n h (g.slotLeave n) := ((S.disarm _).disarm _).disarm _

theorem InSlot.ite {g' : Hub} (S' : InSlot n h g') (c : Prop) [Decidable c] : InSlot n h (if c then g else g') := by
  split
  · exact S
  · exact S'

theorem InSlot.takeOne {w : Waiting} (hw : keyIdx w.key = 0x7200 + n.val) : InSlot n h (g.takeOne w) := by
  unfold keyIdx at hw
  unfold Hub.takeOne
  split
  · split
    · exact S.put (.inl (by omega)) _
    · exact S.put (.inl (by unfold effOffset; omega)) _
  · exact S

/-- The values that wait for the slot's ramp are the slot's own (R577). -/
theorem InSlot.takeUnit (u : EffUnit) : InSlot n h (g.takeUnit u fun w => keyIdx w.key == 0x7200 + n.val) := by
  unfold Hub.takeUnit
  refine List.foldlRecOn _ _ (S.same rfl rfl rfl) fun b Sb w hw => Sb.takeOne ?_
  have hboth := (List.mem_filter.1 hw).2
  rw [Bool.and_eq_true, beq_iff_eq, beq_iff_eq] at hboth
  exact hboth.2

theorem InSlot.slotIdle : InSlot n h (g.slotIdle n) := by
  have S := S.slotLeave
  exact .ite (S.put (slotKey_slotState n) _)
    (.ite ((S.put (slotKey_slotState n) _).arm _ _) (S.put (slotKey_slotState n) _) _) _

theorem InSlot.slotWait : InSlot n h (g.slotWait n) := S.slotLeave.put (slotKey_slotState n) _

theorem InSlot.slotRampEnter : InSlot n h (g.slotRampEnter n) :=
  (((S.slotLeave.takeUnit _).put (slotKey_slotState n) _).bump (slotKey_starts n)).arm _ _

theorem InSlot.enterFault (cause : Nat) : InSlot n h (g.enterFault n cause) := by
  have entered := (S.slotLeave.put (slotKey_slotState n) 6).put (slotKey_slotFaultCause n) cause
  exact ((((entered.bump (slotKey_slotFaultCount n)).arm _ _).put (slotKey_slotAttn n) _).bump (slotKey_faults n)).event _ _

theorem InSlot.latchFault : InSlot n h (g.latchFault n) :=
  (((S.put (slotKey_slotState n) _).put (slotKey_slotAttn n) _).bump (slotKey_latches n)).event _ _

theorem InSlot.slotFault (cause : Nat) : InSlot n h (g.slotFault n cause) := by
  rw [slotFault_eq]
  exact (S.enterFault cause).latchFault.ite (S.enterFault cause) _

end

/-- A command of a slot that changes only the slot's own objects leaves the others, and memory, wherever the hub stands. -/
theorem kept_inSlot {s t : State} {f : Hub → Hub} {n : Fin 8} (hs : s.Sound) (ht : s.kept f = .next t) (hf : InSlot n s.now (f s.now)) :
    (∀ k, ¬SlotKey n k → t.hub.get k = s.hub.get k) ∧ ∀ a, t.hub.memGet a = s.hub.memGet a := by
  by_cases hhold : s.hub.hold = .run ∨ s.hub.hold = .rstn
  · rw [kept_eq s f hhold] at ht
    cases ht
    exact ⟨fun k hk => (after_get s hs _ hf.puts.base (hf.puts.fits (fits_now s hs)) k).trans (hf.get k hk),
      fun a => after_memGet_same s hs _ hf.mem a⟩
  · obtain ⟨hrun, hrstn⟩ := not_or.1 hhold
    rw [kept_of_held s f hrun hrstn] at ht
    cases ht
    exact ⟨fun k _ => after_get_same s hs _ rfl k, fun a => after_memGet_same s hs _ rfl a⟩

/-- Settles O26: each event of a slot is a passage of the slot from state to state, or its fault, whose writes are the slot's own. -/
theorem slotEventsStayInTheirSlot : Obligations.SlotEventsStayInTheirSlot := by
  intro s t n i hs hi ht
  have S := InSlot.refl n s.now
  obtain ⟨f, hf, hin⟩ : ∃ f, exec i s = s.kept f ∧ InSlot n s.now (f s.now) := by
    rcases hi with ⟨seated, rfl⟩ | rfl | ⟨mv, rfl⟩ | rfl | rfl | ⟨ma, bus, vout, rfl⟩ | ⟨ma, us, rfl⟩ | ⟨mv, rfl⟩ | ⟨mv, rfl⟩ | rfl | rfl
    · have S' : InSlot n s.now (s.now.setHotSlot n fun x => { x with seated := seated }) := S.same rfl rfl rfl
      exact ⟨_, rfl, S.ite (.ite (S'.bump (slotKey_seatChanges n)) (S'.ite (.ite (S'.slotIdle.ite S' _) S'.slotIdle _) _) _) _⟩
    · exact ⟨_, rfl, S.slotWait.ite S _⟩
    · exact ⟨_, rfl, S.slotRampEnter.ite S _⟩
    · exact ⟨_, rfl, .ite (((S.slotLeave.put (slotKey_slotState n) _).put (slotKey_slotAttn n) _).arm _ _) S _⟩
    · exact ⟨_, rfl, (S.slotFault 3).ite S _⟩
    · exact ⟨_, rfl, ((S.bump (slotKey_fastTrips n)).slotFault 1).ite S _⟩
    · exact ⟨_, rfl, (S.slotFault 2).ite S _⟩
    · exact ⟨_, rfl, (S.slotFault 4).ite S _⟩
    · exact ⟨_, rfl, S.slotWait.ite S _⟩
    · exact ⟨_, rfl, .ite ((S.disarm _).slotIdle.ite (S.disarm _) _) S _⟩
    · exact ⟨_, rfl, ((S.put (slotKey_slotFaultCount n) _).disarm _).ite S _⟩
  obtain ⟨hget, hmem⟩ := kept_inSlot hs (hf ▸ ht) hin
  exact ⟨fun k hslot hcount hlast hevents => hget k fun hk => by rcases hk with hk | hk | hk | hk <;> contradiction, hmem⟩

/-! ### Memory -/

/-- A command of either frame that stores nothing leaves memory, wherever the hub stands. -/
theorem memGet_of_stores_nothing {s t : State} {f : Hub → Hub} (hs : s.Sound) (hf : (f s.now).mem = s.now.mem)
    (ht : s.kept f = .next t ∨ s.run f = .next t) (a : Nat) : t.hub.memGet a = s.hub.memGet a := by
  obtain ⟨g, hg, rfl⟩ : ∃ g : Hub, g.mem = s.hub.mem ∧ s.after g = t := by
    rcases ht with ht | ht
    · unfold State.kept at ht
      split at ht <;> cases ht
      · exact ⟨_, hf, rfl⟩
      · exact ⟨s.now, rfl, rfl⟩
    · unfold State.run at ht
      split at ht <;> cases ht
      · exact ⟨_, hf, rfl⟩
      · exact ⟨s.now, rfl, rfl⟩
  exact after_memGet_same s hs g hg a

/-- A write that is a command of its own, with an effect that stores nothing. -/
theorem run_guarded_memGet {s t : State} {o : Origin} {k v : Nat} {act : Hub → Nat × Hub} (hs : s.Sound)
    (hact : ∀ g, (act g).2.mem = g.mem) (ht : s.run (fun h => h.guarded o k v act) = .next t) (a : Nat) :
    t.hub.memGet a = s.hub.memGet a :=
  memGet_of_stores_nothing (f := fun h => h.guarded o k v act) hs (guarded_mem s.now o k v act hact) (.inr ht) a

/-- Settles O27: a slot's commands by its frame, the other commands by what their effects leave. -/
theorem slotFeedAndInterruptCommandsLeaveMemory : Obligations.SlotFeedAndInterruptCommandsLeaveMemory := by
  intro i s t hs hi ht
  cases i <;> cases hi
  case slotEnableWrite | slotClear | feedModeWrite | feedClear | tgtComplete | icRaise | icPendingWrite =>
    exact run_guarded_memGet hs (fun g => by simp) ht
  case engineWake | mtimecmpMatch =>
    exact memGet_of_stores_nothing hs (by simp) (.inr ht)
  case tgtClaim o n =>
    exact memGet_of_stores_nothing hs (by split <;> simp) (.inr ht)
  case seatChange n _ | seatDebounceExpiry n | slotRampStart n _ | slotPowerGood n | slotRampTimeout n | slotFastTrip n _ _ _ |
      slotBreakerTrip n _ _ | slotBusOvervoltage n _ | slotBusUndervoltage n _ | slotRetryExpiry n | slotGoodTimeExpiry n =>
    exact (slotEventsStayInTheirSlot s t n _ hs (by simp) ht).2
  case feedInvalid | feedValidHoldExpiry | feedReturnHoldExpiry =>
    exact memGet_of_stores_nothing hs (by simp) (.inl ht)
  case feedBbmFailed => exact memGet_of_stores_nothing hs (by split <;> simp) (.inl ht)

end Sys2Proof.Machine

/-! PROOFS. What a lane and a protected cell carry comes back. -/

namespace Sys2Proof.Machine

/-! ### Line symbols (R134, R135) -/

theorem grayBits_grayLevel (a b : Bool) : grayBits (grayLevel a b) = [a, b] := by
  revert a b; decide

/-- Pairs of bits come back from their PAM4 levels. -/
theorem flatMap_grayBits_grayLevels : ∀ bits : List Bool, bits.length % 2 = 0 → (grayLevels bits).flatMap grayBits = bits
  | [], _ => rfl
  | [_], hlen => absurd hlen (by simp)
  | a :: b :: t, hlen => by
    have ht : t.length % 2 = 0 := by simp only [List.length_cons] at hlen; omega
    rw [grayLevels, List.flatMap_cons, grayBits_grayLevel, flatMap_grayBits_grayLevels t ht]
    rfl

/-- Bits come back from the outer levels of NRZ. -/
theorem map_ble_nrz (bits : List Bool) : (bits.map fun b => (if b then 3 else 0 : Level)).map (fun l => Nat.ble 2 l.val) = bits := by
  rw [List.map_map]
  exact List.map_id'' (fun b => by cases b <;> rfl) bits

theorem ofLine_toLine (rate : Nat) (bits : List Bool) (hlen : bits.length % 2 = 0) : ofLine rate (toLine rate bits) = bits := by
  unfold ofLine toLine
  split
  · exact flatMap_grayBits_grayLevels bits hlen
  · exact map_ble_nrz bits

/-! ### The scrambler (R181) -/

/-- The scrambler adds a sequence that its register alone makes: added twice it is gone. -/
theorem scramble31_scramble31 (r : Nat) (bits : List Bool) : scramble31 r (scramble31 r bits).1 = (bits, (scramble31 r bits).2) := by
  induction bits generalizing r with
  | nil => rfl
  | cons b bs ih => simp [scramble31, ih]

/-- Settles O30: at a PAM4 rate pair by pair, at an NRZ rate bit by bit; the scrambler is its own inverse. -/
theorem laneBitsComeBack : Obligations.LaneBitsComeBack := ⟨ofLine_toLine, scramble31_scramble31⟩

/-! ### Protected cells (R206, R209) -/

theorem take_padTo {n m : Nat} {bs : List Byte} (hlen : bs.length = n) (hn : n ≤ m) (rest : List Byte) :
    (padTo m bs ++ rest).take n = bs := by
  have hfits : bs.length ≤ m := by omega
  rw [padTo, List.take_of_length_le hfits, List.append_assoc, List.take_left' hlen]

theorem slice_padTo_append (m : Nat) (bs rest : List Byte) : slice (padTo m bs ++ rest) m rest.length = rest := by
  rw [slice, List.drop_left' (padTo_length m bs), List.take_length]

/-- What was sealed opens to its first bytes: the cipher text stands first, the tag last, and the stream is added twice. -/
theorem openCell_sealCell {key iv aad body : List Byte} {n : Nat} (hbody : n ≤ body.length) (hn : n ≤ 112) :
    openCell key iv aad (sealCell key iv aad body n) n = some (body.take n) := by
  have hplain : (body.take n).length = n := List.length_take_of_le hbody
  have hct : (xorBytes (body.take n) (gcmStream key iv n)).length = n := by simp [hplain]
  have htag := slice_padTo_append 112 (xorBytes (body.take n) (gcmStream key iv n))
    (gcmTag key iv aad (xorBytes (body.take n) (gcmStream key iv n)))
  rw [gcmTag_length] at htag
  rw [openCell, sealCell, take_padTo hct hn, htag]
  simp only [if_true]
  rw [xorBytes_twice _ _ (by simp [hplain])]

theorem openCell_of_wrongTag {key iv aad body : List Byte} {n : Nat}
    (htag : gcmTag key iv aad (body.take n) ≠ (body.drop 112).take 16) : openCell key iv aad body n = none := if_neg htag

/-- Settles O31: under one key, IV and header what seals also opens, and a wrong tag never does. -/
theorem sealedCellOpens : Obligations.SealedCellOpens :=
  ⟨fun _ _ _ _ _ hbody hn => openCell_sealCell hbody hn, fun _ _ _ _ _ htag => openCell_of_wrongTag htag⟩

end Sys2Proof.Machine

/-! PROOFS. An engine's instruction from its own TCM: a store, and an ALU instruction with an immediate. -/

namespace Sys2Proof.Machine

/-! ### Memory and engines after a command -/

/-- What a command leaves in a byte of memory reads so after it. -/
theorem after_memGet (s : State) (hs : s.Sound) (h : Hub) (hb : h.mem.base = s.hub.mem.base) (a : Nat) :
    (s.after h).hub.memGet a = h.memGet a := by
  show (Hub.settle s.hub h).memGet a = Overlay.read memDefault h.mem a
  rw [settle_memGet _ _ hs.2.2, Overlay.read, hb]
  cases findCell h.mem.dirty a <;> rfl

/-- Hubs with the same objects leave the same objects. -/
theorem after_get_congr (s : State) {h g : Hub} (ho : h.objs = g.objs) (k : Nat) : (s.after h).hub.get k = (s.after g).hub.get k := by
  have hsettled : (Hub.settle s.hub h).objs = (Hub.settle s.hub g).objs := by simp only [Hub.settle, ho]
  exact congrArg (Overlay.read objDefault · k) hsettled

theorem after_engs (s : State) (h : Hub) : (s.after h).hub.engs = h.engs := rfl

theorem memWrite_base (h : Hub) (a : Nat) (bs : List Byte) : (h.memWrite a bs).mem.base = h.mem.base := by
  induction bs generalizing h a with
  | nil => rfl
  | cons b bs ih => exact ih _ _

theorem memWrite_objs (h : Hub) (a : Nat) (bs : List Byte) : (h.memWrite a bs).objs = h.objs := by
  induction bs generalizing h a with
  | nil => rfl
  | cons b bs ih => exact ih _ _

theorem memWrite_engs (h : Hub) (a : Nat) (bs : List Byte) : (h.memWrite a bs).engs = h.engs := by
  induction bs generalizing h a with
  | nil => rfl
  | cons b bs ih => exact ih _ _

theorem setEng_same (h : Hub) (e : Engine) (f : EngSt → EngSt) : (h.setEng e f).engs[e] = f h.engs[e] := by
  simp [Hub.setEng]

theorem setEng_other (h : Hub) {e e' : Engine} (f : EngSt → EngSt) (hne : e' ≠ e) : (h.setEng e f).engs[e'] = h.engs[e'] := by
  have hval : e.val ≠ e'.val := fun h => hne (Fin.ext h.symm)
  simp [Hub.setEng, hval]

theorem icSet_engs (h : Hub) (n : Nat) : (h.icSet n).engs = h.engs := by
  unfold Hub.icSet
  split
  · rfl
  · dsimp only
    split
    · exact Hub.bump_engs _ _
    · rfl

theorem icLevels_engs (h : Hub) : h.icLevels.engs = h.engs := by
  refine List.foldlRecOn (motive := fun g : Hub => g.engs = h.engs) h.levelsNow _ rfl fun g hg n _ => ?_
  split
  · exact hg
  · exact (icSet_engs g n).trans hg

/-! ### The next instruction (R465) -/

/-- The hub as an engine finds it: its timer line and the level sources up to date. -/
def Hub.ready (h : Hub) (e : Engine) : Hub := (h.setEng e fun x => { x with mtip := Nat.ble x.mtimecmp.toNat h.now }).icLevels

theorem ready_mem (h : Hub) (e : Engine) : (h.ready e).mem = h.mem := icLevels_mem _

theorem ready_other (h : Hub) {e e' : Engine} (hne : e' ≠ e) : (h.ready e).engs[e'] = h.engs[e'] := by
  rw [Hub.ready, icLevels_engs, setEng_other _ _ hne]

theorem ready_regs (h : Hub) (e : Engine) : ((h.ready e).engs[e]).regs = (h.engs[e]).regs := by
  rw [Hub.ready, icLevels_engs, setEng_same]

/-- An engine that stalls on nothing, and has neither a late fault nor an interrupt to take, does its next instruction. -/
theorem engineNext_of_free {h : Hub} {e : Engine} (hstall : ((h.ready e).engs[e]).stall = none) (hlate : ((h.ready e).engs[e]).late = none)
    (hirq : (h.ready e).rvIrq e = none) (below : Option W32) : h.engineNext e below = (h.ready e).rvStep e below := by
  unfold Hub.ready at hstall hlate hirq ⊢
  simp only [Hub.engineNext, hstall, hlate, hirq, Option.isSome_none, Bool.false_eq_true, if_false]

/-- A running engine that is awake and powered, whose memories answer without an error. -/
theorem exec_engineInstruction {s : State} {e : Engine} (hr : s.hub.hold = .run) (hstate : s.now.get (Obj.ENG_STATE e.val) = 2)
    (hawake : (s.now.engs[e]).asleep = false) (hon : s.now.domOn (4 + e.val) = true) (below : Option W32) :
    exec (.engineInstruction e 0 below) s = .next (s.after (s.now.engineNext e below)) := by
  have hgoes : (s.now.get (Obj.ENG_STATE e.val) = 2 ∨ s.now.get (Obj.ENG_STATE e.val) = 6) ∧
      (!(s.now.engs[e]).asleep) = true ∧ s.now.domOn (4 + e.val) = true := ⟨.inl hstate, by rw [hawake]; rfl, hon⟩
  exact run_effect hr (if_pos hgoes)

/-- The engine past an instruction of four bytes. -/
def EngSt.past4 (s : EngSt) : EngSt := { s with pc := s.pc + 4, minstret := s.minstret + 1 }

theorem fetchable_tcm (h : Hub) (e : Engine) {a : Nat} (ha : a < 0x10000) : h.fetchable e a = true := by
  simp [Hub.fetchable, rangeOf, ha]

/-- The four bytes at the engine's pc. -/
def Hub.wordAtPc (g : Hub) (e : Engine) : Nat := g.fetchHalf e (g.engs[e]).pc + 65536 * g.fetchHalf e ((g.engs[e]).pc + 2)

/-- An instruction of four bytes in the TCM is fetched, decoded and executed. -/
theorem rvStep_of_decode32 {g : Hub} {e : Engine} {i : Rv} (hpc : (g.engs[e]).pc.toNat + 4 ≤ 0x10000)
    (hwide : g.fetchHalf e (g.engs[e]).pc % 4 = 3) (hdec : decode32 (g.wordAtPc e) = some i) (below : Option W32) :
    g.rvStep e below = (g.setEng e EngSt.past4).rvExec e g.engs[e] i 4 (BitVec.ofNat 32 (g.wordAtPc e)) below := by
  have hsecond : ((g.engs[e]).pc + 2).toNat < 0x10000 := by
    rw [BitVec.toNat_add]
    have : (2 : W32).toNat = 2 := rfl
    omega
  unfold Hub.wordAtPc at hdec
  rw [Hub.rvStep, fetchable_tcm g e (by omega)]
  simp only [Bool.not_true, Bool.false_eq_true, if_false, if_neg (not_not_intro hwide), fetchable_tcm g e hsecond, hdec]
  rfl

/-- The engine of a running hub that is free to go on, with the instruction of four bytes that it finds in its TCM. -/
structure Finds (s : State) (e : Engine) (g : Hub) (i : Rv) : Prop where
  run : s.hub.hold = .run
  state : s.now.get (Obj.ENG_STATE e.val) = 2
  awake : (s.now.engs[e]).asleep = false
  on : s.now.domOn (4 + e.val) = true
  found : g = s.now.ready e
  stall : (g.engs[e]).stall = none
  late : (g.engs[e]).late = none
  irq : g.rvIrq e = none
  pc : (g.engs[e]).pc.toNat + 4 ≤ 0x10000
  wide : g.fetchHalf e (g.engs[e]).pc % 4 = 3
  decodes : decode32 (g.wordAtPc e) = some i

section
variable {s : State} {e : Engine} {g : Hub} {i : Rv} (F : Finds s e g i)
include F

theorem Finds.exec (below : Option W32) : exec (.engineInstruction e 0 below) s =
    .next (s.after ((g.setEng e EngSt.past4).rvExec e g.engs[e] i 4 (BitVec.ofNat 32 (g.wordAtPc e)) below)) := by
  have hfound := F.found
  have hnext := engineNext_of_free (hfound ▸ F.stall) (hfound ▸ F.late) (hfound ▸ F.irq) below
  rw [← hfound, rvStep_of_decode32 F.pc F.wide F.decodes] at hnext
  rw [exec_engineInstruction F.run F.state F.awake F.on below, hnext]

theorem Finds.mem : g.mem = s.now.mem := by rw [F.found, ready_mem]

theorem Finds.other {e' : Engine} (hne : e' ≠ e) : g.engs[e'] = s.hub.engs[e'] := by rw [F.found]; exact ready_other s.now hne

theorem Finds.regs : (g.engs[e]).regs = (s.hub.engs[e]).regs := by rw [F.found]; exact ready_regs s.now e

end

/-! ### A store into the TCM (R466) -/

theorem toLE_length (n v : Nat) : (toLE n v).length = n := by
  induction n generalizing v with
  | zero => rfl
  | succ n ih => simp [toLE, ih]

theorem toLE_getD {n i : Nat} (hi : i < n) (v : Nat) : (toLE n v).getD i 0 = BitVec.ofNat 8 (v / 256 ^ i) := by
  induction n generalizing v i with
  | zero => omega
  | succ n ih =>
    cases i with
    | zero => simp [toLE]
    | succ i =>
      rw [toLE, List.getD_cons_succ, ih (by omega), Nat.div_div_eq_div_mul, ← Nat.pow_succ']

/-- The bytes of a value cut to its lowest `n` are the value's own. -/
theorem byte_of_cut {n i v : Nat} (hi : i < n) : BitVec.ofNat 8 (v % 2 ^ (8 * n) / 256 ^ i) = BitVec.ofNat 8 (v / 256 ^ i) := by
  have hcut : 2 ^ (8 * n) = 256 ^ i * 256 ^ (n - i) := by
    rw [← Nat.pow_add, Nat.add_sub_cancel' (Nat.le_of_lt hi), Nat.pow_mul]
  have hbyte : 256 ∣ 256 ^ (n - i) := Nat.pow_dvd_pow 256 (m := 1) (by omega)
  apply BitVec.eq_of_toNat_eq
  rw [BitVec.toNat_ofNat, BitVec.toNat_ofNat, hcut, Nat.mod_mul_right_div_self]
  exact Nat.mod_mod_of_dvd _ hbyte

/-- A store at an aligned address of the engine's own TCM writes its bytes. -/
theorem rvStore_of_tcm {h : Hub} {e : Engine} {n : Nat} {a : W32} (s0 : EngSt) (v : W32) (hend : a.toNat + n ≤ 0x10000)
    (haligned : a.toNat % n = 0) :
    h.rvStore e s0 n a v = h.memWrite (tcmAddr e a.toNat) (toLE n (v.toNat % 2 ^ (8 * n))) := by
  have htcm : a.toNat < 0x10000 := by
    rcases Nat.eq_zero_or_pos n with rfl | hn
    · rw [Nat.mod_zero] at haligned; omega
    · omega
  have hval : (BitVec.ofNat 32 (v.toNat % 2 ^ (8 * n))).toNat = v.toNat % 2 ^ (8 * n) :=
    (BitVec.toNat_ofNat _ _).trans (Nat.mod_eq_of_lt (Nat.lt_of_le_of_lt (Nat.mod_le _ _) v.isLt))
  have hfits : ¬(0x10000 < a.toNat + n) := by omega
  simp [Hub.rvStore, rangeOf, htcm, memAligned, haligned, hfits, hval]

theorem memGet_store (h : Hub) (n a v y : Nat) : (h.memWrite a (toLE n (v % 2 ^ (8 * n)))).memGet y =
    if a ≤ y ∧ y < a + n then BitVec.ofNat 8 (v / 256 ^ (y - a)) else h.memGet y := by
  rw [memGet_memWrite, toLE_length]
  split
  · rename_i hin
    rw [toLE_getD (by omega), byte_of_cut (by omega)]
  · rfl

/-- Settles O23: the store is the whole effect of the instruction but for the pc. -/
theorem engineStoreWritesOnlyItsBytes : Obligations.EngineStoreWritesOnlyItsBytes := by
  intro s e below n rs1 rs2 off hs hr hstate hawake hon g hg hstall hlate hirq hpc hwide hdec a ha hend haligned
  have F : Finds s e g (.store n rs1 rs2 off) := ⟨hr, hstate, hawake, hon, hg, hstall, hlate, hirq, hpc, hwide, hdec⟩
  subst ha
  have hstore := rvStore_of_tcm (h := g.setEng e EngSt.past4) (e := e) g.engs[e] ((g.engs[e]).reg rs2) hend haligned
  refine ⟨_, (F.exec below).trans (congrArg (fun h => Host.Outcome.next (s.after h)) hstore), fun y => ?_, fun k => ?_, ?_, ?_⟩
  · rw [after_memGet s hs _ (by rw [memWrite_base, setEng_mem, F.mem]; rfl), memGet_store]
    congr 1
    rw [Hub.memGet, setEng_mem, F.mem]
    rfl
  · exact after_get_congr s (memWrite_objs _ _ _) k
  · rw [after_engs, memWrite_engs, setEng_same]
    rfl
  · rw [after_engs, memWrite_engs, setEng_same]
    exact F.regs

/-! ### An ALU instruction with an immediate -/

theorem setReg_reg_same (x : EngSt) {rd : Nat} (v : W32) (hlo : 1 ≤ rd) (hhi : rd ≤ 31) : (x.setReg rd v).reg rd = v := by
  simp [EngSt.setReg, EngSt.reg, hlo, hhi]

theorem setReg_reg_other (x : EngSt) {rd j : Nat} (v : W32) (hne : j ≠ rd) : (x.setReg rd v).reg j = x.reg j := by
  unfold EngSt.setReg EngSt.reg
  split
  · split
    · rw [Vector.getElem_set_ne]
      omega
    · rfl
  · rfl

theorem reg_zero (x : EngSt) : x.reg 0 = 0 := rfl

theorem setReg_pc (x : EngSt) (rd : Nat) (v : W32) : (x.setReg rd v).pc = x.pc := by
  unfold EngSt.setReg
  split <;> rfl

theorem reg_congr {x y : EngSt} (h : x.regs = y.regs) (j : Nat) : x.reg j = y.reg j := by
  unfold EngSt.reg
  rw [h]

/-- Settles O28: the instruction writes the engine's register past its pc, and nothing else of the hub. -/
theorem engineAluImmediateWritesItsRegister : Obligations.EngineAluImmediateWritesItsRegister := by
  intro s e below op rd rs1 imm hs hr hstate hawake hon g hg hstall hlate hirq hpc hwide hdec
  have F : Finds s e g (.aluImm op rd rs1 imm) := ⟨hr, hstate, hawake, hon, hg, hstall, hlate, hirq, hpc, hwide, hdec⟩
  have heng : (s.after ((g.setEng e EngSt.past4).setReg e rd (aluRun op ((g.engs[e]).reg rs1) imm))).hub.engs[e] =
      (g.engs[e]).past4.setReg rd (aluRun op ((g.engs[e]).reg rs1) imm) := by
    rw [after_engs, Hub.setReg, setEng_same, setEng_same]
  refine ⟨_, F.exec below, ?_, fun hlo hhi => ?_, reg_zero _, fun j hj => ?_, fun f hf => ?_, fun k => ?_, fun a => ?_⟩
  · exact (congrArg EngSt.pc heng).trans (setReg_pc _ _ _)
  · exact (congrArg (EngSt.reg · rd) heng).trans (setReg_reg_same _ _ hlo hhi)
  · exact (congrArg (EngSt.reg · j) heng).trans ((setReg_reg_other _ _ hj).trans (reg_congr F.regs j))
  · have hreg := setEng_other (g.setEng e EngSt.past4) (fun x => x.setReg rd (aluRun op ((g.engs[e]).reg rs1) imm)) hf
    exact hreg.trans ((setEng_other g _ hf).trans (F.other hf))
  · exact after_get_congr s rfl k
  · exact after_memGet_same s hs _ F.mem a

end Sys2Proof.Machine
